-- ==== Sys2Proof/Word.lean ====
section
/-! DEFINITION. The words and index ranges of the Gelbraz F8: bytes of the ring, 32-bit stamps, and the
numbered things of 00_scope.md (bays, levels, groups, curves, factors, channels, positions). -/

namespace Sys2Proof

/-- One byte of a ring frame. -/
abbrev Byte := BitVec 8

/-- A 32-bit word: the monotonic count, a time stamp, the value of a reply entry (R197, R187). -/
abbrev Word32 := BitVec 32

/-- A feeder bay, 0 to 7 (00_scope.md, Numbering). -/
abbrev Bay := Fin 8

/-- A record of the capability table and its command slot: bays 0 to 7, and 8 for the incomer. -/
abbrev Rec := Fin 9

/-- An entry of the source table (R1). -/
abbrev SrcIx := Fin 12

/-- A fire level: 0 OFF, 1 MODERATE, 2 HIGH, 3 EXTREME, 4 BAN. -/
abbrev Level := Fin 5

/-- A setting group, 0 to 5 (R19). -/
abbrev GroupNo := Fin 6

/-- A curve, 0 to 7 (R22). -/
abbrev CurveNo := Fin 8

/-- An event factor, 0 to 23 (R165). -/
abbrev Factor := Fin 24

/-- A capture channel, 0 to 3 (R156). -/
abbrev Chan := Fin 4

/-- An entry of the segment table (R153). -/
abbrev SegIx := Fin 32

/-- A position of a sample stream: the cycle number times 32 plus the sample number, which runs from 0 to
8191 and starts again at 0, so that the difference of two positions is the step modulo 8192 (chapter 1,
Continuity).  An evaluation tag is the position of its evaluation point. -/
abbrev Pos := Fin 8192

end Sys2Proof
end

