-- ==== Sys2Proof/Syntax.lean ====
section
/-! DEFINITION. The commands of the F8: one constructor per row of spec/opcode_table.json, in the table's order,
and the ring frame that some of them carry.  A row that is an op of a management request carries the fields of
its op word that the op reads: the 12-bit immediate where the op code table of chapter 10 marks one, the target
where the op has one. -/

namespace Sys2Proof

/-- A frame on the ring: dest, src, kind, length, payload, check (chapter 10, Header and check).  The length
field is kept beside the payload bytes received, since a frame whose two disagree is discarded (R176). -/
structure Frame where
  dest    : Byte
  src     : Byte
  kind    : Byte
  length  : BitVec 16
  payload : List Byte
  check   : BitVec 16
  deriving DecidableEq, Repr

/-- The commands and events of the part, one per row of spec/opcode_table.json. -/
inductive Instr where
  /-- COLD_RESET (R196): power-up, or release of the reset pin, with the levels of the six address straps. -/
  | coldReset (straps : BitVec 6)
  /-- TFB_PIN_CHANGE (R91): the TFB pin takes the given level. -/
  | tfbPinChange (asserted : Bool)
  /-- RING_FRAME_RECEIVE (R176): a frame of any kind, its check good or bad, arrives on IN. -/
  | ringFrameReceive (f : Frame)
  /-- SAMPLE_FRAME (R3): a frame of kind SAMPLE whose check is good arrives on IN. -/
  | sampleFrame (dest src : Byte) (payload : List Byte)
  /-- BAYSTAT_FRAME (R44): a frame of kind BAYSTAT whose check is good arrives on IN. -/
  | baystatFrame (dest src : Byte) (payload : List Byte)
  /-- MGMT_REQ_FRAME (R178): a frame of kind MGMT-REQ whose check is good arrives on IN. -/
  | mgmtReqFrame (dest src : Byte) (payload : List Byte)
  /-- OUT_TAKE (R182): OUT is free, and the arbiter takes one frame. -/
  | outTake
  /-- REQUEST_START (R187). -/
  | requestStart
  /-- CAPTURE_BLOCK_PLACE (R163). -/
  | captureBlockPlace
  /-- SOURCE_SILENCE_EXPIRY (R7) of one source. -/
  | sourceSilenceExpiry (e : SrcIx)
  /-- BAYSTAT_SILENCE_EXPIRY (R48) of one record. -/
  | baystatSilenceExpiry (n : Rec)
  /-- COMMAND_TIMEOUT (R56) at one slot. -/
  | commandTimeout (n : Rec)
  /-- DEAD_TIMER_EXPIRY (R70) of one bay. -/
  | deadTimerExpiry (b : Bay)
  /-- SPRING_WAIT_EXPIRY (R71) of one bay. -/
  | springWaitExpiry (b : Bay)
  /-- RECLAIM_EXPIRY (R76) of one bay. -/
  | reclaimExpiry (b : Bay)
  /-- HUNT_START_DELAY_EXPIRY (R129). -/
  | huntStartDelayExpiry
  /-- DWELL_EXPIRY (R135). -/
  | dwellExpiry
  /-- RETEST_DELAY_EXPIRY (R138). -/
  | retestDelayExpiry
  /-- RETEST_DWELL_EXPIRY (R140). -/
  | retestDwellExpiry
  /-- IN_SILENCE_EXPIRY (R180). -/
  | inSilenceExpiry
  /-- BAD_OP (R188): an op word whose op code the table of chapter 10 does not give. -/
  | badOp (word : BitVec 32)
  /-- BAY_CONTEXT (R190). -/
  | bayContext (imm : BitVec 12)
  /-- WIDEN (R189). -/
  | widen (target imm : BitVec 12)
  /-- WRITE (R191): a write to any target. -/
  | write (target imm : BitVec 12)
  /-- WRITE_SOURCE (R1): a write at an address of table 1. -/
  | writeSource (addr : BitVec 8) (imm : BitVec 12)
  /-- WRITE_GROUP (R20): a write at an address of table 3. -/
  | writeGroup (addr : BitVec 8) (imm : BitVec 12)
  /-- WRITE_CURVE (R22): a write at an address of table 5 (the curve headers) or of table 4 (the points). -/
  | writeCurve (header : Bool) (addr : BitVec 8) (imm : BitVec 12)
  /-- WRITE_CAPABILITY (R41): a write at an address of table 2. -/
  | writeCapability (addr : BitVec 8) (imm : BitVec 12)
  /-- WRITE_FIRE_MAP (R103): a write at an address of table 8. -/
  | writeFireMap (addr : BitVec 8) (imm : BitVec 12)
  /-- WRITE_HUNT_TABLE (R126): a write at an address of table 10. -/
  | writeHuntTable (addr : BitVec 8) (imm : BitVec 12)
  /-- WRITE_SEGMENT (R153): a write at an address of table 12. -/
  | writeSegment (addr : BitVec 8) (imm : BitVec 12)
  /-- WRITE_CAPTURE_CONFIG (R156): a write at an address of table 13. -/
  | writeCaptureConfig (addr : BitVec 8) (imm : BitVec 12)
  /-- WRITE_EVENT_CONFIG (R166): a write at an address of table 15. -/
  | writeEventConfig (addr : BitVec 8) (imm : BitVec 12)
  /-- READ (R191). -/
  | read (target : BitVec 12)
  /-- READ_STATUS (R191). -/
  | readStatus (imm : BitVec 12)
  /-- READ_RECORDS (R155). -/
  | readRecords (imm : BitVec 12)
  /-- READ_CAPTURE (R163). -/
  | readCapture (imm : BitVec 12)
  /-- SELECT_BASE_GROUP (R97). -/
  | selectBaseGroup (imm : BitVec 12)
  /-- PUSH_MANUAL (R98). -/
  | pushManual (imm : BitVec 12)
  /-- POP_MANUAL (R98). -/
  | popManual
  /-- SET_FIRE_LEVEL (R90). -/
  | setFireLevel (imm : BitVec 12)
  /-- SEASON_LOCK (R106). -/
  | seasonLock
  /-- SEASON_UNLOCK (R108). -/
  | seasonUnlock
  /-- BAY_OPEN (R84). -/
  | bayOpen
  /-- BAY_CLOSE (R85). -/
  | bayClose
  /-- BAY_INDICATE (R59). -/
  | bayIndicate (imm : BitVec 12)
  /-- BAY_INTERLOCK (R59). -/
  | bayInterlock (imm : BitVec 12)
  /-- BLOCK_RANGE (R82). -/
  | blockRange (imm : BitVec 12)
  /-- UNBLOCK_RANGE (R82). -/
  | unblockRange (imm : BitVec 12)
  /-- RESET_LOCKOUT (R86). -/
  | resetLockout
  /-- ACK_BREAKER_FAIL (R64). -/
  | ackBreakerFail
  /-- CLEAR_STANDDOWN (R65). -/
  | clearStanddown
  /-- START_HUNT (R130). -/
  | startHunt
  /-- ABORT_HUNT (R142). -/
  | abortHunt
  /-- ARM_CAPTURE (R157). -/
  | armCapture (imm : BitVec 12)
  /-- DISARM_CAPTURE (R158). -/
  | disarmCapture (imm : BitVec 12)
  /-- CLEAR_EVENTS (R173). -/
  | clearEvents (imm : BitVec 12)
  /-- SET_THRESHOLD (R167). -/
  | setThreshold (imm : BitVec 12)
  /-- SET_TIME (R197). -/
  | setTime (imm : BitVec 12)
  /-- SET_REPORT_DEST (R168). -/
  | setReportDest (imm : BitVec 12)
  /-- SET_BACKUP_ADDR (R41). -/
  | setBackupAddr (imm : BitVec 12)
  /-- COMMISSION (R193). -/
  | commission
  /-- DECOMMISSION (R194). -/
  | decommission
  /-- RESTART (R195). -/
  | restart
  /-- RESET_PIN_ASSERTED (R196). -/
  | resetPinAsserted
  deriving DecidableEq, Repr

end Sys2Proof
end

