-- ==== Sys2Proof/Machine/Operands.lean ====
section
/-! DEFINITION. The operand forms of the F8's commands: the fields of an op word and of a target, the widened
immediate, the addresses of the tables, and the byte-order and sign helpers of frames (chapter 10, Formats). -/

namespace Sys2Proof.Machine

/-! ### Bytes -/

/-- A number as one byte. -/
def byte (n : Nat) : Byte := BitVec.ofNat 8 n

/-- Two bytes, most significant first. -/
def bytes16 (n : Nat) : List Byte := [byte (n / 256), byte n]

/-- Four bytes, most significant first. -/
def bytes32 (w : Word32) : List Byte :=
  [w.extractLsb' 24 8, w.extractLsb' 16 8, w.extractLsb' 8 8, w.extractLsb' 0 8]

/-- A signed 16-bit value as two bytes, in two's complement. -/
def bytesInt16 (x : Int) : List Byte := bytes16 (x % 65536).toNat

/-- The number two bytes spell, most significant first. -/
def nat16 (hi lo : Byte) : Nat := hi.toNat * 256 + lo.toNat

/-- The signed number two bytes spell, in two's complement. -/
def int16 (hi lo : Byte) : Int :=
  let n := nat16 hi lo
  if n < 32768 then (n : Int) else (n : Int) - 65536

/-- The 32-bit word four bytes spell, most significant first. -/
def word32 (b0 b1 b2 b3 : Byte) : Word32 := b0 ++ b1 ++ b2 ++ b3

/-- A number as a 32-bit value of a reply entry. -/
def value (n : Nat) : Word32 := BitVec.ofNat 32 n

/-- Yes and no, set and clear, are 1 and 0 (chapter 10, Target codes). -/
def flagValue (b : Bool) : Word32 := if b then 1 else 0

/-- A signed value of a reply entry. -/
def intValue (x : Int) : Word32 := BitVec.ofInt 32 x

/-- The value read from a field that is absent or unset (R186). -/
def absentValue : Word32 := 0xFFFFFFFF

/-- A field's value, or the value of an absent field (R186). -/
def optValue (o : Option Word32) : Word32 := o.getD absentValue

/-- The value 255 stands for NONE and for EMPTY (chapter 10, Target codes). -/
def noneValue (o : Option Nat) : Word32 := value (o.getD 255)

/-! ### The op word -/

/-- The op code: byte 0 of the word (chapter 10, Management frames). -/
def opCode (w : Word32) : Nat := (w.extractLsb' 24 8).toNat

/-- The 12-bit target: the upper twelve bits of bytes 1 to 3. -/
def opTarget (w : Word32) : BitVec 12 := w.extractLsb' 12 12

/-- The 12-bit immediate: the lower twelve bits of bytes 1 to 3. -/
def opImm (w : Word32) : BitVec 12 := w.extractLsb' 0 12

/-- An op word from its fields. -/
def opWordOf (code : Nat) (target imm : BitVec 12) : Word32 := byte code ++ target ++ imm

/-- WIDEN's 20-bit value: the target's low 8 bits times 4096, plus the immediate (R189). -/
def widenValue (target imm : BitVec 12) : BitVec 20 := target.extractLsb' 0 8 ++ imm

/-- An op's value: its immediate, with the pending widen above it where one is pending (R189). -/
def widened (w : Option (BitVec 20)) (imm : BitVec 12) : Word32 :=
  match w with
  | none => imm.zeroExtend 32
  | some v => v ++ imm

/-! ### Targets (chapter 10, Target codes) -/

/-- The table code of a target: its upper 4 bits. -/
def targetTable (t : BitVec 12) : Nat := (t.extractLsb' 8 4).toNat

/-- The address of a target: its lower 8 bits. -/
def targetAddr (t : BitVec 12) : BitVec 8 := t.extractLsb' 0 8

/-- A target from its table code and address. -/
def targetOf (table : Nat) (addr : BitVec 8) : BitVec 12 := BitVec.ofNat 4 table ++ addr

/-- The index in the high bits of an address, where it lies within the table's range. -/
def addrIndex (addr : BitVec 8) (stride n : Nat) : Option (Fin n) :=
  if h : addr.toNat / stride < n then some ⟨addr.toNat / stride, h⟩ else none

/-- The field in the low bits of an address. -/
def addrField (addr : BitVec 8) (stride : Nat) : Nat := addr.toNat % stride

/-- A number as an index, where it lies within the range. -/
def index? (n : Nat) (v : Nat) : Option (Fin n) := if h : v < n then some ⟨v, h⟩ else none

/-- Whether a table's address names a field that the target table marks writable.  Where the fields depend on the bay
context (table 3), the address may still be refused for the context at hand (R186). -/
def writableAddr (table : Nat) (addr : BitVec 8) : Bool :=
  match table with
  | 1  => (addrIndex addr 16 12).isSome && addrField addr 16 ≤ 2
  | 2  => addr.toNat ≤ 6
  | 3  => (addrIndex addr 32 6).isSome && addrField addr 32 ≤ 24
  | 4  => true
  | 5  => addrField addr 32 == 0
  | 8  => (addrIndex addr 32 5).isSome && addrField addr 32 ≤ 4
  | 10 => addr.toNat ≤ 4 || (16 ≤ addr.toNat && addr.toNat ≤ 31)
  | 12 => addrField addr 8 ≤ 3
  | 13 => (addrIndex addr 16 4).isSome && addrField addr 16 ≤ 4
  | 15 => (addrIndex addr 8 24).isSome && addrField addr 8 ≤ 1
  | _  => false

/-! ### Immediates that carry more than one value -/

/-- BLOCK_RANGE and UNBLOCK_RANGE: the base is the immediate divided by 16 (chapter 10, Management frames). -/
def rangeBase (v : Word32) : Nat := v.toNat / 16

/-- BLOCK_RANGE and UNBLOCK_RANGE: the count is the remainder. -/
def rangeCount (v : Word32) : Nat := v.toNat % 16

/-- READ_CAPTURE: the count is the low 12 bits of the widened value. -/
def captureCount (v : Word32) : Nat := v.toNat % 4096

/-- READ_CAPTURE: the first row is the next 12 bits. -/
def captureFirst (v : Word32) : Nat := v.toNat / 4096 % 4096

/-- READ_CAPTURE: the channel is the bits above. -/
def captureChannel (v : Word32) : Nat := v.toNat / 16777216

end Sys2Proof.Machine
end

