-- ==== Sys2Proof/Decode.lean ====
section
/-! DEFINITION. Decoding.  The table gives no row any bits, so no table word spells a command and decodeTableWord answers
none.  The op words of a management request do have bits (chapter 10, Management frames): decodeOp reads the command
that an op word stands for, opWord writes a command's op word, and opMatches says whether an op word asks for a
command (R188). -/

namespace Sys2Proof

open Sys2Proof.Machine

/-- No row of spec/opcode_table.json gives bits, so no word spells a command. -/
def decodeTableWord (_nbits _w : Nat) : Option Instr := none

/-- The command of a WRITE op: that of the table its target names where the address is a writable field there, and else
the plain WRITE, which refuses it (R186, R191). -/
def decodeWrite (t imm : BitVec 12) : Instr :=
  let a := targetAddr t
  if writableAddr (targetTable t) a then
    match targetTable t with
    | 1  => .writeSource a imm
    | 2  => .writeCapability a imm
    | 3  => .writeGroup a imm
    | 4  => .writeCurve false a imm
    | 5  => .writeCurve true a imm
    | 8  => .writeFireMap a imm
    | 10 => .writeHuntTable a imm
    | 12 => .writeSegment a imm
    | 13 => .writeCaptureConfig a imm
    | 15 => .writeEventConfig a imm
    | _  => .write t imm
  else .write t imm

/-- The command an op word asks for, by the op code table of chapter 10; an op code not given there is a BAD_OP (R188). -/
def decodeOp (w : Word32) : Instr :=
  let t := opTarget w
  let imm := opImm w
  match opCode w with
  | 0x01 => .bayContext imm
  | 0x02 => .widen t imm
  | 0x10 => decodeWrite t imm
  | 0x11 => .read t
  | 0x12 => .readStatus imm
  | 0x13 => .readRecords imm
  | 0x14 => .readCapture imm
  | 0x20 => .selectBaseGroup imm
  | 0x21 => .pushManual imm
  | 0x22 => .popManual
  | 0x28 => .setFireLevel imm
  | 0x29 => .seasonLock
  | 0x2A => .seasonUnlock
  | 0x30 => .bayOpen
  | 0x31 => .bayClose
  | 0x32 => .bayIndicate imm
  | 0x33 => .bayInterlock imm
  | 0x34 => .blockRange imm
  | 0x35 => .unblockRange imm
  | 0x36 => .resetLockout
  | 0x38 => .ackBreakerFail
  | 0x39 => .clearStanddown
  | 0x40 => .startHunt
  | 0x41 => .abortHunt
  | 0x48 => .armCapture imm
  | 0x49 => .disarmCapture imm
  | 0x50 => .clearEvents imm
  | 0x51 => .setThreshold imm
  | 0x58 => .setTime imm
  | 0x59 => .setReportDest imm
  | 0x5A => .setBackupAddr imm
  | 0x60 => .commission
  | 0x61 => .decommission
  | 0x62 => .restart
  | _    => .badOp w

/-- The op word of a command, with the fields the op does not read 0; none for a command that is no op of a request. -/
def opWord : Instr → Option Word32
  | .badOp w                  => some w
  | .bayContext imm           => some (opWordOf 0x01 0 imm)
  | .widen t imm              => some (opWordOf 0x02 t imm)
  | .write t imm              => some (opWordOf 0x10 t imm)
  | .writeSource a imm        => some (opWordOf 0x10 (targetOf 1 a) imm)
  | .writeCapability a imm    => some (opWordOf 0x10 (targetOf 2 a) imm)
  | .writeGroup a imm         => some (opWordOf 0x10 (targetOf 3 a) imm)
  | .writeCurve hdr a imm     => some (opWordOf 0x10 (targetOf (if hdr then 5 else 4) a) imm)
  | .writeFireMap a imm       => some (opWordOf 0x10 (targetOf 8 a) imm)
  | .writeHuntTable a imm     => some (opWordOf 0x10 (targetOf 10 a) imm)
  | .writeSegment a imm       => some (opWordOf 0x10 (targetOf 12 a) imm)
  | .writeCaptureConfig a imm => some (opWordOf 0x10 (targetOf 13 a) imm)
  | .writeEventConfig a imm   => some (opWordOf 0x10 (targetOf 15 a) imm)
  | .read t                   => some (opWordOf 0x11 t 0)
  | .readStatus imm           => some (opWordOf 0x12 0 imm)
  | .readRecords imm          => some (opWordOf 0x13 0 imm)
  | .readCapture imm          => some (opWordOf 0x14 0 imm)
  | .selectBaseGroup imm      => some (opWordOf 0x20 0 imm)
  | .pushManual imm           => some (opWordOf 0x21 0 imm)
  | .popManual                => some (opWordOf 0x22 0 0)
  | .setFireLevel imm         => some (opWordOf 0x28 0 imm)
  | .seasonLock               => some (opWordOf 0x29 0 0)
  | .seasonUnlock             => some (opWordOf 0x2A 0 0)
  | .bayOpen                  => some (opWordOf 0x30 0 0)
  | .bayClose                 => some (opWordOf 0x31 0 0)
  | .bayIndicate imm          => some (opWordOf 0x32 0 imm)
  | .bayInterlock imm         => some (opWordOf 0x33 0 imm)
  | .blockRange imm           => some (opWordOf 0x34 0 imm)
  | .unblockRange imm         => some (opWordOf 0x35 0 imm)
  | .resetLockout             => some (opWordOf 0x36 0 0)
  | .ackBreakerFail           => some (opWordOf 0x38 0 0)
  | .clearStanddown           => some (opWordOf 0x39 0 0)
  | .startHunt                => some (opWordOf 0x40 0 0)
  | .abortHunt                => some (opWordOf 0x41 0 0)
  | .armCapture imm           => some (opWordOf 0x48 0 imm)
  | .disarmCapture imm        => some (opWordOf 0x49 0 imm)
  | .clearEvents imm          => some (opWordOf 0x50 0 imm)
  | .setThreshold imm         => some (opWordOf 0x51 0 imm)
  | .setTime imm              => some (opWordOf 0x58 0 imm)
  | .setReportDest imm        => some (opWordOf 0x59 0 imm)
  | .setBackupAddr imm        => some (opWordOf 0x5A 0 imm)
  | .commission               => some (opWordOf 0x60 0 0)
  | .decommission             => some (opWordOf 0x61 0 0)
  | .restart                  => some (opWordOf 0x62 0 0)
  | _                         => none

/-- Whether an op word asks for a command: the word decodes to it, or the command is the plain WRITE of the word's own
target and immediate. -/
def opMatches (c : Instr) (w : Word32) : Bool :=
  match c with
  | .write t imm => opCode w == 0x10 && opTarget w == t && opImm w == imm
  | c            => decodeOp w == c

end Sys2Proof
end

