-- ==== Sys2Proof/Config.lean ====
section
/-! DEFINITION. What is fixed for the machine: the times, sizes and limits the manual gives, each with the rule that
gives it, and the one thing of the surroundings that State.reset needs (the strap address).  The manual leaves no
value of an instruction open, so there is no free value here (NOTES.md, Assumptions). -/

namespace Sys2Proof.Config

/-- Full scale of an inverse-time accumulator, 2^24 (R29 to R31). -/
abbrev fullScale : Nat := 16777216

/-- Largest multiple of pickup the accumulator times, in steps of 1/64 (R30). -/
abbrev maxMultiple : Nat := 2560

/-- Samples in a window (R10). -/
abbrev windowLength : Nat := 32

/-- Instants in a bay's history ring (chapter 1, The bay history ring). -/
abbrev historyLength : Nat := 128

/-- Instants in a bay's waiting list (R15). -/
abbrev waitingLength : Nat := 8

/-- A source's silence time in ms (R7). -/
abbrev sourceSilenceMs : Nat := 2

/-- A record's BAYSTAT silence time in ms (R44, R48). -/
abbrev baystatSilenceMs : Nat := 1000

/-- The IN silence time in ms (R180). -/
abbrev inSilenceMs : Nat := 10

/-- Command times in ms: OPEN, CLOSE, and INDICATE or INTERLOCK_TOGGLE (R52). -/
abbrev openMs : Nat := 120
abbrev closeMs : Nat := 250
abbrev panelMs : Nat := 1000

/-- The spring wait in ms (R70, R71). -/
abbrev springWaitMs : Nat := 2000

/-- Queue sizes: request queue (R178), forward queue (R179), reply slots (R187), capture-block queue (R163). -/
abbrev requestQueueSize : Nat := 4
abbrev forwardQueueSize : Nat := 8
abbrev replySlots : Nat := 2
abbrev captureQueueSize : Nat := 4

/-- The payload limit of a frame (R176, R184). -/
abbrev payloadLimit : Nat := 1024

/-- Slots of the fault record ring (R149). -/
abbrev recordSlots : Nat := 16

/-- Rows of a capture block (R163). -/
abbrev blockRows : Nat := 32

/-- DESIGN CHOICE (log entry 1): the levels of the six address straps behind State.reset.  The straps are set by the
installer (R181); COLD_RESET takes any other levels. -/
abbrev resetStraps : BitVec 6 := 1

end Sys2Proof.Config
end

