-- ==== Sys2Proof/Machine/State.lean ====
section
/-! DEFINITION. The state of the F8, block by block in the order of 00_scope.md (Functional blocks), the reasons a
step can stop, and the state after reset.  Times still to run are held in ms remaining (none: the timer is stopped,
some 0: it has run out and its expiry has not been taken yet); see log entry 2. -/

namespace Sys2Proof.Machine

/-- A result code of a reply entry (chapter 10, Management frames), and the code of a refusal at a slot (R51). -/
inductive ResultCode where
  | ok | badOp | badArg | conflict | notCapable | inUse | locked | state | busy | invalidTable
  | localMode | interlock | standdown | notAttempted
  deriving DecidableEq, Repr

/-! ### Measurement Unit -/

/-- What a stream carries (chapter 1, The source table). -/
inductive Role where
  | bay (n : Bay)
  | bus
  deriving DecidableEq, Repr

/-- One entry of the source table (R1). -/
structure SourceEntry where
  addr  : Option Nat
  role  : Option Role
  inUse : Bool
  deriving DecidableEq, Repr

inductive SourceState where
  | absent | filling | valid | stale
  deriving DecidableEq, Repr

/-- The four values of a sample, in channel order: IA, IB, IC, IN of a bay, or VA, VB, VC, VN of the bus. -/
structure Quad where
  a : Int
  b : Int
  c : Int
  n : Int
  deriving DecidableEq, Repr

/-- One entry of a source's windows: the position it belongs to, its held mark and the values of the four channels.
The fifth window of a bay source, I0calc, is formed from the same entry (R10). -/
structure Sample where
  pos  : Pos
  held : Bool
  vals : Quad
  deriving DecidableEq, Repr

/-- The continuity context of a source and its windows (chapter 1, Continuity; R10), oldest entry first. -/
structure SourceCtx where
  state    : SourceState
  lastPos  : Option Pos
  missing  : Nat
  fill     : Nat
  lastTag  : Option Pos
  silence  : Option Nat
  window   : List Sample
  deriving DecidableEq, Repr

/-- A phasor and its magnitude (R12, R13). -/
structure Meas where
  re  : Int
  im  : Int
  mag : Nat
  deriving DecidableEq, Repr

/-- A bus evaluation (R11, R14). -/
structure BusEval where
  tag : Pos
  va  : Meas
  vb  : Meas
  vc  : Meas
  vn  : Meas
  deriving DecidableEq, Repr

/-- An instant of a bay's history (chapter 1, The bay history ring). -/
structure Instant where
  pos  : Pos
  held : Bool
  bay  : Quad
  bus  : Option Quad
  deriving DecidableEq, Repr

structure Meu where
  table     : Vector SourceEntry 12
  ctx       : Vector SourceCtx 12
  latestBus : Option BusEval
  history   : Vector (List Instant) 8
  waiting   : Vector (List Instant) 8
  deriving DecidableEq, Repr

/-! ### Protection Unit -/

/-- A bay record of a setting group: its 25 fields in table order, none while unset (R19). -/
abbrev BayRecord := Vector (Option Nat) 25

/-- A setting group: eight bay records and the station part's four fields (R19). -/
structure Group where
  bays    : Vector BayRecord 8
  station : Vector (Option Nat) 4
  deriving DecidableEq, Repr

/-- A curve: its count and its sixteen point slots (R22). -/
structure Curve where
  count : Option Nat
  m     : Vector (Option Nat) 16
  inc   : Vector (Option Nat) 16
  deriving DecidableEq, Repr

/-- The cause of a protection trip (R35). -/
inductive TripCause where
  | phi | ptoc | etoc | sef
  deriving DecidableEq, Repr

/-- The element state of a bay and its trip latch (chapter 2, Element state). -/
structure Elements where
  ptoc  : Nat
  etoc  : Nat
  phi   : Nat
  sef   : Nat
  latch : Option TripCause
  deriving DecidableEq, Repr

structure Pru where
  groups : Vector Group 6
  curves : Vector Curve 8
  elem   : Vector Elements 8
  deriving DecidableEq, Repr

/-! ### Earth-Fault Unit -/

inductive Direction where
  | unavailable | undecided | forward | reverse
  deriving DecidableEq, Repr

inductive NvdState where
  | normal | timing | displaced | unknown
  deriving DecidableEq, Repr

/-- The station neutral-voltage element (chapter 6). -/
structure Nvd where
  state   : NvdState
  timing  : Nat
  confirm : Nat
  deriving DecidableEq, Repr

structure Efu where
  direction : Vector Direction 8
  nvd       : Nvd
  deriving DecidableEq, Repr

/-! ### Bay Control Unit -/

/-- A record of the capability table (R41). -/
structure Capability where
  addr          : Option Nat
  inService     : Bool
  recloseCap    : Bool
  sefCap        : Bool
  hasLocal      : Bool
  hasInterlock  : Bool
  hasSpring     : Bool
  deriving DecidableEq, Repr

inductive Position where
  | unknown | opened | closed | travel | faulty
  deriving DecidableEq, Repr

inductive Lamp where
  | off | on | blink | unknown
  deriving DecidableEq, Repr

/-- The bay status of a record (chapter 3, Bay status).  springReported is the spring bit of the last BAYSTAT taken,
which R42 needs when the record gains a spring sensor (log entry 12). -/
structure BayStatus where
  position       : Position
  localMode      : Bool
  interlock      : Bool
  spring         : Bool
  reported       : Lamp
  indicator      : Lamp
  presence       : Bool
  silence        : Option Nat
  springReported : Bool
  deriving DecidableEq, Repr

/-- The argument of an INDICATE (chapter 3, The command slots). -/
inductive LampArg where
  | off | on | blink | noChange
  deriving DecidableEq, Repr

/-- A breaker or indicator command: its kind and argument. -/
inductive Command where
  | opening
  | closing
  | indicate (arg : LampArg)
  | interlock (engage : Bool)
  deriving DecidableEq, Repr

/-- The requester classes, highest first (R52). -/
inductive ReqClass where
  | trip | hunt | reclose | management | annunciate
  deriving DecidableEq, Repr

/-- The command in flight at a slot. -/
structure Flight where
  cmd          : Command
  tag          : Nat
  cls          : ReqClass
  issued       : Word32
  tripAttached : Bool
  timer        : Nat
  deriving DecidableEq, Repr

/-- The slot state, with the current command in the two states that have one (R50). -/
inductive SlotState where
  | free
  | inFlight (f : Flight)
  | echoed (f : Flight)
  deriving DecidableEq, Repr

/-- The pending requests of a slot: at most one per class. -/
structure Pending where
  trip       : Option Command
  hunt       : Option Command
  reclose    : Option Command
  management : Option Command
  annunciate : Option Command
  deriving DecidableEq, Repr

/-- How a command ended, as the slot's last result says it. -/
inductive CmdOutcome where
  | done | refused | timeout | superseded
  | refusedAtRequest (code : ResultCode)
  deriving DecidableEq, Repr

structure LastResult where
  cls     : ReqClass
  cmd     : Command
  tag     : Option Nat
  outcome : CmdOutcome
  time    : Word32
  deriving DecidableEq, Repr

structure Slot where
  state      : SlotState
  pend       : Pending
  lastTag    : Nat
  lastResult : Option LastResult
  deriving DecidableEq, Repr

structure Bcu where
  cap        : Vector Capability 9
  status     : Vector BayStatus 9
  slots      : Vector Slot 9
  backupFlag : Bool
  deriving DecidableEq, Repr

/-! ### Reclose Controller -/

inductive ClosePhase where
  | waiting | issued | superseded
  deriving DecidableEq, Repr

inductive LockoutCause where
  | protectionBlocked | shotsExhausted | closeFailed | breakerFail | spring | statusLost | huntFound
  | fireCancel | standdown
  deriving DecidableEq, Repr

/-- The reclose state.  The close phase is present in CLOSING alone and the lockout cause in LOCKOUT alone, so each
stands in its state. -/
inductive RecloseState where
  | idleClosed | idleOpen | dead
  | closing (phase : ClosePhase)
  | reclaim
  | lockout (cause : LockoutCause)
  deriving DecidableEq, Repr

/-- A reason of the block set. -/
inductive BlockReason where
  | fire | hunt | manual | localMode | interlock | capability
  deriving DecidableEq, Repr

/-- The block set of a bay: no reason twice. -/
structure BlockSet where
  fire       : Bool
  hunt       : Bool
  manual     : Bool
  localMode  : Bool
  interlock  : Bool
  capability : Bool
  deriving DecidableEq, Repr

/-- The reclaim timer is stopped, running, or run out (R76). -/
inductive ReclaimTimer where
  | stopped
  | running (left : Nat)
  | runOut
  deriving DecidableEq, Repr

/-- The reclose record of a bay (chapter 4). -/
structure RecloseRecord where
  state        : RecloseState
  shots        : Nat
  lastDefinite : Option Position
  block        : BlockSet
  deadTimer    : Option Nat
  springTimer  : Option Nat
  reclaimTimer : ReclaimTimer
  deriving DecidableEq, Repr

/-! ### Fire Regime Unit -/

/-- A record of the fire map (R93). -/
structure FireRecord where
  group   : Option GroupNo
  mask    : BitVec 8
  shotCap : Nat
  fastAll : Bool
  sefCap  : Nat
  deriving DecidableEq, Repr

inductive Origin where
  | base | manual | fire | hunt
  deriving DecidableEq, Repr

structure StackEntry where
  origin : Origin
  group  : GroupNo
  placed : Word32
  deriving DecidableEq, Repr

/-- The fire regime; the stack is listed from bottom to top. -/
structure Fru where
  commanded  : Level
  pinLevel   : Level
  effective  : Level
  fireMap    : Vector FireRecord 5
  stack      : List StackEntry
  seasonLock : Bool
  deriving DecidableEq, Repr

/-! ### Hunt Controller -/

structure PlanPosition where
  bay   : Option Bay
  dwell : Nat
  deriving DecidableEq, Repr

structure HuntTable where
  enable      : Bool
  group       : Option GroupNo
  startDelay  : Nat
  retestDelay : Nat
  fireLimit   : Nat
  plan        : Vector PlanPosition 8
  deriving DecidableEq, Repr

inductive HuntState where
  | idle | waiting | opening | dwell | restoring | retestWait | retestClosing | retestDwell | aborting
  deriving DecidableEq, Repr

inductive CandOutcome where
  | pending | healthy | found | skippedLocal | skippedOpen | skippedReverse | skippedAbsent
  | skippedInterlock | failedOpen | failedRestore
  deriving DecidableEq, Repr

structure Candidate where
  bay      : Option Bay
  dwell    : Nat
  snapshot : Option Direction
  outcome  : CandOutcome
  deriving DecidableEq, Repr

inductive HuntResult where
  | foundLocked | foundTransient | foundPersistent | clearedUnattributed | exhausted
  | abortedTrip | abortedMgmt | abortedStale | abortedStanddown
  deriving DecidableEq, Repr

structure HuntLast where
  result  : HuntResult
  bay     : Option Bay
  started : Word32
  ended   : Word32
  deriving DecidableEq, Repr

/-- The hunt table and the hunt context.  started holds the running hunt's start stamp (R131). -/
structure Hnc where
  table         : HuntTable
  state         : HuntState
  timer         : Option Nat
  current       : Option (Fin 8)
  cands         : List Candidate
  bayOpen       : Option Bay
  restoreOut    : Bool
  rearm         : Bool
  pendingResult : Option HuntResult
  last          : Option HuntLast
  started       : Word32
  deriving DecidableEq, Repr

/-! ### Recorder -/

inductive RecordCause where
  | phi | ptoc | etoc | sef | huntFound | breakerFail
  deriving DecidableEq, Repr

/-- A fault record (chapter 8, The fault record ring). -/
structure FaultRecord where
  seq       : BitVec 16
  stamp     : Word32
  bay       : Bay
  cause     : RecordCause
  shots     : Nat
  group     : GroupNo
  level     : Level
  tag       : Option Pos
  ia        : Nat
  ib        : Nat
  ic        : Nat
  inn       : Nat
  i0        : Nat
  vn        : Option Nat
  direction : Direction
  reactance : Option Int
  segLabel  : Option Nat
  chans     : BitVec 4
  deriving DecidableEq, Repr

/-- A bay's latest evaluation, as the REC keeps it. -/
structure LatestEval where
  tag : Pos
  ia  : Nat
  ib  : Nat
  ic  : Nat
  inn : Nat
  i0  : Nat
  deriving DecidableEq, Repr

structure Segment where
  bay      : Option Bay
  xLow     : Int
  xHigh    : Int
  segLabel : Nat
  deriving DecidableEq, Repr

inductive ChanState where
  | disarmed | armed | running | done
  deriving DecidableEq, Repr

/-- A capture channel: its configuration, its live state and the rows of its region in order. -/
structure Channel where
  trigger     : Factor
  bay         : Bay
  pre         : Nat
  length      : Nat
  reportAtEnd : Bool
  state       : ChanState
  rows        : List Instant
  target      : Nat
  truncated   : Bool
  holding     : Option Factor
  deriving DecidableEq, Repr

/-- A readout in progress: the rows still to place and where their blocks go (R163). -/
structure Readout where
  chan : Chan
  next : Nat
  left : Nat
  dest : Byte
  deriving DecidableEq, Repr

/-- The Recorder.  readouts holds the readouts in progress, the one that started earliest first. -/
structure Recorder where
  ring     : Vector (Option FaultRecord) 16
  top      : Fin 16
  count    : Nat
  nextSeq  : BitVec 16
  latest   : Vector (Option LatestEval) 8
  segments : Vector Segment 32
  chans    : Vector Channel 4
  readouts : List Readout
  deriving DecidableEq, Repr

/-! ### Event Unit -/

/-- The factor record: state and configuration (chapter 9).  A last detail is its 12 bytes as an EVENT frame carries
them. -/
structure FactorRecord where
  flag       : Bool
  reported   : Bool
  held       : Bool
  count      : Nat
  mask       : BitVec 9
  firstTime  : Option Word32
  lastDetail : Option (List Byte)
  capMask    : BitVec 4
  enable     : Bool
  level      : Nat
  deriving DecidableEq, Repr

/-- The Event Unit.  outSlot is the event out-slot, with the factor its frame was built for. -/
structure Evu where
  factors   : Vector FactorRecord 24
  threshold : Nat
  dest      : Nat
  outSlot   : Option (Factor × Frame)
  deriving DecidableEq, Repr

/-! ### Management Unit -/

inductive PartState where
  | bypass | unconfigured | active | standdown
  deriving DecidableEq, Repr

/-- A request in the request queue (R178). -/
structure Request where
  tag  : BitVec 16
  stop : Bool
  ops  : List Word32
  src  : Byte
  deriving DecidableEq, Repr

/-- One entry of a reply (R187). -/
structure ReplyEntry where
  code  : ResultCode
  value : Word32
  deriving DecidableEq, Repr

/-- A data block of a reply: the index of its op and its contents. -/
structure ReplyBlock where
  op    : Nat
  bytes : List Byte
  deriving DecidableEq, Repr

/-- The request in progress: the op words still to carry out, the entries and blocks of those carried out, the pending
widen and the bay context (R187 to R190). -/
structure Progress where
  tag     : BitVec 16
  stop    : Bool
  src     : Byte
  opCount : Nat
  ops     : List Word32
  entries : List ReplyEntry
  blocks  : List ReplyBlock
  widen   : Option (BitVec 20)
  context : Rec
  deriving DecidableEq, Repr

structure Mgu where
  queue  : List Request
  cur    : Option Progress
  offset : Word32
  part   : PartState
  deriving DecidableEq, Repr

/-! ### Ring Interface Unit and pins -/

/-- The Ring Interface Unit.  replies holds the replies placed and not yet taken, the one placed earlier first; with the
slot reserved for a request in progress they fill the two reply slots.  sending is the frame OUT has begun last, and
lastIn the stamp of the last frame that arrived on IN. -/
structure Riu where
  own       : BitVec 6
  inUp      : Bool
  inTimer   : Option Nat
  checkFail : Nat
  overrun   : Nat
  fwd       : List Frame
  outPlaces : Vector (Option Frame) 9
  replies   : List Frame
  capQueue  : List Frame
  lastIn    : Word32
  sending   : Option Frame
  deriving DecidableEq, Repr

/-- The pins: the TFB pin's level, whether the reset pin is asserted, and the straps as last read. -/
structure Pins where
  tfb       : Bool
  resetHeld : Bool
  straps    : BitVec 6
  deriving DecidableEq, Repr

/-- The state of the F8 and the queue of the commands that are waiting, first in, first out. -/
structure State where
  meu     : Meu
  pru     : Pru
  efu     : Efu
  bcu     : Bcu
  rcc     : Vector RecloseRecord 8
  fru     : Fru
  hnc     : Hnc
  recd    : Recorder
  evu     : Evu
  mgu     : Mgu
  riu     : Riu
  pins    : Pins
  mono    : Word32
  pending : List Instr
  deriving DecidableEq, Repr

/-- Why a step can stop with a fault: no command of the F8 does.  The manual gives every command an effect or an answer
in every state, so the type has no constructor (safe: nothing raises a fault). -/
inductive Fault where
  deriving DecidableEq, Repr

/-- Why a command can be refused. -/
inductive Refusal where
  /-- Raised by exec's arm for a command the model gives no meaning yet; no arm of this model does (safe). -/
  | notModelled (mnemonic : String)
  deriving DecidableEq, Repr

/-! ### Values after a cold reset -/

/-- A source table entry after a cold reset (R2). -/
def SourceEntry.cold : SourceEntry := { addr := none, role := none, inUse := false }

/-- A source started afresh (R1, R18). -/
def SourceCtx.fresh : SourceCtx :=
  { state := .absent, lastPos := none, missing := 0, fill := 0, lastTag := none, silence := none, window := [] }

/-- R18. -/
def Meu.cold : Meu :=
  { table := Vector.replicate 12 SourceEntry.cold, ctx := Vector.replicate 12 SourceCtx.fresh, latestBus := none,
    history := Vector.replicate 8 [], waiting := Vector.replicate 8 [] }

/-- R39: the element state of a bay after either reset. -/
def Elements.cold : Elements := { ptoc := 0, etoc := 0, phi := 0, sef := 0, latch := none }

/-- R19: every field unset. -/
def Group.cold : Group :=
  { bays := Vector.replicate 8 (Vector.replicate 25 none), station := Vector.replicate 4 none }

/-- R22: every count and point field unset. -/
def Curve.cold : Curve := { count := none, m := Vector.replicate 16 none, inc := Vector.replicate 16 none }

def Pru.cold : Pru :=
  { groups := Vector.replicate 6 Group.cold, curves := Vector.replicate 8 Curve.cold,
    elem := Vector.replicate 8 Elements.cold }

/-- R119: NORMAL with both counts 0. -/
def Nvd.cold : Nvd := { state := .normal, timing := 0, confirm := 0 }

/-- R112, R119. -/
def Efu.cold : Efu := { direction := Vector.replicate 8 .unavailable, nvd := Nvd.cold }

/-- R41: every address unset and every other field no. -/
def Capability.cold : Capability :=
  { addr := none, inService := false, recloseCap := false, sefCap := false, hasLocal := false, hasInterlock := false,
    hasSpring := false }

/-- Chapter 3, Bay status. -/
def BayStatus.cold : BayStatus :=
  { position := .unknown, localMode := false, interlock := false, spring := false, reported := .unknown,
    indicator := .unknown, presence := false, silence := none, springReported := false }

def Pending.none : Pending :=
  { trip := Option.none, hunt := Option.none, reclose := Option.none, management := Option.none,
    annunciate := Option.none }

/-- R66. -/
def Slot.cold : Slot := { state := .free, pend := Pending.none, lastTag := 0, lastResult := none }

def Bcu.cold : Bcu :=
  { cap := Vector.replicate 9 Capability.cold, status := Vector.replicate 9 BayStatus.cold,
    slots := Vector.replicate 9 Slot.cold, backupFlag := false }

/-- R88: IDLE_OPEN, shot count 0, block set {CAPABILITY}, all timers stopped. -/
def RecloseRecord.cold : RecloseRecord :=
  { state := .idleOpen, shots := 0, lastDefinite := none,
    block := { fire := false, hunt := false, manual := false, localMode := false, interlock := false,
               capability := true },
    deadTimer := none, springTimer := none, reclaimTimer := .stopped }

/-- R93: the fire map after a cold reset, levels OFF to BAN. -/
def FireRecord.coldMap : Vector FireRecord 5 :=
  #v[{ group := none, mask := 0, shotCap := 4, fastAll := false, sefCap := 0 },
     { group := none, mask := 0, shotCap := 2, fastAll := false, sefCap := 0 },
     { group := none, mask := 0, shotCap := 1, fastAll := true, sefCap := 0 },
     { group := none, mask := 255, shotCap := 0, fastAll := true, sefCap := 200 },
     { group := none, mask := 255, shotCap := 0, fastAll := true, sefCap := 100 }]

/-- The level a pin level enters the fire regime as (R91). -/
def pinLevelOf (asserted : Bool) : Level := if asserted then 4 else 0

/-- R110; the effective level is 4 since the commanded level is (R92). -/
def Fru.cold (tfb : Bool) : Fru :=
  { commanded := 4, pinLevel := pinLevelOf tfb, effective := 4, fireMap := FireRecord.coldMap,
    stack := [{ origin := .base, group := 0, placed := 0 }], seasonLock := false }

/-- R126: the hunt table after a cold reset. -/
def HuntTable.cold : HuntTable :=
  { enable := false, group := none, startDelay := 60000, retestDelay := 60000, fireLimit := 3,
    plan := Vector.replicate 8 { bay := none, dwell := 5000 } }

/-- R127. -/
def Hnc.cold : Hnc :=
  { table := HuntTable.cold, state := .idle, timer := none, current := none, cands := [], bayOpen := none,
    restoreOut := false, rearm := true, pendingResult := none, last := none, started := 0 }

/-- R153. -/
def Segment.cold : Segment := { bay := none, xLow := 0, xHigh := 0, segLabel := 0 }

/-- R156: channel k after a cold reset. -/
def Channel.cold (k : Chan) : Channel :=
  { trigger := 0, bay := k.castLE (by decide), pre := 1, length := 4, reportAtEnd := true, state := .disarmed, rows := [],
    target := 128, truncated := false, holding := none }

/-- R148, R153, R156. -/
def Recorder.cold : Recorder :=
  { ring := Vector.replicate 16 none, top := 15, count := 0, nextSeq := 0, latest := Vector.replicate 8 none,
    segments := Vector.replicate 32 Segment.cold,
    chans := #v[Channel.cold 0, Channel.cold 1, Channel.cold 2, Channel.cold 3], readouts := [] }

/-- R174. -/
def FactorRecord.cold : FactorRecord :=
  { flag := false, reported := false, held := false, count := 0, mask := 0, firstTime := none, lastDetail := none,
    capMask := 0, enable := false, level := 0 }

/-- R174: threshold 7, no destination, out-slot empty. -/
def Evu.cold : Evu :=
  { factors := Vector.replicate 24 FactorRecord.cold, threshold := 7, dest := 0, outSlot := none }

/-- R181: a strap address of 0 or 63 puts the part in BYPASS, any other in UNCONFIGURED. -/
def partOfStraps (straps : BitVec 6) : PartState :=
  if straps = 0 ∨ straps = 63 then .bypass else .unconfigured

/-- R187, R192, R197. -/
def Mgu.cold (straps : BitVec 6) : Mgu := { queue := [], cur := none, offset := 0, part := partOfStraps straps }

/-- R185. -/
def Riu.cold (straps : BitVec 6) : Riu :=
  { own := straps, inUp := false, inTimer := none, checkFail := 0, overrun := 0, fwd := [],
    outPlaces := Vector.replicate 9 none, replies := [], capQueue := [], lastIn := 0, sending := none }

/-- The part at the end of a cold reset (R196), with the given straps, TFB pin and waiting commands. -/
def State.cold (straps : BitVec 6) (tfb : Bool) (pending : List Instr) : State :=
  { meu := Meu.cold, pru := Pru.cold, efu := Efu.cold, bcu := Bcu.cold,
    rcc := Vector.replicate 8 RecloseRecord.cold, fru := Fru.cold tfb, hnc := Hnc.cold, recd := Recorder.cold,
    evu := Evu.cold, mgu := Mgu.cold straps, riu := Riu.cold straps,
    pins := { tfb := tfb, resetHeld := false, straps := straps }, mono := 0, pending := pending }

/-- The machine right after a cold reset (R196), with no command waiting.  The straps are those of Config.resetStraps and
the TFB pin is released: DESIGN CHOICE, log entry 1. -/
def State.reset : State := State.cold Config.resetStraps false []

end Sys2Proof.Machine
end

