-- ==== Sys2Proof/Machine/Ops.lean ====
section
/-! DEFINITION. The named operations over the F8's tables, records, timers and frames that every chapter's rules use. -/

/-- The entry of a table at an index. -/
def Vector.look {α : Type} {n : Nat} (v : Vector α n) (i : Fin n) : α := v[i.val]

/-- A table with one entry replaced. -/
def Vector.put {α : Type} {n : Nat} (v : Vector α n) (i : Fin n) (x : α) : Vector α n := v.set i.val x

/-- A table with a function applied to every entry. -/
def Vector.each {α β : Type} {n : Nat} (v : Vector α n) (f : α → β) : Vector β n := v.map f

namespace Sys2Proof.Machine

/-! ### The numbered things, in order -/

def allBays : List Bay := [0, 1, 2, 3, 4, 5, 6, 7]
def allRecs : List Rec := [0, 1, 2, 3, 4, 5, 6, 7, 8]
def allSources : List SrcIx := [0, 1, 2, 3, 4, 5, 6, 7, 8, 9, 10, 11]
def allLevels : List Level := [0, 1, 2, 3, 4]
def allGroups : List GroupNo := [0, 1, 2, 3, 4, 5]
def allChans : List Chan := [0, 1, 2, 3]
def allFactors : List Factor :=
  [0, 1, 2, 3, 4, 5, 6, 7, 8, 9, 10, 11, 12, 13, 14, 15, 16, 17, 18, 19, 20, 21, 22, 23]

/-- The record and command slot of a feeder bay. -/
def bayRec (b : Bay) : Rec := b.castSucc

/-- The feeder bay of a record, none for the incomer. -/
def recBay (n : Rec) : Option Bay := index? 8 n.val

/-- Apply a state change for each item of a list, in order. -/
def forEach {α : Type} (l : List α) (f : α → State → State) (s : State) : State := l.foldl (fun t x => f x t) s

/-! ### Reading and writing one record of the state -/

def State.slot (s : State) (n : Rec) : Slot := s.bcu.slots.look n
def State.status (s : State) (n : Rec) : BayStatus := s.bcu.status.look n
def State.cap (s : State) (n : Rec) : Capability := s.bcu.cap.look n
def State.rcl (s : State) (b : Bay) : RecloseRecord := s.rcc.look b
def State.elem (s : State) (b : Bay) : Elements := s.pru.elem.look b
def State.src (s : State) (e : SrcIx) : SourceEntry := s.meu.table.look e
def State.ctx (s : State) (e : SrcIx) : SourceCtx := s.meu.ctx.look e
def State.fac (s : State) (f : Factor) : FactorRecord := s.evu.factors.look f
def State.chan (s : State) (k : Chan) : Channel := s.recd.chans.look k
def State.dir (s : State) (b : Bay) : Direction := s.efu.direction.look b

def State.setSlot (s : State) (n : Rec) (x : Slot) : State :=
  { s with bcu := { s.bcu with slots := s.bcu.slots.put n x } }
def State.setStatus (s : State) (n : Rec) (x : BayStatus) : State :=
  { s with bcu := { s.bcu with status := s.bcu.status.put n x } }
def State.setCap (s : State) (n : Rec) (x : Capability) : State :=
  { s with bcu := { s.bcu with cap := s.bcu.cap.put n x } }
def State.setRcl (s : State) (b : Bay) (x : RecloseRecord) : State := { s with rcc := s.rcc.put b x }
def State.setElem (s : State) (b : Bay) (x : Elements) : State :=
  { s with pru := { s.pru with elem := s.pru.elem.put b x } }
def State.setCtx (s : State) (e : SrcIx) (x : SourceCtx) : State :=
  { s with meu := { s.meu with ctx := s.meu.ctx.put e x } }
def State.setFac (s : State) (f : Factor) (x : FactorRecord) : State :=
  { s with evu := { s.evu with factors := s.evu.factors.put f x } }
def State.setChan (s : State) (k : Chan) (x : Channel) : State :=
  { s with recd := { s.recd with chans := s.recd.chans.put k x } }
def State.setDir (s : State) (b : Bay) (d : Direction) : State :=
  { s with efu := { s.efu with direction := s.efu.direction.put b d } }
def State.setHnc (s : State) (h : Hnc) : State := { s with hnc := h }
def State.setNvd (s : State) (v : Nvd) : State := { s with efu := { s.efu with nvd := v } }
def State.setPart (s : State) (p : PartState) : State := { s with mgu := { s.mgu with part := p } }
def State.setBackup (s : State) (b : Bool) : State := { s with bcu := { s.bcu with backupFlag := b } }
def State.setStack (s : State) (l : List StackEntry) : State := { s with fru := { s.fru with stack := l } }
def State.setOutPlace (s : State) (n : Rec) (f : Option Frame) : State :=
  { s with riu := { s.riu with outPlaces := s.riu.outPlaces.put n f } }
def State.setCur (s : State) (p : Option Progress) : State := { s with mgu := { s.mgu with cur := p } }

/-! ### Part state and time -/

/-- The part is ACTIVE or STANDDOWN. -/
def State.protecting (s : State) : Bool := s.mgu.part == .active || s.mgu.part == .standdown

/-- The RCC runs the bay's reclose sequence: the part is ACTIVE or STANDDOWN and the bay is in service (R67). -/
def State.runs (s : State) (b : Bay) : Bool := s.protecting && (s.cap (bayRec b)).inService

/-- A time stamp: the monotonic count plus the time offset, modulo 2^32 (R197). -/
def State.stamp (s : State) : Word32 := s.mono + s.mgu.offset

/-- A timer has run out and its expiry has not been taken. -/
def due (t : Option Nat) : Bool := t == some 0

/-- Counters saturate at their upper limit (00_scope.md, Numbers and arithmetic). -/
def satInc (limit n : Nat) : Nat := min limit (n + 1)

/-! ### The frame check and the frames the part builds -/

/-- One bit of the CRC-16 with polynomial 0x1021. -/
def crcBit (c : BitVec 16) : BitVec 16 := if c.msb then (c <<< 1) ^^^ 0x1021 else c <<< 1

/-- One byte of the check. -/
def crcByte (c : BitVec 16) (b : Byte) : BitVec 16 :=
  Nat.repeat crcBit 8 (c ^^^ (b ++ (0 : BitVec 8)))

/-- The check over a list of bytes: initial value 0xFFFF, no reflection, no final inversion (chapter 10). -/
def crc16 (bs : List Byte) : BitVec 16 := bs.foldl crcByte 0xFFFF

/-- The bytes the check is computed over, from dest to the last payload byte. -/
def checkedBytes (f : Frame) : List Byte :=
  [f.dest, f.src, f.kind] ++ bytes16 f.length.toNat ++ f.payload

/-- A frame's check and length are good (R176). -/
def frameGood (f : Frame) : Bool :=
  crc16 (checkedBytes f) == f.check && decide (f.length.toNat ≤ Config.payloadLimit) && f.length.toNat == f.payload.length

/-- A frame with the given addresses, kind and payload, its length and check as R184 gives them. -/
def buildFrame (dest src kind : Byte) (payload : List Byte) : Frame :=
  let f : Frame := { dest, src, kind, length := BitVec.ofNat 16 payload.length, payload, check := 0 }
  { f with check := crc16 (checkedBytes f) }

/-- The part's own ring address as a byte. -/
def State.ownByte (s : State) : Byte := s.riu.own.zeroExtend 8

/-! ### Frame kinds (chapter 10, Header and check) -/

def kindSample : Byte := 0x11
def kindBaystat : Byte := 0x21
def kindBaycmd : Byte := 0x22
def kindRequest : Byte := 0x31
def kindReply : Byte := 0x32
def kindEvent : Byte := 0x41
def kindCapture : Byte := 0x42
def broadcast : Byte := 63

/-! ### Codes of states and names (the READ encodings of the chapters, and chapter 10) -/

def ResultCode.code : ResultCode → Nat
  | .ok => 0 | .badOp => 1 | .badArg => 2 | .conflict => 3 | .notCapable => 4 | .inUse => 5 | .locked => 6
  | .state => 7 | .busy => 8 | .invalidTable => 9 | .localMode => 10 | .interlock => 11 | .standdown => 12
  | .notAttempted => 13

def PartState.code : PartState → Nat
  | .bypass => 0 | .unconfigured => 1 | .active => 2 | .standdown => 3

def Role.code : Role → Nat
  | .bay n => n.val | .bus => 8

def SourceState.code : SourceState → Nat
  | .absent => 0 | .filling => 1 | .valid => 2 | .stale => 3

def TripCause.code : TripCause → Nat
  | .phi => 1 | .ptoc => 2 | .etoc => 3 | .sef => 4

def RecordCause.code : RecordCause → Nat
  | .phi => 1 | .ptoc => 2 | .etoc => 3 | .sef => 4 | .huntFound => 5 | .breakerFail => 6

def TripCause.asRecord : TripCause → RecordCause
  | .phi => .phi | .ptoc => .ptoc | .etoc => .etoc | .sef => .sef

def Direction.code : Direction → Nat
  | .unavailable => 0 | .undecided => 1 | .forward => 2 | .reverse => 3

def NvdState.code : NvdState → Nat
  | .normal => 0 | .timing => 1 | .displaced => 2 | .unknown => 3

def Position.code : Position → Nat
  | .unknown => 0 | .opened => 1 | .closed => 2 | .travel => 3 | .faulty => 4

def Lamp.code : Lamp → Nat
  | .off => 0 | .on => 1 | .blink => 2 | .unknown => 3

def LampArg.code : LampArg → Nat
  | .off => 0 | .on => 1 | .blink => 2 | .noChange => 3

def Command.kindCode : Command → Nat
  | .opening => 1 | .closing => 2 | .indicate _ => 3 | .interlock _ => 4

def Command.argCode : Command → Nat
  | .indicate a => a.code | .interlock e => if e then 1 else 0 | _ => 0

def ReqClass.code : ReqClass → Nat
  | .trip => 0 | .hunt => 1 | .reclose => 2 | .management => 3 | .annunciate => 4

def CmdOutcome.code : CmdOutcome → Nat
  | .done => 1 | .refused => 2 | .timeout => 3 | .superseded => 4 | .refusedAtRequest _ => 5

def RecloseState.code : RecloseState → Nat
  | .idleClosed => 0 | .idleOpen => 1 | .dead => 2 | .closing _ => 3 | .reclaim => 4 | .lockout _ => 5

def ClosePhase.code : ClosePhase → Nat
  | .waiting => 1 | .issued => 2 | .superseded => 3

def LockoutCause.code : LockoutCause → Nat
  | .protectionBlocked => 1 | .shotsExhausted => 2 | .closeFailed => 3 | .breakerFail => 4 | .spring => 5
  | .statusLost => 6 | .huntFound => 7 | .fireCancel => 8 | .standdown => 9

def BlockReason.code : BlockReason → Nat
  | .fire => 1 | .hunt => 2 | .manual => 4 | .localMode => 8 | .interlock => 16 | .capability => 32

def Origin.code : Origin → Nat
  | .base => 1 | .manual => 2 | .fire => 3 | .hunt => 4

def HuntState.code : HuntState → Nat
  | .idle => 0 | .waiting => 1 | .opening => 2 | .dwell => 3 | .restoring => 4 | .retestWait => 5
  | .retestClosing => 6 | .retestDwell => 7 | .aborting => 8

def CandOutcome.code : CandOutcome → Nat
  | .pending => 0 | .healthy => 1 | .found => 2 | .skippedLocal => 3 | .skippedOpen => 4 | .skippedReverse => 5
  | .skippedAbsent => 6 | .skippedInterlock => 7 | .failedOpen => 8 | .failedRestore => 9

def HuntResult.code : HuntResult → Nat
  | .foundLocked => 1 | .foundTransient => 2 | .foundPersistent => 3 | .clearedUnattributed => 4 | .exhausted => 5
  | .abortedTrip => 6 | .abortedMgmt => 7 | .abortedStale => 8 | .abortedStanddown => 9

def ChanState.code : ChanState → Nat
  | .disarmed => 0 | .armed => 1 | .running => 2 | .done => 3

/-! ### The block set -/

def BlockSet.has (b : BlockSet) : BlockReason → Bool
  | .fire => b.fire | .hunt => b.hunt | .manual => b.manual | .localMode => b.localMode
  | .interlock => b.interlock | .capability => b.capability

def BlockSet.set (b : BlockSet) (r : BlockReason) (v : Bool) : BlockSet :=
  match r with
  | .fire => { b with fire := v }
  | .hunt => { b with hunt := v }
  | .manual => { b with manual := v }
  | .localMode => { b with localMode := v }
  | .interlock => { b with interlock := v }
  | .capability => { b with capability := v }

def BlockSet.isEmpty (b : BlockSet) : Bool :=
  !(b.fire || b.hunt || b.manual || b.localMode || b.interlock || b.capability)

/-- The value read from a block set (R89). -/
def BlockSet.code (b : BlockSet) : Nat :=
  [BlockReason.fire, .hunt, .manual, .localMode, .interlock, .capability].foldl
    (fun n r => if b.has r then n + r.code else n) 0

/-! ### The slot's current command and pending requests -/

def SlotState.flight : SlotState → Option Flight
  | .free => none
  | .inFlight f => some f
  | .echoed f => some f

def SlotState.isFree : SlotState → Bool
  | .free => true
  | _ => false

def Pending.get (p : Pending) : ReqClass → Option Command
  | .trip => p.trip | .hunt => p.hunt | .reclose => p.reclose | .management => p.management
  | .annunciate => p.annunciate

def Pending.set (p : Pending) (c : ReqClass) (v : Option Command) : Pending :=
  match c with
  | .trip => { p with trip := v }
  | .hunt => { p with hunt := v }
  | .reclose => { p with reclose := v }
  | .management => { p with management := v }
  | .annunciate => { p with annunciate := v }

/-- The slot has a command in flight or a request pending (R41). -/
def Slot.busy (x : Slot) : Bool :=
  !x.state.isFree || x.pend.trip.isSome || x.pend.hunt.isSome || x.pend.reclose.isSome || x.pend.management.isSome ||
    x.pend.annunciate.isSome

/-- Put, replace or take away the pending request of a class at a slot. -/
def State.setPend (s : State) (n : Rec) (c : ReqClass) (v : Option Command) : State :=
  let x := s.slot n
  s.setSlot n { x with pend := x.pend.set c v }

/-- Store a slot's last result. -/
def State.setResult (s : State) (n : Rec) (r : LastResult) : State :=
  let x := s.slot n
  s.setSlot n { x with lastResult := some r }

/-! ### Bay masks of occurrences -/

/-- The bay mask {n}, with 8 for the incomer (R165). -/
def recMask (n : Rec) : BitVec 9 := 1#9 <<< n.val

/-- The bay mask {b}. -/
def bayMask (b : Bay) : BitVec 9 := recMask (bayRec b)

/-- A set of feeder bays as a bay mask. -/
def baysMask (m : BitVec 8) : BitVec 9 := m.zeroExtend 9

/-- The detail of an occurrence: its fields in order, padded with zeros to 12 bytes (chapter 10, The EVENT detail). -/
def detail (fields : List Byte) : List Byte := (fields ++ List.replicate 12 0).take 12

end Sys2Proof.Machine
end

