-- ==== Sys2Proof/Machine/Flags.lean ====
section
/-! DEFINITION. The judgements that are computed from the tables at each moment and stored nowhere: validity of
curves and groups, use of groups and curves, whether a source is VALID, the effective settings. -/

namespace Sys2Proof.Machine

/-! ### Validity of curves (R23) -/

/-- The m and inc of a slot, each none while unset. -/
def Curve.slotAt (c : Curve) (i : Nat) : Option Nat × Option Nat :=
  match index? 16 i with
  | some j => (c.m.look j, c.inc.look j)
  | none => (none, none)

def Curve.mAt (c : Curve) (i : Nat) : Nat := (c.slotAt i).1.getD 0
def Curve.incAt (c : Curve) (i : Nat) : Nat := (c.slotAt i).2.getD 0

/-- The first slot of the first n at which a condition fails. -/
def firstSlot (n : Nat) (bad : Nat → Bool) : Option Nat := (List.range n).find? bad

/-- The first condition of R23 that fails, with the slot at which it first fails; none when the curve is VALID.  An unset
count is condition 1 at slot 0 (log entry 16). -/
def Curve.failure (c : Curve) : Option (Nat × Nat) :=
  match c.count with
  | none => some (1, 0)
  | some n =>
    match firstSlot n (fun i => (c.slotAt i).1.isNone || (c.slotAt i).2.isNone) with
    | some i => some (1, i)
    | none =>
      if c.mAt 0 ≠ 64 then some (2, 0)
      else
        match firstSlot n (fun i => (decide (1 ≤ i) && decide (c.mAt i ≤ c.mAt (i - 1))) ||
            (decide (i + 1 = n) && decide (Config.maxMultiple < c.mAt i))) with
        | some i => some (3, i)
        | none =>
          match firstSlot n (fun i => decide (1 ≤ i) && decide (c.incAt i < c.incAt (i - 1))) with
          | some i => some (4, i)
          | none =>
            match firstSlot n (fun i => decide (c.incAt i < 1) || decide (Config.fullScale < c.incAt i)) with
            | some i => some (5, i)
            | none => none

def Curve.valid (c : Curve) : Bool := c.failure.isNone

/-- The points of a curve, slot 0 to count - 1, as the accumulator reads them (R30). -/
def Curve.points (c : Curve) : List (Nat × Nat) :=
  (List.range (c.count.getD 0)).map (fun i => (c.mAt i, c.incAt i))

/-! ### Fields of a bay record and of the station part, by their place in the tables of chapter 2 -/

/-- A field of a bay record; an unset field, which no VALID group has, reads as 0 (log entry 15). -/
def fieldOf (r : BayRecord) (k : Fin 25) : Nat := (r.look k).getD 0

def fPhiPickup : Fin 25 := 0
def fPtocPickup : Fin 25 := 1
def fPtocCurve : Fin 25 := 2
def fPtocTms : Fin 25 := 3
def fPtocFast : Fin 25 := 4
def fPtocFastTms : Fin 25 := 5
def fEtocPickup : Fin 25 := 6
def fEtocCurve : Fin 25 := 7
def fEtocTms : Fin 25 := 8
def fEtocFast : Fin 25 := 9
def fEtocFastTms : Fin 25 := 10
def fDecay : Fin 25 := 11
def fSefPickup : Fin 25 := 12
def fSefDelay : Fin 25 := 13
def fSefMode : Fin 25 := 14
def fSefFallback : Fin 25 := 15
def fDirThreshold : Fin 25 := 16
def fShots : Fin 25 := 17
def fFastShots : Fin 25 := 18
def fSefReclose : Fin 25 := 19
def fReclaim : Fin 25 := 24

/-- The dead time field of a shot number 0 to 3 (chapter 2; fields 20 to 23). -/
def fDead (shot : Nat) : Fin 25 :=
  match shot with
  | 0 => 20 | 1 => 21 | 2 => 22 | _ => 23

def Group.nvdPickup (g : Group) : Nat := (g.station.look 0).getD 0
def Group.nvdDropout (g : Group) : Nat := (g.station.look 1).getD 0
def Group.nvdDelay (g : Group) : Nat := (g.station.look 2).getD 0
def Group.nvdConfirm (g : Group) : Nat := (g.station.look 3).getD 0

/-! ### Validity and use of groups (R21, R105) -/

/-- The curve a field names: none for NONE, which is stored as 255. -/
def curveNo (v : Nat) : Option CurveNo := index? 8 v

/-- The curves a bay record references: the PTOC and ETOC curves, and the fast curves that are not NONE (R21). -/
def recordCurves (r : BayRecord) : List CurveNo :=
  [fPtocCurve, fPtocFast, fEtocCurve, fEtocFast].filterMap (fun k => (r.look k).bind curveNo)

def recordSet (r : BayRecord) : Bool := r.toList.all Option.isSome

/-- The first condition of R21 that fails, with the lowest record in which it fails (8 for the station part); none when
the group is VALID. -/
def groupFailure (pru : Pru) (g : Group) : Option (Nat × Nat) :=
  match allBays.find? (fun b => !recordSet (g.bays.look b)) with
  | some b => some (1, b.val)
  | none =>
    if !g.station.toList.all Option.isSome then some (1, 8)
    else if g.nvdPickup ≤ g.nvdDropout then some (2, 8)
    else
      match allBays.find? (fun b => (recordCurves (g.bays.look b)).any (fun c => !(pru.curves.look c).valid)) with
      | some b => some (3, b.val)
      | none => none

/-- Whether a group is VALID under R21, judged from its contents at this moment. -/
def State.groupValid (s : State) (g : GroupNo) : Bool := (groupFailure s.pru (s.pru.groups.look g)).isNone

/-- Whether a group is in use: the part is ACTIVE or STANDDOWN and a stack entry holds it (R105). -/
def State.groupInUse (s : State) (g : GroupNo) : Bool :=
  s.protecting && s.fru.stack.any (fun e => e.group == g)

/-- Whether a curve is in use: a group in use references it (R105). -/
def State.curveInUse (s : State) (c : CurveNo) : Bool :=
  allGroups.any (fun g => s.groupInUse g &&
    allBays.any (fun b => (recordCurves ((s.pru.groups.look g).bays.look b)).contains c))

/-! ### Sources and presence -/

/-- The in-use entry that satisfies a test, first in table order. -/
def State.findSource (s : State) (p : SourceEntry → Bool) : Option SrcIx :=
  allSources.find? (fun e => (s.src e).inUse && p (s.src e))

/-- An in-use entry has the role and its source is VALID. -/
def State.roleValid (s : State) (r : Role) : Bool :=
  allSources.any (fun e => (s.src e).inUse && (s.src e).role == some r && (s.ctx e).state == .valid)

/-- Whether a record is present (R49). -/
def State.presentNow (s : State) (n : Rec) : Bool :=
  (s.status n).silence.isSome ||
    (match recBay n with
     | some b => s.roleValid (.bay b)
     | none => false)

/-! ### The active group and the effective settings (R24, R25, R94) -/

/-- The group of the top entry of a stack (R94). -/
def activeOf (l : List StackEntry) : GroupNo :=
  match l.getLast? with
  | some e => e.group
  | none => 0

def State.activeNo (s : State) : GroupNo := activeOf s.fru.stack
def State.activeGroup (s : State) : Group := s.pru.groups.look s.activeNo
def State.activeRecord (s : State) (b : Bay) : BayRecord := s.activeGroup.bays.look b

/-- The fire map record in force: that of the effective level. -/
def State.fireRecord (s : State) : FireRecord := s.fru.fireMap.look s.fru.effective

/-- A setting of a bay in the active group that the fire map does not change (R24). -/
def State.setting (s : State) (b : Bay) (k : Fin 25) : Nat := fieldOf (s.activeRecord b) k

/-- Effective shots: the smaller of the record's shots and the fire map's shot cap (R24). -/
def State.effShots (s : State) (b : Bay) : Nat := min (s.setting b fShots) s.fireRecord.shotCap

/-- Effective SEF delay (R24). -/
def State.effSefDelay (s : State) (b : Bay) : Nat :=
  if s.fireRecord.sefCap = 0 then s.setting b fSefDelay else min (s.setting b fSefDelay) s.fireRecord.sefCap

/-- Whether the fast curve of an element is in force, from the value of its fast curve field (R25). -/
def State.fastInForce (s : State) (b : Bay) (fast : Nat) : Bool :=
  (curveNo fast).isSome && (s.fireRecord.fastAll || decide ((s.rcl b).shots < s.setting b fFastShots))

/-- The curve points and time multiplier in force for an element whose four fields are given (R25). -/
def State.curveInForce (s : State) (b : Bay) (curve tms fast fastTms : Fin 25) : List (Nat × Nat) × Nat :=
  let useFast := s.fastInForce b (s.setting b fast)
  let c := if useFast then s.setting b fast else s.setting b curve
  let t := if useFast then s.setting b fastTms else s.setting b tms
  match curveNo c with
  | some k => ((s.pru.curves.look k).points, t)
  | none => ([], t)

/-- Whether the backup trip is configured: record 8 has its address set and is in service (R60). -/
def State.backupConfigured (s : State) : Bool := (s.cap 8).addr.isSome && (s.cap 8).inService

end Sys2Proof.Machine
end

