-- ==== Sys2Proof/Machine/Events.lean ====
section
/-! DEFINITION. The Event Unit and the capture side of the Recorder: occurrences, the event out-slot, triggering, the
report hold and the ends of captures (chapters 8 and 9).  Every block reports through State.occur. -/

namespace Sys2Proof.Machine

/-! ### The factors (chapter 9) -/

def fTrip : Factor := 0
def fLockout : Factor := 1
def fBreakerFail : Factor := 2
def fStanddown : Factor := 3
def fNvdDisplaced : Factor := 4
def fNvdNormal : Factor := 5
def fHuntStart : Factor := 6
def fHuntEnd : Factor := 7
def fFireLevel : Factor := 8
def fRecloseCancelled : Factor := 9
def fCmdTimeout : Factor := 10
def fCmdRefused : Factor := 11
def fSourceStale : Factor := 12
def fSourceValid : Factor := 13
def fBayPresence : Factor := 14
def fBayLocal : Factor := 15
def fBayInterlock : Factor := 16
def fRingInLoss : Factor := 17
def fRingOverrun : Factor := 18
def fGroupChange : Factor := 19

/-- CAPTURE_DONE_k is factor 20 + k (R162). -/
def fCaptureDone (k : Chan) : Factor := ⟨20 + k.val, by omega⟩

/-! ### Eligibility and the event out-slot (R169 to R171) -/

/-- A factor is eligible for report when its flag is set, its enable is yes, its level is above the threshold, and
neither its reported nor its held mark is set (R169). -/
def FactorRecord.eligible (r : FactorRecord) (threshold : Nat) : Bool :=
  r.flag && r.enable && decide (threshold < r.level) && !r.reported && !r.held

def State.eligible (s : State) (f : Factor) : Bool := (s.fac f).eligible s.evu.threshold

/-- The more eligible of the best factor so far and a later-numbered one: the higher level ranks above, and at the same
level the lower number (R169). -/
def betterFactor (s : State) (best : Option Factor) (f : Factor) : Option Factor :=
  if s.eligible f then
    match best with
    | none => some f
    | some g => if (s.fac g).level < (s.fac f).level then some f else some g
  else best

/-- The most eligible factor (R169). -/
def State.mostEligible (s : State) : Option Factor := allFactors.foldl (betterFactor s) none

/-- The payload of an EVENT frame: factor, level, count, capture mask, bay mask, first time, detail (chapter 10). -/
def eventPayload (f : Factor) (r : FactorRecord) : List Byte :=
  [byte f.val, byte r.level, byte r.count, r.capMask.zeroExtend 8] ++ bytes16 r.mask.toNat ++
    bytes32 (r.firstTime.getD 0) ++ r.lastDetail.getD (detail [])

/-- The EVENT frame of a factor as its record stands (R170, R184). -/
def State.eventFrame (s : State) (f : Factor) : Frame :=
  buildFrame (byte s.evu.dest) s.ownByte kindEvent (eventPayload f (s.fac f))

/-- What the event out-slot holds when it is in line with the factor records: nothing without a destination or an
eligible factor, and else the frame of the most eligible factor (R170, R171; log entry 17). -/
def State.outSlotNow (s : State) : Option (Factor × Frame) :=
  if s.evu.dest = 0 then none else s.mostEligible.map (fun f => (f, s.eventFrame f))

/-- The event out-slot is judged again (R170, R171). -/
def State.judgeOutSlot (s : State) : State := { s with evu := { s.evu with outSlot := s.outSlotNow } }

/-! ### One occurrence in its factor record (R165, steps 1 to 3) -/

def FactorRecord.take (r : FactorRecord) (m : BitVec 9) (d : List Byte) (stamp : Word32) : FactorRecord :=
  { r with count := satInc 255 r.count, mask := r.mask ||| m, lastDetail := some d, flag := true,
           firstTime := if r.flag then r.firstTime else some stamp }

/-- The factor's state is cleared; its configuration stays (R173, step 1). -/
def FactorRecord.clear (r : FactorRecord) : FactorRecord :=
  { r with flag := false, reported := false, held := false, count := 0, mask := 0, firstTime := none,
           lastDetail := none, capMask := 0 }

/-! ### Triggering (R159) -/

/-- Whether an occurrence triggers a channel: it is ARMED on the factor, and its bay is in the mask or the mask is
empty. -/
def Channel.triggeredBy (c : Channel) (f : Factor) (m : BitVec 9) : Bool :=
  c.state == .armed && c.trigger == f && (m == 0 || (m &&& bayMask c.bay) != 0)

/-- The newest n items of a list that is kept oldest first. -/
def newest {α : Type} (n : Nat) (l : List α) : List α := l.drop (l.length - n)

/-- A triggered channel goes to DONE without rows where its bay's source is not VALID, and else to RUNNING with its
pre-trigger rows from the history ring (R159). -/
def State.triggered (s : State) (c : Channel) : Channel :=
  if s.roleValid (.bay c.bay) then
    { c with state := .running, rows := newest (c.pre * 32) (s.meu.history.look c.bay) }
  else { c with state := .done, rows := [], truncated := true }

/-- The channels an occurrence triggers, in ascending order. -/
def State.triggerSet (s : State) (f : Factor) (m : BitVec 9) : List Chan :=
  allChans.filter (fun k => (s.chan k).triggeredBy f m)

/-- A set of channels as a channel mask. -/
def chanMask (l : List Chan) : BitVec 4 := l.foldl (fun m k => m ||| (1#4 <<< k.val)) 0

/-- Enter the triggered channels in the record written last, whose companion occurrence this is (R161). -/
def State.enterCompanion (s : State) (l : List Chan) : State :=
  { s with recd := { s.recd with
      ring := s.recd.ring.put s.recd.top
        ((s.recd.ring.look s.recd.top).map (fun r => { r with chans := chanMask l })) } }

/-- The channels holding for a factor. -/
def State.holders (s : State) (f : Factor) : List Chan := allChans.filter (fun k => (s.chan k).holding == some f)

/-- Every channel's holding mark for a factor is cleared (R162, R173). -/
def State.dropHolds (s : State) (f : Factor) : State :=
  { s with recd := { s.recd with
      chans := s.recd.chans.each (fun c => if c.holding == some f then { c with holding := none } else c) } }

/-- The detail of CAPTURE_DONE: channel, trigger factor, rows captured, truncated (chapter 10). -/
def captureDetail (k : Chan) (c : Channel) : List Byte :=
  detail ([byte k.val, byte c.trigger.val] ++ bytes16 c.rows.length ++ [if c.truncated then 1 else 0])

/-- What an occurrence carries: its factor, its bay mask, its detail, and whether it is the companion of the record
written last (R161). -/
structure Occ where
  factor    : Factor
  mask      : BitVec 9
  detail    : List Byte
  companion : Bool := false
  deriving DecidableEq, Repr

/-- The occurrence CAPTURE_DONE_k of a channel as it stands (R162). -/
def State.captureDone (s : State) (k : Chan) : Occ :=
  { factor := fCaptureDone k, mask := bayMask (s.chan k).bay, detail := captureDetail k (s.chan k) }

/-! ### The end of a hold and of a capture (R162), over a way to make the occurrences they cause -/

/-- The factor's event is absorbed: cleared with no report, and every DONE channel holding for it goes to DISARMED
(R162). -/
def State.absorb (s : State) (f : Factor) : State :=
  let t := (s.setFac f (s.fac f).clear).judgeOutSlot
  forEach (t.holders f) (fun k u =>
    if (u.chan k).state == .done then u.setChan k { u.chan k with state := .disarmed } else u) t

/-- A hold is judged: it goes on while a channel holding for the factor is RUNNING, and else it ends with a report or by
absorption (R162). -/
def State.judgeHoldWith (make : Occ → State → State) (s : State) (f : Factor) : State :=
  let hs := s.holders f
  if hs.any (fun k => (s.chan k).state == .running) then s
  else if hs.any (fun k => (s.chan k).reportAtEnd) then
    let t := (s.setFac f { s.fac f with held := false }).judgeOutSlot
    (forEach hs (fun k u => if (u.chan k).reportAtEnd then make (u.captureDone k) u else u) t).dropHolds f
  else (s.absorb f).dropHolds f

/-- The end of a channel that has reached DONE is judged (R162). -/
def State.judgeEndWith (make : Occ → State → State) (s : State) (k : Chan) : State :=
  match (s.chan k).holding with
  | some f => s.judgeHoldWith make f
  | none => if (s.chan k).reportAtEnd then make (s.captureDone k) s else s

/-! ### An occurrence (R165) -/

/-- Steps 1 to 3 of R165. -/
def State.takeOcc (s : State) (o : Occ) : State :=
  s.setFac o.factor ((s.fac o.factor).take o.mask o.detail s.stamp)

/-- The REC judges the channels (R159, R161): they are triggered, entered in the companion record, and joined to the
factor's capture mask; where the occurrence raised the flag and triggered a channel, the hold is made. -/
def State.triggerChans (s : State) (o : Occ) (raised : Bool) : State :=
  let set := s.triggerSet o.factor o.mask
  let hold := raised && !set.isEmpty
  let t := forEach set (fun k u =>
    let c := u.triggered (u.chan k)
    u.setChan k (if hold then { c with holding := some o.factor } else c)) s
  let t := if o.companion then t.enterCompanion set else t
  let r := t.fac o.factor
  t.setFac o.factor { r with capMask := r.capMask ||| chanMask set, held := r.held || hold }

/-- The channels of a trigger set that went to DONE at once are judged: once for the hold, or each as a channel with no
hold (R161), 0 to 3 (log entry 38). -/
def State.judgeTriggered (make : Occ → State → State) (s : State) (f : Factor) (set : List Chan) (hold : Bool) : State :=
  let ended := set.filter (fun k => (s.chan k).state == .done)
  if ended.isEmpty then s
  else if hold then s.judgeHoldWith make f
  else forEach ended (fun k u => u.judgeEndWith make k) s

/-- An occurrence, taken whole in the order of R165.  The fuel bounds the CAPTURE_DONE occurrences that the occurrence can
lead to: each further one has a channel fewer left ARMED, so five levels are never used up. -/
def occurFuel : Nat → Occ → State → State
  | 0, o, s => (s.takeOcc o).judgeOutSlot
  | fuel + 1, o, s =>
    let raised := !(s.fac o.factor).flag
    let t := s.takeOcc o
    let set := t.triggerSet o.factor o.mask
    let u := t.triggerChans o raised
    (u.judgeTriggered (occurFuel fuel) o.factor set (raised && !set.isEmpty)).judgeOutSlot

/-- A block hands the EVU an occurrence (R165).  In BYPASS no block makes any. -/
def State.occurOf (s : State) (o : Occ) : State := if s.mgu.part == .bypass then s else occurFuel 5 o s

/-- An occurrence of a factor with a bay mask and the fields of its detail. -/
def State.occur (s : State) (f : Factor) (m : BitVec 9) (fields : List Byte) : State :=
  s.occurOf { factor := f, mask := m, detail := detail fields }

/-- An occurrence that is the companion of the record written last (R161). -/
def State.occurWithRecord (s : State) (f : Factor) (m : BitVec 9) (fields : List Byte) : State :=
  s.occurOf { factor := f, mask := m, detail := detail fields, companion := true }

/-- The end of a channel is judged, with its occurrences taken by the EVU (R162). -/
def State.judgeEnd (s : State) (k : Chan) : State := s.judgeEndWith (fun o u => u.occurOf o) k

/-! ### Rows of running channels (R160) -/

/-- A completed instant is appended to a RUNNING channel of its bay, which goes to DONE at its target (R160). -/
def State.appendRow (s : State) (b : Bay) (i : Instant) (k : Chan) : State :=
  let c := s.chan k
  if c.state == .running && c.bay == b then
    let rows := c.rows ++ [i]
    if c.target ≤ rows.length then
      (s.setChan k { c with rows := rows, state := .done, truncated := false }).judgeEnd k
    else s.setChan k { c with rows := rows }
  else s

/-- A RUNNING channel ends truncated, keeping its rows (R158, R160). -/
def State.truncateChan (s : State) (k : Chan) : State :=
  (s.setChan k { s.chan k with state := .done, truncated := true }).judgeEnd k

/-- The departure of a bay's source from VALID ends the channels running on the bay, each judged before the next ends, 0 to 3
(log entry 38), and empties the bay's latest evaluation (R148, R160). -/
def State.recLostBay (s : State) (b : Bay) : State :=
  let t := { s with recd := { s.recd with latest := s.recd.latest.put b none } }
  forEach allChans (fun k u =>
    if (u.chan k).state == .running && (u.chan k).bay == b then u.truncateChan k else u) t

end Sys2Proof.Machine
end

