-- ==== Sys2Proof/Machine/Slots.lean ====
section
/-! DEFINITION. The command slots and the reclose record as far as they act on each other: judging, accepting and
issuing requests (R50 to R52, R58), entry to LOCKOUT (R79), the block set (R81) and the reclose request (R73). -/

namespace Sys2Proof.Machine

/-! ### Judging a request (R51) -/

/-- The condition that keeps a CLOSE from being taken or issued at a slot, with its code, in the order of R51. -/
def State.closeBlocked (s : State) (n : Rec) : Option ResultCode :=
  if s.mgu.part == .standdown then some .standdown
  else if (s.status n).localMode then some .localMode
  else if (s.status n).interlock then some .interlock
  else none

/-- The result of R51's checks for a request of a class other than TRIP: a code when it is refused. -/
def State.judgeReq (s : State) (n : Rec) (c : ReqClass) (cmd : Command) : Option ResultCode :=
  if !(s.cap n).inService then some .state
  else if cmd == .closing && s.mgu.part == .standdown then some .standdown
  else if (s.status n).localMode then some .localMode
  else if cmd == .closing && (s.status n).interlock then some .interlock
  else if c == .management && (s.slot n).pend.management.isSome then some .busy
  else none

/-! ### Entry to LOCKOUT, up to its lamp request (R79) -/

def RecloseState.isLockout : RecloseState → Bool
  | .lockout _ => true
  | _ => false

/-- The bay may enter LOCKOUT: the RCC runs it and it is not locked out yet (R67, R79). -/
def State.canLock (s : State) (b : Bay) : Bool := s.runs b && !(s.rcl b).state.isLockout

/-- A lamp request is accepted where R51 lets it, and waits at the slot. -/
def State.pendLamp (s : State) (n : Rec) (a : LampArg) : State :=
  if (s.judgeReq n .annunciate (.indicate a)).isNone then s.setPend n .annunciate (some (.indicate a)) else s

/-- The four steps of an entry to LOCKOUT (R79), with the lamp request left waiting at the slot. -/
def State.lockPend (s : State) (b : Bay) (cause : LockoutCause) : State :=
  let left := (s.rcl b).state
  let t := s.setPend (bayRec b) .reclose none
  let t := t.setRcl b { t.rcl b with state := .lockout cause, deadTimer := none, springTimer := none,
                                     reclaimTimer := .stopped }
  let t := t.occur fLockout (bayMask b) [byte cause.code, byte (t.rcl b).shots, byte left.code]
  t.pendLamp (bayRec b) .blink

/-- The lockout cause of a reclose request refused or withdrawn with a result code (R73). -/
def refusalCause : ResultCode → LockoutCause
  | .standdown => .standdown
  | _ => .protectionBlocked

def State.isWaiting (s : State) (b : Bay) : Bool := (s.rcl b).state == .closing .waiting

/-! ### Issue (R52, R58) -/

/-- The tag after a slot's last tag: 1 to 255, with 255 followed by 1 (R52). -/
def nextTag (last : Nat) : Nat := if last = 255 then 1 else last + 1

/-- The time a command is allowed (R52). -/
def commandMs : Command → Nat
  | .opening => Config.openMs
  | .closing => Config.closeMs
  | _ => Config.panelMs

/-- The BAYCMD frame of a command (R52, R184; chapter 10). -/
def State.bayCmdFrame (s : State) (n : Rec) (cmd : Command) (tag : Nat) : Frame :=
  buildFrame (byte ((s.cap n).addr.getD 0)) s.ownByte kindBaycmd [byte tag, byte cmd.kindCode, byte cmd.argCode]

/-- The RCC is told that its CLOSE is issued: the shot count rises by 1 and the close phase becomes ISSUED (R73). -/
def State.rccIssued (s : State) (b : Bay) : State :=
  if s.isWaiting b then
    let r := s.rcl b
    s.setRcl b { r with state := .closing .issued, shots := satInc 4 r.shots }
  else s

/-- A pending request is issued: tag, current command, BAYCMD frame, timer, IN_FLIGHT, and the requester told (R52). -/
def State.issueCmd (s : State) (n : Rec) (c : ReqClass) (cmd : Command) : State :=
  let x := s.slot n
  let tag := nextTag x.lastTag
  let t := s.setSlot n
    { x with state := .inFlight { cmd := cmd, tag := tag, cls := c, issued := s.mono, tripAttached := c == .trip,
                                  timer := commandMs cmd },
             pend := x.pend.set c none, lastTag := tag }
  let t := t.setOutPlace n (some (s.bayCmdFrame n cmd tag))
  match c, recBay n with
  | .reclose, some b => t.rccIssued b
  | _, _ => t

/-- An INDICATE NO_CHANGE that comes to issue completes at once (R58). -/
def State.completeNoChange (s : State) (n : Rec) (c : ReqClass) (cmd : Command) : State :=
  (s.setPend n c none).setResult n { cls := c, cmd := cmd, tag := none, outcome := .done, time := s.stamp }

/-- A pending request of the MANAGEMENT class that is withdrawn leaves the refusal as the slot's last result (R45). -/
def State.mgmtWithdrawn (s : State) (n : Rec) (cmd : Command) (o : CmdOutcome) : State :=
  s.setResult n { cls := .management, cmd := cmd, tag := none, outcome := o, time := s.stamp }

/-- A CLOSE that comes to issue outside the conditions of R52 is withdrawn instead.  The RCC's request then locks the bay
out (R73) and a gateway's leaves its last result; a HUNT CLOSE is told by issueFrom's second answer. -/
def State.withdrawAtIssue (s : State) (n : Rec) (c : ReqClass) (cmd : Command) (code : ResultCode) : State :=
  let t := s.setPend n c none
  match c, recBay n with
  | .reclose, some b => if t.isWaiting b && t.canLock b then t.lockPend b (refusalCause code) else t
  | .management, _ => t.mgmtWithdrawn n cmd (.refusedAtRequest code)
  | _, _ => t

/-- The requester classes in the order of R52. -/
def classOrder : List ReqClass := [.trip, .hunt, .reclose, .management, .annunciate]

/-- Issue the first pending request of the classes given, in order (R52).  The second answer is the code of a HUNT CLOSE
withdrawn at its issue. -/
def State.issueFrom : List ReqClass → Rec → State → State × Option ResultCode
  | [], _, s => (s, none)
  | c :: cs, n, s =>
    match (s.slot n).pend.get c with
    | none => State.issueFrom cs n s
    | some (.indicate .noChange) => State.issueFrom cs n (s.completeNoChange n c (.indicate .noChange))
    | some cmd =>
      match (if cmd == .closing then s.closeBlocked n else none) with
      | some code =>
        let r := State.issueFrom cs n (s.withdrawAtIssue n c cmd code)
        (r.1, if c == .hunt then some code else r.2)
      | none => (s.issueCmd n c cmd, none)

/-- Where the slot is FREE, the pending request of the highest class is issued (R52). -/
def State.issueNext (s : State) (n : Rec) : State :=
  if (s.slot n).state.isFree then (State.issueFrom classOrder n s).1 else s

/-- The HNC is told SUPERSEDED of a pending HUNT request that a new one replaces (R51).  It acts only on the command it placed
last (R133), and that is the new one: the notice changes nothing. -/
def State.hncReplaced (s : State) (_old : Command) : State := s

/-- The RCC is told SUPERSEDED of a pending RECLOSE request that a new one replaces (R51).  It waits for the end of a trip only
where a trip took the CLOSE (R75), and a replacement is none: the notice changes nothing. -/
def State.rccReplaced (s : State) (_old : Command) : State := s

/-- Step 5 of R51: the requester of a pending request that a new request of its class replaces is told.  An ANNUNCIATE request
is replaced with no notice, and a MANAGEMENT request is refused before it comes to this. -/
def State.tellReplaced (s : State) (n : Rec) (c : ReqClass) : State :=
  match c, (s.slot n).pend.get c with
  | .hunt, some old => s.hncReplaced old
  | .reclose, some old => s.rccReplaced old
  | _, _ => s

/-- A request is placed at a slot: refused with a code, or accepted, in place of one of its class that still waits, and issued at
once where the slot is FREE (R51). -/
def State.place (s : State) (n : Rec) (c : ReqClass) (cmd : Command) : Except ResultCode State :=
  match s.judgeReq n c cmd with
  | some code => .error code
  | none => .ok (((s.tellReplaced n c).setPend n c (some cmd)).issueNext n)

/-- A lamp request of the ANNUNCIATE class; its refusal is not repeated (R80). -/
def State.lamp (s : State) (n : Rec) (a : LampArg) : State :=
  match s.place n .annunciate (.indicate a) with
  | .ok t => t
  | .error _ => s

/-! ### Lockout and the block set -/

/-- A bay enters LOCKOUT (R79).  A bay the RCC does not run, or one already locked out, is not changed (R67). -/
def State.lock (s : State) (b : Bay) (cause : LockoutCause) : State :=
  if s.canLock b then (s.lockPend b cause).issueNext (bayRec b) else s

/-- A block reason is put in a bay's block set or taken out of it, with no other effect. -/
def State.putReason (s : State) (b : Bay) (r : BlockReason) (v : Bool) : State :=
  let x := s.rcl b
  s.setRcl b { x with block := x.block.set r v }

/-- A sequence is cancelled by an added reason: RECLOSE_CANCELLED, then LOCKOUT (R81). -/
def State.cancelSequence (s : State) (b : Bay) (r : BlockReason) : State :=
  let t := s.setPend (bayRec b) .reclose none
  (t.occur fRecloseCancelled (bayMask b) [byte r.code, byte (t.rcl b).shots]).lock b
    (if r == .fire then .fireCancel else .protectionBlocked)

/-- An owner adds a reason to a bay's block set (R81). -/
def State.addReason (s : State) (b : Bay) (r : BlockReason) : State :=
  if (s.rcl b).block.has r then s
  else
    let t := s.putReason b r true
    if t.runs b && ((t.rcl b).state == .dead || t.isWaiting b) then t.cancelSequence b r else t

/-- An owner removes a reason from a bay's block set (R81). -/
def State.removeReason (s : State) (b : Bay) (r : BlockReason) : State :=
  if (s.rcl b).block.has r then s.putReason b r false else s

/-- The effective settings have changed: each reclose request waiting in close phase WAITING is judged again (R73), in the order of
the bays 0 to 7 (log entry 36). -/
def State.rejudgeWaiting (s : State) : State :=
  forEach allBays (fun b t =>
    if t.runs b && t.isWaiting b && decide (t.effShots b ≤ (t.rcl b).shots) then t.lock b .shotsExhausted else t) s

/-! ### The reclose request (R73) -/

/-- The RCC's request was refused or withdrawn with a result code before issue (R73). -/
def State.rccRefused (s : State) (b : Bay) (code : ResultCode) : State :=
  if s.isWaiting b then s.lock b (refusalCause code) else s

/-- The RCC requests a reclose: CLOSING with close phase WAITING, and a RECLOSE CLOSE at the slot (R73). -/
def State.requestReclose (s : State) (b : Bay) : State :=
  let t := s.setRcl b { s.rcl b with state := .closing .waiting, deadTimer := none, springTimer := none }
  match t.place (bayRec b) .reclose .closing with
  | .ok u => u
  | .error code => t.rccRefused b code

end Sys2Proof.Machine
end

