-- ==== Sys2Proof/Machine/Fire.lean ====
section
/-! DEFINITION. The setting-group stack and the FIRE reasons of the Fire Regime Unit (chapter 5, R94 to R101).  Stacks
are listed from bottom to top. -/

namespace Sys2Proof.Machine

/-! ### The stack (R94 to R96, R99) -/

/-- The cause of a change of the stack, as GROUP_CHANGE carries it (R95). -/
inductive GroupCause where
  | levelChange | fireMapWrite | selectBase | pushManual | popManual | seasonLock | huntStart | huntEnd | commission
  deriving DecidableEq, Repr

def GroupCause.code : GroupCause → Nat
  | .levelChange => 1 | .fireMapWrite => 2 | .selectBase => 3 | .pushManual => 4 | .popManual => 5
  | .seasonLock => 6 | .huntStart => 7 | .huntEnd => 8 | .commission => 9

/-- A stack holds an entry of an origin. -/
def hasOrigin (o : Origin) (l : List StackEntry) : Bool := l.any (fun e => e.origin == o)

/-- Insert an entry directly below the entry of an origin, or on top where there is none. -/
def insertBelow (o : Origin) (e : StackEntry) : List StackEntry → List StackEntry
  | [] => [e]
  | x :: xs => if x.origin == o then e :: x :: xs else x :: insertBelow o e xs

/-- Replace the group of the entry of an origin in place: it keeps its position and its time placed. -/
def replaceGroup (o : Origin) (g : GroupNo) (l : List StackEntry) : List StackEntry :=
  l.map (fun e => if e.origin == o then { e with group := g } else e)

/-- Insert an entry whose origin is not present, at the position its origin sets (R96). -/
def insertEntry (lock : Bool) (e : StackEntry) (l : List StackEntry) : List StackEntry :=
  match e.origin with
  | .hunt => l ++ [e]
  | .fire => insertBelow .hunt e l
  | .manual => if lock && hasOrigin .fire l then insertBelow .fire e l else insertBelow .hunt e l
  | .base => e :: l

/-- Place an entry: its group is replaced where one of its origin is present, and it is inserted otherwise (R96). -/
def placeEntry (lock : Bool) (e : StackEntry) (l : List StackEntry) : List StackEntry :=
  if hasOrigin e.origin l then replaceGroup e.origin e.group l else insertEntry lock e l

/-- Remove the entry of an origin where present. -/
def removeEntry (o : Origin) (l : List StackEntry) : List StackEntry := l.filter (fun e => e.origin != o)

/-- A MANUAL entry that stands above the FIRE entry is moved to directly below it (R106). -/
def lockOrder (l : List StackEntry) : List StackEntry :=
  match l.find? (fun e => e.origin == .manual) with
  | some m =>
    if hasOrigin .fire (l.dropWhile (fun e => e.origin != .manual)) || !hasOrigin .fire l then l
    else insertBelow .fire m (removeEntry .manual l)
  | none => l

/-- The origin of the top entry. -/
def topOrigin (l : List StackEntry) : Origin :=
  match l.getLast? with
  | some e => e.origin
  | none => .base

/-- The stack takes a new content, and the active group is compared with the one before (R95). -/
def State.changeStack (s : State) (l : List StackEntry) (cause : GroupCause) : State :=
  let t := s.setStack l
  if t.activeNo = s.activeNo then t
  else
    t.rejudgeWaiting.occur fGroupChange 0
      [byte s.activeNo.val, byte t.activeNo.val, byte (topOrigin l).code, byte cause.code]

/-- Place an entry of an origin with a group, stamped now (R96). -/
def State.placed (s : State) (o : Origin) (g : GroupNo) : List StackEntry :=
  placeEntry s.fru.seasonLock { origin := o, group := g, placed := s.stamp } s.fru.stack

/-! ### The FIRE stack step (R100) -/

inductive StackOutcome where
  | unchanged | placed | updated | removed | groupInvalid
  deriving DecidableEq, Repr

def StackOutcome.code : StackOutcome → Nat
  | .unchanged => 0 | .placed => 1 | .updated => 2 | .removed => 3 | .groupInvalid => 4

/-- The stack after the step for the record in force, with the step's outcome (R100). -/
def State.fireStep (s : State) : List StackEntry × StackOutcome :=
  let l := s.fru.stack
  let present := hasOrigin .fire l
  match s.fireRecord.group with
  | none => if present then (removeEntry .fire l, .removed) else (l, .unchanged)
  | some g =>
    if s.groupValid g then (s.placed .fire g, if present then .updated else .placed) else (l, .groupInvalid)

/-! ### The FIRE reasons (R101) -/

/-- Whether a bay should carry FIRE: the part is ACTIVE or STANDDOWN, the bay is in service, and it is in the block mask
of the record in force (R101). -/
def State.shouldBurn (s : State) (b : Bay) : Bool := s.runs b && s.fireRecord.mask.getLsbD b.val

/-- One bay of the derivation, with the set of bays whose FIRE has changed so far. -/
def deriveBay (p : State × BitVec 8) (b : Bay) : State × BitVec 8 :=
  let (s, m) := p
  let has := (s.rcl b).block.fire
  let m' := m ||| (1#8 <<< b.val)
  if s.shouldBurn b && !has then (s.addReason b .fire, m')
  else if !s.shouldBurn b && has then (s.removeReason b .fire, m')
  else (s, m)

/-- The derivation of the FIRE reasons, for bays 0 to 7 in turn, with the bays whose FIRE was added or removed (R101). -/
def State.deriveFire (s : State) : State × BitVec 8 := allBays.foldl deriveBay (s, 0)

end Sys2Proof.Machine
end

