-- ==== Sys2Proof/Machine/Reclose.lean ====
section
/-! DEFINITION. The Reclose Controller's rules: the protection opening and its decision, the dead time and the spring,
the outcome of the reclose command, reclaim, openings and closings from elsewhere (chapter 4). -/

namespace Sys2Proof.Machine

/-- What a requester is told at the end of its command (R53, R57). -/
inductive Told where
  | done | refused | timeout | superseded
  deriving DecidableEq, Repr

/-- The idle state by the last definite position (R67). -/
def RecloseRecord.idleState (r : RecloseRecord) : RecloseState :=
  if r.lastDefinite == some .closed then .idleClosed else .idleOpen

/-- The dead, spring wait and reclaim timers stop. -/
def RecloseRecord.stopTimers (r : RecloseRecord) : RecloseRecord :=
  { r with deadTimer := none, springTimer := none, reclaimTimer := .stopped }

/-- A protection opening of a bay, with the cause its trip latch held, is decided (R69). -/
def State.protectionOpening (s : State) (b : Bay) (cause : TripCause) : State :=
  if s.canLock b then
    let t := s.setPend (bayRec b) .reclose none
    let t := t.setRcl b (t.rcl b).stopTimers
    let r := t.rcl b
    if !r.block.isEmpty then t.lock b .protectionBlocked
    else if cause == .sef && t.setting b fSefReclose == 0 then t.lock b .protectionBlocked
    else if t.effShots b ≤ r.shots then t.lock b .shotsExhausted
    else if t.mgu.part == .standdown then t.lock b .standdown
    else t.setRcl b { r with state := .dead, deadTimer := some (t.setting b (fDead r.shots)) }
  else s

/-- The dead timer has run out in DEAD (R70). -/
def State.deadEnded (s : State) (b : Bay) : State :=
  let t := s.setRcl b { s.rcl b with deadTimer := none }
  if (t.status (bayRec b)).position ≠ .opened then t.lock b .statusLost
  else if t.effShots b ≤ (t.rcl b).shots then t.lock b .shotsExhausted
  else if (t.cap (bayRec b)).hasSpring && !(t.status (bayRec b)).spring then
    t.setRcl b { t.rcl b with springTimer := some Config.springWaitMs }
  else t.requestReclose b

/-- The spring input of a bay has changed to yes: a spring wait ends (R71). -/
def State.springCharged (s : State) (b : Bay) : State :=
  if s.runs b && (s.rcl b).state == .dead && (s.rcl b).springTimer.isSome then
    let t := s.setRcl b { s.rcl b with springTimer := none }
    if t.effShots b ≤ (t.rcl b).shots then t.lock b .shotsExhausted else t.requestReclose b
  else s

/-- The bay goes to RECLAIM, and its reclaim timer starts for the effective reclaim time formed now (R74, R78). -/
def State.startReclaim (s : State) (b : Bay) (shots : Nat) : State :=
  s.setRcl b { s.rcl b with state := .reclaim, shots := shots, deadTimer := none, springTimer := none,
                            reclaimTimer := .running (s.setting b fReclaim) }

/-- The RCC is told the outcome of its CLOSE (R74), or that it was superseded while pending (R75). -/
def State.rccTold (s : State) (b : Bay) (o : Told) : State :=
  let r := s.rcl b
  match r.state, o with
  | .closing .issued, .done => s.startReclaim b r.shots
  | .closing .issued, .superseded => s.setRcl b { r with state := .closing .superseded }
  | .closing .issued, _ => s.lock b .closeFailed
  | .closing .waiting, .superseded => s.setRcl b { r with state := .closing .superseded }
  | _, _ => s

/-- The reclaim timer has run out in RECLAIM (R76). -/
def State.reclaimEnded (s : State) (b : Bay) : State :=
  let r := s.rcl b
  if (s.elem b).latch.isNone then s.setRcl b { r with state := .idleClosed, shots := 0, reclaimTimer := .stopped }
  else s.setRcl b { r with reclaimTimer := .runOut }

/-- An opening, judged by the reclose state and the trip latch (R77). -/
def State.bayOpening (s : State) (b : Bay) : State :=
  let r := s.rcl b
  if (s.elem b).latch.isNone && (r.state == .idleClosed || r.state == .reclaim) then
    s.setRcl b { r with state := .idleOpen, shots := 0, reclaimTimer := .stopped }
  else s

/-- A closing that the RCC's own CLOSE has not made (R78).  R78 names no effect for IDLE_CLOSED and RECLAIM: there it changes the
last definite position alone (log entry 35). -/
def State.bayClosing (s : State) (b : Bay) : State :=
  let st := (s.rcl b).state
  if st == .idleOpen || st == .dead || st.isLockout || st == .closing .waiting then
    let t := s.setPend (bayRec b) .reclose none
    let u := t.startReclaim b (t.effShots b)
    if st.isLockout then u.lamp (bayRec b) .off else u
  else s

/-- A bay that the RCC does not run stands in its idle state (R67). -/
def State.followIdle (s : State) (b : Bay) : State :=
  let r := s.rcl b
  s.setRcl b { r with state := r.idleState }

/-- A change of a bay's stored position is handed to the RCC (R68, R72). -/
def State.rccPosition (s : State) (b : Bay) (new : Position) : State :=
  let r := s.rcl b
  if new == .opened || new == .closed then
    if r.lastDefinite == some new then s
    else
      let t := s.setRcl b { r with lastDefinite := some new }
      if !t.runs b then t.followIdle b
      else if r.lastDefinite.isNone then
        if r.state == .idleOpen && new == .closed then t.followIdle b else t
      else if new == .opened then t.bayOpening b
      else t.bayClosing b
  else if new == .unknown && s.runs b && r.state == .dead then s.lock b .statusLost
  else s

/-- Every bay in DEAD goes to LOCKOUT at the entry to STANDDOWN (R62 step 3, R83), in the order 0 to 7 (log entry 36). -/
def State.rccStanddown (s : State) : State :=
  forEach allBays (fun b t => if (t.rcl b).state == .dead then t.lock b .standdown else t) s

/-- A bay starts from its idle state with shot count 0 (R87). -/
def State.startIdle (s : State) (b : Bay) : State :=
  let r := (s.rcl b).stopTimers
  s.setRcl b { r with state := r.idleState, shots := 0 }

/-- A bay at a DECOMMISSION (R87). -/
def State.decommissionBay (s : State) (b : Bay) : State :=
  let locked := (s.rcl b).state.isLockout
  let t := (s.setPend (bayRec b) .reclose none).startIdle b
  let t := if locked then t.lamp (bayRec b) .off else t
  ((t.putReason b .fire false).putReason b .hunt false).putReason b .manual false

end Sys2Proof.Machine
end

