-- ==== Sys2Proof/Machine/Records.lean ====
section
/-! DEFINITION. Fault records: the ring, the fields of a record, the reactance estimate and the segment lookup
(chapter 8, R148 to R154). -/

namespace Sys2Proof.Machine

/-- A bay evaluation: its tag, the phasors and magnitudes of IA, IB, IC, IN and I0calc, and whether any sample of the
window is held (R11). -/
structure BayEval where
  tag     : Pos
  ia      : Meas
  ib      : Meas
  ic      : Meas
  inn     : Meas
  i0      : Meas
  anyHeld : Bool
  deriving DecidableEq, Repr

/-- The tag immediately previous to a tag: one evaluation point, 8 samples, before it (chapter 1, Evaluation tags). -/
def prevTag (t : Pos) : Pos := t - 8

/-- The latest bus evaluation as it pairs with a tag: its tag is the same or the immediately previous one (R113). -/
def State.pairedBus (s : State) (t : Pos) : Option BusEval :=
  s.meu.latestBus.filter (fun v => v.tag == t || v.tag == prevTag t)

/-- The bus evaluation available to a record (R151). -/
def State.busFor (s : State) : Option Pos → Option BusEval
  | some t => s.pairedBus t
  | none => s.meu.latestBus

/-- The faulted phase's current and voltage: the phase with the largest magnitude, the first in the order A, B, C where
several are equal (R152). -/
def faultedPhase (e : BayEval) (v : BusEval) : Meas × Meas :=
  if e.ib.mag ≤ e.ia.mag && e.ic.mag ≤ e.ia.mag then (e.ia, v.va)
  else if e.ic.mag ≤ e.ib.mag then (e.ib, v.vb)
  else (e.ic, v.vc)

/-- The reactance of a current and voltage phasor, truncated toward zero and clamped (R152). -/
def reactance (i v : Meas) : Int :=
  max (-32768) (min 32767 (((v.im * i.re - v.re * i.im) * 1000).tdiv (i.re * i.re + i.im * i.im)))

/-- An entry of the segment table matches a bay and a reactance (R154). -/
def Segment.matches (g : Segment) (b : Bay) (x : Int) : Bool :=
  g.bay == some b && decide (g.xLow ≤ x) && decide (x ≤ g.xHigh)

/-- The label of the first matching entry in table order (R154). -/
def State.segmentOf (s : State) (b : Bay) (x : Int) : Option Nat :=
  (s.recd.segments.toList.find? (fun g => g.matches b x)).map (fun g => g.segLabel)

/-- A completed record is stored at the next slot of the ring with the next sequence number (R149). -/
def State.storeRecord (s : State) (r : FaultRecord) : State :=
  let d := s.recd
  let top : Fin 16 := d.top + 1
  { s with recd := { d with
      top := top, ring := d.ring.put top (some { r with seq := d.nextSeq }), nextSeq := d.nextSeq + 1,
      count := satInc Config.recordSlots d.count } }

/-- What the PRU hands with a trip record, as it stood at the evaluation (R150). -/
structure AtEval where
  shots : Nat
  group : GroupNo
  level : Level
  deriving DecidableEq, Repr

/-- The PRU's record of a protection trip: what the PRU hands, completed by the REC (R34, R150 to R154). -/
def State.tripRecord (s : State) (b : Bay) (cause : TripCause) (e : BayEval) (dir : Direction) (a : AtEval) : State :=
  let bus := s.busFor (some e.tag)
  let x : Option Int :=
    if cause == .phi || cause == .ptoc then
      bus.map (fun v => reactance (faultedPhase e v).1 (faultedPhase e v).2)
    else none
  s.storeRecord
    { seq := 0, stamp := s.stamp, bay := b, cause := cause.asRecord, shots := a.shots, group := a.group,
      level := a.level, tag := some e.tag, ia := e.ia.mag, ib := e.ib.mag, ic := e.ic.mag, inn := e.inn.mag,
      i0 := e.i0.mag, vn := bus.map (fun v => v.vn.mag), direction := dir, reactance := x,
      segLabel := x.bind (fun x => s.segmentOf b x), chans := 0 }

/-- A record written outside a bay evaluation, with cause HUNT_FOUND or BREAKER_FAIL (R150, R151). -/
def State.bayRecord (s : State) (b : Bay) (cause : RecordCause) : State :=
  let l := s.recd.latest.look b
  let mag (f : LatestEval → Nat) : Nat := (l.map f).getD 0
  s.storeRecord
    { seq := 0, stamp := s.stamp, bay := b, cause := cause, shots := (s.rcl b).shots, group := s.activeNo,
      level := s.fru.effective, tag := l.map (fun v => v.tag), ia := mag (fun v => v.ia), ib := mag (fun v => v.ib),
      ic := mag (fun v => v.ic), inn := mag (fun v => v.inn), i0 := mag (fun v => v.i0),
      vn := (s.busFor (l.map (fun v => v.tag))).map (fun v => v.vn.mag), direction := s.dir b, reactance := none,
      segLabel := none, chans := 0 }

/-- The newest n records of the ring, newest first (R155): from the slot at an index, walking back. -/
def recordsFrom (ring : Vector (Option FaultRecord) 16) : Nat → Fin 16 → List FaultRecord
  | 0, _ => []
  | n + 1, i => (ring.look i).toList ++ recordsFrom ring n (i - 1)

def State.newestRecords (s : State) (n : Nat) : List FaultRecord :=
  recordsFrom s.recd.ring (min n s.recd.count) s.recd.top

end Sys2Proof.Machine
end

