-- ==== Sys2Proof/Machine/Hunt.lean ====
section
/-! DEFINITION. The Hunt Controller (chapter 7): starting a hunt, choosing and testing candidates, every ending and
abort. -/

namespace Sys2Proof.Machine

/-! ### The hunt context -/

/-- How a hunt started, as HUNT_START carries it (R131). -/
inductive HuntHow where
  | startDelay | startHunt
  deriving DecidableEq, Repr

def HuntHow.code : HuntHow → Nat
  | .startDelay => 1 | .startHunt => 2

/-- What gave a FOUND_LOCKED result (R145; none for other results). -/
inductive LockedBy where
  | none | fireLimit | displaced | closeFailed
  deriving DecidableEq, Repr

def LockedBy.code : LockedBy → Nat
  | .none => 0 | .fireLimit => 1 | .displaced => 2 | .closeFailed => 3

/-- What the HNC is told of its command: completed, failed or turned away with a code other than STANDDOWN, turned away
with STANDDOWN, or superseded (R133, R136). -/
inductive HuntTold where
  | done | failed | standdown | superseded
  deriving DecidableEq, Repr

def HuntTold.ofCode : ResultCode → HuntTold
  | .standdown => .standdown
  | _ => .failed

def HuntTold.ofTold : Told → HuntTold
  | .done => .done | .refused => .failed | .timeout => .failed | .superseded => .superseded

/-- A hunt is running in every state but IDLE and WAITING. -/
def HuntState.running : HuntState → Bool
  | .idle => false
  | .waiting => false
  | _ => true

/-- The candidate at a position of the candidate list. -/
def State.candidate (s : State) (k : Fin 8) : Option Candidate := s.hnc.cands[k.val]?

/-- The current candidate. -/
def State.curCandidate (s : State) : Option Candidate := s.hnc.current.bind s.candidate

/-- The bay under test: the bay of the current candidate while the hunt is running. -/
def State.underTest (s : State) : Option Bay := s.curCandidate.bind (fun c => c.bay)

/-- The current candidate's dwell. -/
def State.curDwell (s : State) : Nat := (s.curCandidate.map (fun c => c.dwell)).getD 0

/-- A candidate takes an outcome. -/
def State.setOutcome (s : State) (k : Fin 8) (o : CandOutcome) : State :=
  let h := s.hnc
  s.setHnc { h with cands := h.cands.modify k.val (fun c => { c with outcome := o }) }

/-- The current candidate takes an outcome. -/
def State.setCurOutcome (s : State) (o : CandOutcome) : State :=
  match s.hnc.current with
  | some k => s.setOutcome k o
  | none => s

/-- The positions from a position on, and those after it. -/
def positionsFrom (k : Fin 8) : List (Fin 8) := allBays.filter (fun j => decide (k ≤ j))
def positionsAfter (k : Fin 8) : List (Fin 8) := allBays.filter (fun j => decide (k < j))

def State.nextPositions (s : State) : List (Fin 8) :=
  match s.hnc.current with
  | some k => positionsAfter k
  | none => []

/-- The hunt goes to a state with its timer set. -/
def State.huntTo (s : State) (st : HuntState) (timer : Option Nat) : State :=
  s.setHnc { s.hnc with state := st, timer := timer }

def State.setBayOpen (s : State) (b : Option Bay) : State := s.setHnc { s.hnc with bayOpen := b }
def State.setRestoreOut (s : State) (v : Bool) : State := s.setHnc { s.hnc with restoreOut := v }

/-- HUNT is removed from the block set of every bay except those kept (R142, R145), in the order 0 to 7 (log entry 36). -/
def State.removeHunt (s : State) (keep : Option Bay) : State :=
  forEach allBays (fun b t => if keep == some b then t else t.removeReason b .hunt) s

/-! ### The end of a hunt (R145) -/

/-- A bay in a detail, 0xFF where none (chapter 10; log entry 18). -/
def bayByte : Option Bay → Byte
  | some b => byte b.val
  | none => 0xFF

/-- Step 3 of R145: the last result is stored and the context goes to IDLE. -/
def State.storeHuntResult (s : State) (r : HuntResult) (named : Option Bay) : State :=
  s.setHnc { s.hnc with
    last := some { result := r, bay := named, started := s.hnc.started, ended := s.stamp },
    current := none, pendingResult := none, restoreOut := false, timer := none, state := .idle }

/-- A hunt ends with a result, the bay it names, the bay under test where it ended from a test, and the reason of a
FOUND_LOCKED (R145). -/
def State.endHunt (s : State) (r : HuntResult) (named under : Option Bay) (why : LockedBy) : State :=
  let t := (s.setHnc { s.hnc with timer := none }).removeHunt none
  let t := t.changeStack (removeEntry .hunt t.fru.stack) .huntEnd
  let ended := t.stamp
  let t := t.storeHuntResult r named
  t.occur fHuntEnd (match named with | some b => bayMask b | none => 0)
    ([byte r.code, bayByte named, bayByte under, byte why.code] ++ bytes32 t.hnc.started ++ bytes32 ended)

/-- An ABORTING hunt ends with its pending result (R143). -/
def State.endPending (s : State) : State :=
  match s.hnc.pendingResult with
  | some r => s.endHunt r none s.underTest .none
  | none => s

/-- The bay under test is handed to the RCC for LOCKOUT, and is no longer open by the hunt (R134). -/
def State.huntLock (s : State) (cause : LockoutCause) : State :=
  match s.underTest with
  | some b => (s.lock b cause).setBayOpen none
  | none => s.setBayOpen none

/-- A find ends with the found bay locked out: FOUND_LOCKED (R137 step 3, R138, R139). -/
def State.endFoundLocked (s : State) (cause : LockoutCause) (why : LockedBy) : State :=
  let b := s.underTest
  (s.huntLock cause).endHunt .foundLocked b b why

/-! ### Choosing a candidate (R132, R133) -/

/-- The outcome of a candidate that is passed over, by the first test of R132 that holds; none when it is tested. -/
def State.skipOutcome (s : State) (c : Candidate) : Option CandOutcome :=
  match c.bay with
  | none => some .skippedAbsent
  | some b =>
    let n := bayRec b
    if !(s.cap n).inService then some .skippedAbsent
    else if !(s.status n).presence then some .skippedAbsent
    else if (s.status n).localMode then some .skippedLocal
    else if (s.status n).interlock then some .skippedInterlock
    else if (s.status n).position ≠ .closed || (s.rcl b).state.code == 5 || (s.rcl b).state.code == 3 then
      some .skippedOpen
    else if c.snapshot == some .reverse then some .skippedReverse
    else none

/-- The hunt selects a candidate from the positions given, in order, and places its HUNT OPEN; past the last one the list
is exhausted (R132, R133).  EXHAUSTED is no end from a test: its HUNT_END names no bay under test (R145; log entry 37). -/
def State.selectFrom : List (Fin 8) → State → State
  | [], s => s.endHunt .exhausted none none .none
  | k :: ks, s =>
    match s.candidate k with
    | none => State.selectFrom ks s
    | some c =>
      match s.skipOutcome c, c.bay with
      | none, some b =>
        let t := (s.setHnc { s.hnc with current := some k }).huntTo .opening none
        match t.place (bayRec b) .hunt .opening with
        | .ok u => u
        | .error _ => State.selectFrom ks (t.setOutcome k .failedOpen)
      | some o, _ => State.selectFrom ks (s.setOutcome k o)
      | none, none => State.selectFrom ks (s.setOutcome k .skippedAbsent)

/-- The next candidate is selected, from the position after the current one. -/
def State.selectNext (s : State) : State := State.selectFrom s.nextPositions s

/-- A restore has failed: FAILED_RESTORE, LOCKOUT with CLOSE_FAILED, and the next candidate (R136). -/
def State.restoreFailed (s : State) : State := ((s.setCurOutcome .failedRestore).huntLock .closeFailed).selectNext

/-- R140: the fault is persistent. -/
def State.foundPersistent (s : State) : State :=
  match s.underTest with
  | some b =>
    let t := match s.place (bayRec b) .hunt .opening with
      | .ok u => u
      | .error _ => s
    (t.lock b .huntFound).endHunt .foundPersistent (some b) (some b) .none
  | none => s

/-- The hunt enters RETEST_DWELL, where a network already displaced is judged at once (R138, R139, R140). -/
def State.toRetestDwell (s : State) : State :=
  let t := (s.setBayOpen none).huntTo .retestDwell (some s.curDwell)
  if t.efu.nvd.state == .displaced then t.foundPersistent else t

/-! ### What the slot tells the HNC (R133, R136, R139, R143) -/

/-- In ABORTING the restore has failed (R143). -/
def State.abortRestoreFailed (s : State) : State :=
  let t := match s.curCandidate with
    | some c => if c.outcome == CandOutcome.pending || c.outcome == CandOutcome.healthy then s.setCurOutcome .failedRestore else s
    | none => s
  (t.huntLock .closeFailed).endPending

/-- The outcome of a HUNT CLOSE at the bay under test. -/
def State.huntCloseTold (s : State) (o : HuntTold) : State :=
  match s.hnc.state, o with
  | .restoring, .done => (s.setBayOpen none).selectNext
  | .restoring, .failed => s.restoreFailed
  | .restoring, .superseded => s.setRestoreOut true
  | .retestClosing, .done => s.toRetestDwell
  | .retestClosing, .failed => s.endFoundLocked .closeFailed .closeFailed
  | .retestClosing, .superseded => s.setRestoreOut true
  | .aborting, .done => (s.setBayOpen none).endPending
  | .aborting, .failed => s.abortRestoreFailed
  | .aborting, .superseded => s.abortRestoreFailed
  | _, _ => s

/-- A HUNT CLOSE is placed at the slot of a bay; its refusal reaches the HNC as an outcome (R133). -/
def State.placeHuntClose (s : State) (b : Bay) : State :=
  match s.place (bayRec b) .hunt .closing with
  | .ok t => t
  | .error code => s.huntCloseTold (HuntTold.ofCode code)

/-- The outcome of a HUNT OPEN at the bay under test. -/
def State.huntOpenTold (s : State) (b : Bay) (o : HuntTold) : State :=
  match s.hnc.state, o with
  | .opening, .done => (s.setBayOpen (some b)).huntTo .dwell (some s.curDwell)
  | .opening, _ => (s.setCurOutcome .failedOpen).selectNext
  | .aborting, .done => (s.setBayOpen (some b)).placeHuntClose b
  | .aborting, _ => (s.setCurOutcome .failedOpen).endPending
  | _, _ => s

/-- The HNC waits for the outcome of a HUNT command at the bay under test (R133). -/
def HuntState.awaits : HuntState → Bool
  | .opening => true
  | .restoring => true
  | .retestClosing => true
  | .aborting => true
  | _ => false

/-- The HNC is told the outcome of a HUNT command at a slot.  It acts only on the command it placed last at the slot of the
bay under test (R133): fromFlight says that the command was in flight, and then one still pending there is the one
placed last. -/
def State.hncTold (s : State) (n : Rec) (cmd : Command) (o : HuntTold) (fromFlight : Bool) : State :=
  match s.underTest with
  | some b =>
    if bayRec b == n && s.hnc.state.awaits && !(fromFlight && (s.slot n).pend.hunt.isSome) then
      if cmd == .closing then s.huntCloseTold o else s.huntOpenTold b o
    else s
  | none => s

/-! ### Aborts (R141, R142, R144) -/

/-- An abort of a running hunt, or the entry of R141, with its pending result (R142). -/
def State.abortHuntWith (s : State) (r : HuntResult) : State :=
  let left := s.hnc.state
  let b := s.underTest
  let t := (s.setHnc { s.hnc with timer := none, pendingResult := some r }).removeHunt b
  let aborting := t.huntTo .aborting none
  match left, b with
  | .opening, some b =>
    if (t.slot (bayRec b)).pend.hunt.isSome then (t.setPend (bayRec b) .hunt none).endPending else aborting
  | .dwell, some b => aborting.placeHuntClose b
  | .retestWait, some b => aborting.placeHuntClose b
  | .restoring, some b =>
    if t.hnc.restoreOut then (aborting.setRestoreOut false).placeHuntClose b else aborting
  | .retestClosing, some b =>
    if t.hnc.restoreOut then (aborting.setRestoreOut false).placeHuntClose b else aborting
  | _, _ => t.endPending

/-- An event of R142 aborts a running hunt that is not already ABORTING. -/
def State.abortRunning (s : State) (r : HuntResult) : State :=
  if s.hnc.state.running && s.hnc.state != .aborting then s.abortHuntWith r else s

/-- A WAITING hunt returns to IDLE (R129). -/
def State.huntToIdle (s : State) : State := s.huntTo .idle none

/-- A protection trip request is handed to the HNC (R34, R142). -/
def State.hncTrip (s : State) : State := s.abortRunning .abortedTrip

/-- The HNC is told of the part's entry to STANDDOWN (R129, R144). -/
def State.hncStanddown (s : State) : State :=
  if s.hnc.state == .waiting then s.huntToIdle
  else if s.hnc.state.running then
    let b := s.underTest
    let t := match b with
      | some b => if (s.slot (bayRec b)).pend.hunt == some Command.opening then s.setPend (bayRec b) .hunt none else s
      | none => s
    (t.setBayOpen none).endHunt .abortedStanddown none b .none
  else s

/-! ### Finding the faulted feeder (R137), and the changes the HNC follows -/

/-- The effective fire level is at or above the fire limit. -/
def State.atFireLimit (s : State) : Bool := decide (s.hnc.table.fireLimit ≤ s.fru.effective.val)

/-- The candidate is found in DWELL (R137). -/
def State.huntFind (s : State) : State :=
  match s.underTest with
  | some b =>
    let t := ((s.setHnc { s.hnc with timer := none }).setCurOutcome .found).bayRecord b .huntFound
    if t.atFireLimit then t.endFoundLocked .huntFound .fireLimit
    else t.huntTo .retestWait (some t.hnc.table.retestDelay)
  | none => s

/-- The start delay starts: TIMING to DISPLACED with the hunt enabled, the part ACTIVE, the context IDLE and re-arm set
(R129). -/
def State.mayWait (s : State) (old new : NvdState) : Bool :=
  old == .timing && new == .displaced && s.hnc.table.enable && s.mgu.part == .active && s.hnc.state == .idle &&
    s.hnc.rearm

/-- A change of the NVD element is handed to the HNC (R123; R128, R129, R135, R140, R141, R142). -/
def State.hncNvd (s : State) (old new : NvdState) : State :=
  let s := if new == .normal then s.setHnc { s.hnc with rearm := true } else s
  let cleared := old == .displaced && new == .normal
  if s.mayWait old new then s.huntTo .waiting (some s.hnc.table.startDelay)
  else
    match s.hnc.state with
    | .idle => s
    | .waiting => if old == .displaced && (new == .normal || new == .unknown) then s.huntToIdle else s
    | .aborting => s
    | st =>
      if new == .unknown then s.abortRunning .abortedStale
      else
        match st with
        | .dwell => if cleared then s.huntFind else s
        | .opening => if cleared then s.abortRunning .clearedUnattributed else s
        | .restoring => if cleared then s.abortRunning .clearedUnattributed else s
        | .retestClosing => if cleared then s.abortRunning .clearedUnattributed else s
        | .retestDwell => if new == .displaced then s.foundPersistent else s
        | _ => s

/-- A change of a bay's stored position is handed to the HNC (R47; R135, R138). -/
def State.hncPosition (s : State) (b : Bay) (new : Position) : State :=
  if s.underTest == some b && new == .closed then
    match s.hnc.state with
    | .dwell =>
      (((s.setHnc { s.hnc with timer := none }).setBayOpen none).setCurOutcome .failedOpen).selectNext
    | .retestWait => s.toRetestDwell
    | _ => s
  else s

/-- The FRU hands the HNC a new effective level (R138). -/
def State.hncLevel (s : State) : State :=
  if s.hnc.state == .retestWait && s.atFireLimit then s.endFoundLocked .huntFound .fireLimit else s

/-! ### Starting a hunt (R131) -/

/-- The candidate list as the plan is copied, with the snapshot directions (R131 steps 2 and 3). -/
def State.copyPlan (s : State) : List Candidate :=
  s.hnc.table.plan.toList.map (fun p =>
    { bay := p.bay, dwell := p.dwell, snapshot := p.bay.map s.dir, outcome := .pending })

/-- The group byte of HUNT_START: the group of the HUNT entry, 0xFF for NONE, 0xFE for GROUP_INVALID (R131 step 6). -/
def State.huntGroupByte (s : State) : Byte :=
  match s.hnc.table.group with
  | none => 0xFF
  | some g => if s.groupValid g then byte g.val else 0xFE

/-- Step 4 of R131: the HUNT entry is placed where the hunt group names a VALID group. -/
def State.placeHuntEntry (s : State) : State :=
  match s.hnc.table.group with
  | some g => if s.groupValid g then s.changeStack (s.placed .hunt g) .huntStart else s
  | none => s

/-- Step 5 of R131: HUNT is added to every bay in service, in the order 0 to 7 (log entry 36). -/
def State.addHunt (s : State) : State :=
  forEach allBays (fun b t => if (t.cap (bayRec b)).inService then t.addReason b .hunt else t) s

/-- The start actions of a hunt (R131). -/
def State.startHuntNow (s : State) (how : HuntHow) : State :=
  let t := s.setHnc { s.hnc with rearm := false, started := s.stamp, cands := s.copyPlan, timer := none }
  let g := t.huntGroupByte
  let t := t.placeHuntEntry.addHunt
  let plans := (t.hnc.cands.filter (fun c => c.bay.isSome)).length
  (t.occur fHuntStart 0 [byte how.code, g, byte plans]) |> State.selectFrom (positionsFrom 0)

/-! ### Timer expiries of the hunt -/

/-- The dwell has run out in DWELL: HEALTHY, and a HUNT CLOSE to restore (R135). -/
def State.dwellEnded (s : State) : State :=
  match s.underTest with
  | some b => ((s.setCurOutcome .healthy).huntTo .restoring none).placeHuntClose b
  | none => s

/-- The retest delay has run out in RETEST_WAIT (R138). -/
def State.retestDelayEnded (s : State) : State :=
  if s.atFireLimit then s.endFoundLocked .huntFound .fireLimit
  else if s.efu.nvd.state == .displaced then s.endFoundLocked .huntFound .displaced
  else
    match s.underTest with
    | some b => (s.huntTo .retestClosing none).placeHuntClose b
    | none => s

/-- The retest dwell has run out: FOUND_TRANSIENT (R140). -/
def State.retestDwellEnded (s : State) : State := s.endHunt .foundTransient s.underTest s.underTest .none

/-! ### The level change (R92, R102), which reaches the HNC -/

/-- Steps 2 to 5 of R102, from the old effective level: the FIRE reasons, the stack, the change of effective settings,
and FIRE_LEVEL. -/
def State.applyLevel (s : State) (old : Level) : State :=
  let d := s.deriveFire
  let t := d.1
  let p := if t.protecting then t.fireStep else (t.fru.stack, .unchanged)
  let t := if t.protecting then t.changeStack p.1 .levelChange else t
  let t := t.rejudgeWaiting.hncLevel
  t.occur fFireLevel (baysMask d.2)
    [byte old.val, byte t.fru.effective.val, byte t.fru.commanded.val, byte t.fru.pinLevel.val, byte p.2.code]

/-- The effective level is formed as the greater of the two levels, and a change is applied (R92).  In BYPASS it is formed
and hands nothing on. -/
def State.formLevel (s : State) : State :=
  let new := max s.fru.commanded s.fru.pinLevel
  let old := s.fru.effective
  if new = old then s
  else
    let t := { s with fru := { s.fru with effective := new } }
    if t.mgu.part == .bypass then t else t.applyLevel old

end Sys2Proof.Machine
end

