-- ==== Sys2Proof/Machine/Breaker.lean ====
section
/-! DEFINITION. The Bay Control Unit (chapter 3): withdrawals, standdown, the TRIP request, the end of a command, breaker
fail and backup, bay status from BAYSTAT frames, presence. -/

namespace Sys2Proof.Machine

/-! ### Withdrawn requests -/

/-- The requester of a pending request that is withdrawn with a result code is told it (R45, R46, R62). -/
def State.tellRefused (s : State) (n : Rec) (c : ReqClass) (cmd : Command) (code : ResultCode) : State :=
  match c, recBay n with
  | .hunt, _ => s.hncTold n cmd (HuntTold.ofCode code) false
  | .reclose, some b => s.rccRefused b code
  | .management, _ => s.mgmtWithdrawn n cmd (.refusedAtRequest code)
  | _, _ => s

/-- The requester of a pending CLOSE that a TRIP request withdraws is told SUPERSEDED (R53). -/
def State.tellSuperseded (s : State) (n : Rec) (c : ReqClass) (cmd : Command) : State :=
  match c, recBay n with
  | .hunt, _ => s.hncTold n cmd .superseded false
  | .reclose, some b => s.rccTold b .superseded
  | .management, _ => s.mgmtWithdrawn n cmd .superseded
  | _, _ => s

/-- The classes whose requests can be withdrawn, in the order of R52. -/
def otherClasses : List ReqClass := [.hunt, .reclose, .management, .annunciate]

/-- Every pending request of a class other than TRIP that a test takes in leaves its slot, in class order, and its requester
is told. -/
def State.withdraw (s : State) (n : Rec) (which : Command → Bool)
    (tell : State → ReqClass → Command → State) : State :=
  otherClasses.foldl (fun t c =>
    match (t.slot n).pend.get c with
    | some cmd => if which cmd then tell (t.setPend n c none) c cmd else t
    | none => t) s

def Command.isClose : Command → Bool
  | .closing => true
  | _ => false

/-- Every pending request other than TRIP is withdrawn with a code (R45). -/
def State.withdrawAll (s : State) (n : Rec) (code : ResultCode) : State :=
  s.withdraw n (fun _ => true) (fun t c cmd => t.tellRefused n c cmd code)

/-- Every pending CLOSE is withdrawn with a code (R46, R62). -/
def State.withdrawCloses (s : State) (n : Rec) (code : ResultCode) : State :=
  s.withdraw n Command.isClose (fun t c cmd => t.tellRefused n c cmd code)

/-! ### Standdown (R62) -/

inductive StanddownCause where
  | noBackup | secondFail | backupFailed
  deriving DecidableEq, Repr

def StanddownCause.code : StanddownCause → Nat
  | .noBackup => 1 | .secondFail => 2 | .backupFailed => 3

/-- The part enters STANDDOWN from ACTIVE (R62).  In STANDDOWN it is not entered again (R60), and in UNCONFIGURED the part
stays there (R192). -/
def State.enterStanddown (s : State) (cause : StanddownCause) (n : Rec) : State :=
  if s.mgu.part == .active then
    let t := s.setPart .standdown
    let t := forEach allRecs (fun k u => u.withdrawCloses k .standdown) t
    let t := t.rccStanddown.hncStanddown
    t.occur fStanddown (recMask n) [byte cause.code, byte n.val]
  else s

/-! ### The TRIP request (R53) -/

/-- A command in flight is superseded: its frame is withdrawn unsent (R183) and a TRIP-class OPEN is issued at once. -/
def State.supersede (s : State) (n : Rec) : State :=
  let x := s.slot n
  let t := (s.setSlot n { x with state := .free }).setOutPlace n none
  t.issueCmd n .trip .opening

/-- The requester of a superseded command is told (R53). -/
def State.tellFlightSuperseded (s : State) (n : Rec) (f : Flight) : State :=
  match f.cls, recBay n with
  | .hunt, _ => s.hncTold n f.cmd .superseded true
  | .reclose, some b => s.rccTold b .superseded
  | .management, _ =>
    s.setResult n { cls := .management, cmd := f.cmd, tag := some f.tag, outcome := .superseded, time := s.stamp }
  | .annunciate, _ =>
    if (s.slot n).pend.annunciate.isSome then s else s.setPend n .annunciate (some f.cmd)
  | _, _ => s

/-- The TRIP request at the slot as its state stands: issued, merged, or superseding the command in flight (R53). -/
def State.takeTrip (s : State) (n : Rec) : State :=
  let x := s.slot n
  match x.state with
  | .free => (s.setPend n .trip (some .opening)).issueNext n
  | .inFlight f =>
    if f.cmd == .opening then s.setSlot n { x with state := .inFlight { f with tripAttached := true } }
    else (s.supersede n).tellFlightSuperseded n f
  | .echoed f =>
    if f.cmd == .opening then s.setSlot n { x with state := .echoed { f with tripAttached := true } }
    else (s.supersede n).tellFlightSuperseded n f

/-- A TRIP request at a slot (R53). -/
def State.tripRequest (s : State) (n : Rec) : State :=
  (s.takeTrip n).withdraw n Command.isClose (fun t c cmd => t.tellSuperseded n c cmd)

/-! ### Breaker fail and backup (R60, R61) -/

/-- How a command failed. -/
inductive Failure where
  | refused | timeout
  deriving DecidableEq, Repr

def Failure.code : Failure → Nat
  | .refused => 1 | .timeout => 2

inductive BackupAction where
  | none | issued | noneConfigured | inProgress
  deriving DecidableEq, Repr

def BackupAction.code : BackupAction → Nat
  | .none => 0 | .issued => 1 | .noneConfigured => 2 | .inProgress => 3

/-- The backup action of a breaker fail, by the table of R60. -/
def State.backupAction (s : State) : BackupAction :=
  if s.bcu.backupFlag then .inProgress
  else if s.backupConfigured then .issued
  else .noneConfigured

/-- Step 5 of R60. -/
def State.takeBackup (s : State) (b : Bay) (a : BackupAction) : State :=
  match a with
  | .issued => (s.setBackup true).tripRequest 8
  | .noneConfigured => s.enterStanddown .noBackup (bayRec b)
  | .inProgress => s.enterStanddown .secondFail (bayRec b)
  | .none => s

/-- The trip latch of a bay is cleared (R37). -/
def State.clearLatch (s : State) (b : Bay) : State := s.setElem b { s.elem b with latch := none }

/-- A breaker fail on a feeder bay (R60). -/
def State.breakerFail (s : State) (b : Bay) (fl : Failure) (tag : Nat) : State :=
  let t := (s.clearLatch b).lock b .breakerFail
  let t := t.bayRecord b .breakerFail
  let a := t.backupAction
  let t := t.occurWithRecord fBreakerFail (bayMask b) [byte fl.code, byte tag, byte a.code, byte b.val]
  t.takeBackup b a

/-- The backup trip has failed (R61). -/
def State.backupFail (s : State) (fl : Failure) (tag : Nat) : State :=
  (s.occur fBreakerFail (recMask 8) [byte fl.code, byte tag, byte BackupAction.none.code, 8]).enterStanddown
    .backupFailed 8

/-! ### The end of a command (R57) -/

def Told.outcome : Told → CmdOutcome
  | .done => .done | .refused => .refused | .timeout => .timeout | .superseded => .superseded

/-- Step 1 of R57: the requester is told the outcome. -/
def State.tellEnd (s : State) (n : Rec) (f : Flight) (o : Told) : State :=
  match f.cls, recBay n with
  | .hunt, _ => s.hncTold n f.cmd (HuntTold.ofTold o) true
  | .reclose, some b => s.rccTold b o
  | _, _ => s

/-- The confirmation of a trip: the latch clears and the protection opening goes to the RCC with its cause (R37). -/
def State.confirmTrip (s : State) (b : Bay) : State :=
  match (s.elem b).latch with
  | some cause => (s.protectionOpening b cause).clearLatch b
  | none => s

/-- Step 2 of R57: the trip-attached mark. -/
def State.endTripMark (s : State) (n : Rec) (f : Flight) (o : Told) : State :=
  if f.tripAttached then
    match o, recBay n with
    | .done, some b => s.confirmTrip b
    | .refused, some b => s.breakerFail b .refused f.tag
    | .timeout, some b => s.breakerFail b .timeout f.tag
    | .refused, none => s.backupFail .refused f.tag
    | .timeout, none => s.backupFail .timeout f.tag
    | _, _ => s
  else s

/-- Step 3 of R57: a failure makes CMD_TIMEOUT or CMD_REFUSED. -/
def State.endOccurrence (s : State) (n : Rec) (f : Flight) (o : Told) : State :=
  let d := [byte n.val, byte f.cls.code, byte f.cmd.kindCode, byte f.cmd.argCode, byte f.tag]
  match o with
  | .timeout => s.occur fCmdTimeout (recMask n) d
  | .refused => s.occur fCmdRefused (recMask n) d
  | _ => s

/-- Step 5 of R57: the slot becomes FREE and the next pending request is issued (R52).  A HUNT CLOSE withdrawn at its
issue is told to the HNC. -/
def State.freeSlot (s : State) (n : Rec) : State :=
  let r := State.issueFrom classOrder n (s.setSlot n { s.slot n with state := .free })
  match r.2 with
  | some code => r.1.hncTold n .closing (HuntTold.ofCode code) false
  | none => r.1

/-- The command in flight at a slot completes or fails (R57); a frame of it still in its out-place is withdrawn (R183). -/
def State.commandEnd (s : State) (n : Rec) (f : Flight) (o : Told) : State :=
  let t := (s.setOutPlace n none).tellEnd n f o
  let t := (t.endTripMark n f o).endOccurrence n f o
  (t.setResult n { cls := f.cls, cmd := f.cmd, tag := some f.tag, outcome := o.outcome, time := t.stamp }).freeSlot n

/-! ### Changes of the inputs, the position and presence (R45 to R49) -/

/-- The local-mode input of a record has changed (R45). -/
def State.localChanged (s : State) (n : Rec) (on : Bool) : State :=
  let t :=
    match recBay n with
    | some b => if on then s.addReason b .localMode else s.removeReason b .localMode
    | none => s
  let t := if on then t.withdrawAll n .localMode else t
  t.occur fBayLocal (recMask n) [if on then 1 else 0]

/-- The interlock input of a record has changed (R46). -/
def State.interlockChanged (s : State) (n : Rec) (on : Bool) : State :=
  let t :=
    match recBay n with
    | some b => if on then s.addReason b .interlock else s.removeReason b .interlock
    | none => s
  let t := if on then t.withdrawCloses n .interlock else t
  t.occur fBayInterlock (recMask n) [if on then 1 else 0]

/-- The position of a record takes a value; a change is handed to the RCC and then to the HNC, and for record 8 to no block
(R47). -/
def State.storePosition (s : State) (n : Rec) (p : Position) : State :=
  let x := s.status n
  if x.position == p then s
  else
    let t := s.setStatus n { x with position := p }
    match recBay n with
    | some b => (t.rccPosition b p).hncPosition b p
    | none => t

/-- The spring input of a record takes a value; a change is handed to the RCC (R44, R48). -/
def State.storeSpring (s : State) (n : Rec) (v : Bool) : State :=
  let x := s.status n
  if x.spring == v then s
  else
    let t := s.setStatus n { x with spring := v }
    match recBay n with
    | some b => if v then t.springCharged b else t
    | none => t

/-- The lamp request that gives a lamp back (R49). -/
def Lamp.restore : Lamp → LampArg
  | .off => .off | .on => .on | .blink => .blink | .unknown => .noChange

/-- Presence of a record is judged again (R49); on a rise the last indicator state is requested (log entry 19 for the
incomer). -/
def State.judgePresence (s : State) (n : Rec) : State :=
  let x := s.status n
  let now := s.presentNow n
  if x.presence == now then s
  else
    let t := s.setStatus n { x with presence := now }
    let t := t.occur fBayPresence (recMask n) [if now then 1 else 0]
    if now && !(t.mgu.part == .bypass) then t.lamp n x.indicator.restore else t

/-- The two inputs take values; each change acts (R44 step 2). -/
def State.storeInputs (s : State) (n : Rec) (loc inter : Bool) : State :=
  let x := s.status n
  let t := s.setStatus n { x with localMode := loc, interlock := inter }
  let t := if x.localMode == loc then t else t.localChanged n loc
  if x.interlock == inter then t else t.interlockChanged n inter

/-! ### A taken BAYSTAT (R43, R44) -/

/-- The fields of a BAYSTAT payload (chapter 10, Station frames). -/
structure Baystat where
  position  : Position
  loc       : Bool
  interlock : Bool
  spring    : Bool
  lamp      : Lamp
  echoTag   : Nat
  echoDone  : Bool
  deriving DecidableEq, Repr

/-- A position code; any other than the four is read as FAULTY (R43). -/
def positionOfCode (b : Byte) : Position :=
  match b.toNat with
  | 1 => .opened | 2 => .closed | 3 => .travel | _ => .faulty

/-- An indicator code; any other than the three is read as UNKNOWN (R43). -/
def lampOfCode (b : Byte) : Lamp :=
  match b.toNat with
  | 0 => .off | 1 => .on | 2 => .blink | _ => .unknown

/-- A BAYSTAT payload of the right length, as its bytes spell it (R43).  Bits 3 to 7 of the inputs byte, to which chapter 10 gives
no meaning, are ignored (log entry 20, DEDUCED). -/
def parseBaystat : List Byte → Option Baystat
  | [p, i, l, t, r] =>
    some { position := positionOfCode p, loc := i.getLsbD 0, interlock := i.getLsbD 1, spring := i.getLsbD 2,
           lamp := lampOfCode l, echoTag := t.toNat, echoDone := r == 1 }
  | _ => none

/-- The inputs of a record, gated by what the record has (R43). -/
def gatedLocal (n : Rec) (c : Capability) (v : Bool) : Bool := n != 8 && c.hasLocal && v
def gatedInterlock (n : Rec) (c : Capability) (v : Bool) : Bool := n != 8 && c.hasInterlock && v
def gatedSpring (n : Rec) (c : Capability) (v : Bool) : Bool := n == 8 || !c.hasSpring || v

/-- The position that completes a command. -/
def Command.arrives (cmd : Command) (p : Position) : Bool :=
  match cmd with
  | .opening => p == .opened
  | .closing => p == .closed
  | .indicate _ => true
  | .interlock _ => true

def LampArg.lamp : LampArg → Option Lamp
  | .off => some .off | .on => some .on | .blink => some .blink | .noChange => none

/-- The indicator state takes the argument of a completed INDICATE (R54). -/
def State.takeIndicator (s : State) (n : Rec) (cmd : Command) : State :=
  match cmd with
  | .indicate a =>
    match a.lamp with
    | some l => s.setStatus n { s.status n with indicator := l }
    | none => s
  | _ => s

/-- The echo is judged at the record's slot, or an ECHOED command's position is (R54, R55). -/
def State.judgeEcho (s : State) (n : Rec) (tag : Nat) (done : Bool) : State :=
  let x := s.slot n
  match x.state with
  | .free => s
  | .inFlight f =>
    if tag ≠ 0 ∧ tag = f.tag then
      if !done then s.commandEnd n f .refused
      else if f.cmd.arrives (s.status n).position then (s.takeIndicator n f.cmd).commandEnd n f .done
      else s.setSlot n { x with state := .echoed f }
    else s
  | .echoed f => if f.cmd.arrives (s.status n).position then s.commandEnd n f .done else s

/-- A taken BAYSTAT is applied to its record, in the order of R44. -/
def State.applyBaystat (s : State) (n : Rec) (m : Baystat) : State :=
  let t := s.setStatus n { s.status n with silence := some Config.baystatSilenceMs, springReported := m.spring }
  let t := t.judgePresence n
  let c := t.cap n
  let t := t.storeInputs n (gatedLocal n c m.loc) (gatedInterlock n c m.interlock)
  let t := t.storeSpring n (gatedSpring n c m.spring)
  let t := t.storePosition n m.position
  let t := t.setStatus n { t.status n with reported := m.lamp }
  t.judgeEcho n m.echoTag m.echoDone

/-- The record whose ring address a frame's src is. -/
def State.recordOf (s : State) (src : Byte) : Option Rec := allRecs.find? (fun n => (s.cap n).addr == some src.toNat)

/-- The BCU takes or ignores a BAYSTAT frame (R43). -/
def State.bcuBaystat (s : State) (src : Byte) (payload : List Byte) : State :=
  match s.recordOf src, parseBaystat payload with
  | some n, some m => s.applyBaystat n m
  | _, _ => s

/-- A record's BAYSTAT silence has run out (R48).  The spring bit last reported outlives it (log entry 12). -/
def State.baystatSilent (s : State) (n : Rec) : State :=
  let t := (s.storePosition n .unknown).storeSpring n false
  let t := t.setStatus n { t.status n with reported := .unknown, silence := none }
  t.judgePresence n

/-- A command's timer has run out (R56). -/
def State.commandTimedOut (s : State) (n : Rec) (f : Flight) : State := s.commandEnd n f .timeout

end Sys2Proof.Machine
end

