-- ==== Sys2Proof/Machine/Protect.lean ====
section
/-! DEFINITION. The Earth-Fault Unit and the Protection Unit at an evaluation: direction, the SEF condition, the elements
PHI, PTOC, ETOC and SEF, the protection trip, and the neutral-voltage element (chapters 2 and 6). -/

namespace Sys2Proof.Machine

/-- The cycle and the point of a tag, as bytes. -/
def tagBytes (t : Pos) : List Byte := [byte (t.val / 32), byte (t.val % 32)]

/-! ### Direction (R112 to R115) -/

/-- The projection Wn of IN on VN, truncated toward zero (R114). -/
def projection (i v : Meas) : Int := (i.re * v.re + i.im * v.im).tdiv (v.mag : Int)

/-- The direction of a pair of phasors, with the NVD pickup and the direction threshold (R114). -/
def directionOf (pickup threshold : Nat) (i v : Meas) : Direction :=
  if v.mag < pickup then .undecided
  else
    let w := projection i v
    if w ≤ -(threshold : Int) then .forward
    else if (threshold : Int) ≤ w then .reverse
    else .undecided

/-- The elements of a bay are judged: the part is ACTIVE or STANDDOWN, the bay is in service and the active group is VALID
(R27, R112). -/
def State.judges (s : State) (b : Bay) : Bool := s.runs b && s.groupValid s.activeNo

/-- The judgement of a bay evaluation (R112 to R114). -/
def State.judgeDirection (s : State) (b : Bay) (e : BayEval) : Direction :=
  if s.judges b then
    match s.pairedBus e.tag with
    | some v => directionOf s.activeGroup.nvdPickup (s.setting b fDirThreshold) e.inn v.vn
    | none => .unavailable
  else .unavailable

/-- SEF mode NONDIR is 1 and SEF fallback NONDIR is 0 (chapter 10, Target codes). -/
def sefModeNondir : Nat := 1
def sefFallbackNondir : Nat := 0

/-- The SEF condition of a bay evaluation (R116). -/
def State.sefCondition (s : State) (b : Bay) (inMag : Nat) (d : Direction) : Bool :=
  (s.cap (bayRec b)).sefCap && s.setting b fSefPickup != 0 && decide (s.setting b fSefPickup ≤ inMag) &&
    (s.setting b fSefMode == sefModeNondir || d == .forward ||
      (d == .unavailable && s.setting b fSefFallback == sefFallbackNondir))

/-! ### The elements (R28 to R32, R117) -/

/-- PHI: the consecutive count after the evaluation, and whether it operates (R28). -/
def phiStep (pickup i count : Nat) : Nat × Bool :=
  if pickup = 0 then (0, false)
  else if i < pickup then (0, false)
  else (min 2 (count + 1), count == 1)

/-- The multiple of pickup in steps of 1/64, limited to 2560 (R30). -/
def multiple (i p : Nat) : Nat := min Config.maxMultiple (i * 64 / p)

/-- The increment of a curve at a multiple, interpolated between its points (R30). -/
def increment : List (Nat × Nat) → Nat → Nat
  | [], _ => 0
  | [q], _ => q.2
  | q :: r :: rest, m =>
    if r.1 ≤ m then increment (r :: rest) m
    else q.2 + (r.2 - q.2) * (m - q.1) / (r.1 - q.1)

/-- The effective increment under a time multiplier, at least 1 (R31). -/
def effectiveIncrement (inc t : Nat) : Nat := max 1 (inc * 100 / t)

/-- The accumulator of PTOC and ETOC: its value after the evaluation, and whether the element operates (R29 to R31). -/
def accStep (points : List (Nat × Nat)) (t decay p i a : Nat) : Nat × Bool :=
  if i < p then (if decay = 0 then 0 else a - decay, false)
  else
    let a' := min Config.fullScale (a + effectiveIncrement (increment points (multiple i p)) t)
    (a', decide (a < Config.fullScale) && a' == Config.fullScale)

/-- The SEF counter after an evaluation on which the condition is judged, and whether SEF operates (R117). -/
def sefStep (met : Bool) (delay count : Nat) : Nat × Bool :=
  if !met then (0, false)
  else if count + 1 < delay then (count + 1, false)
  else (delay, count != delay)

/-- The elements that operate on an evaluation. -/
structure Operated where
  phi  : Bool
  ptoc : Bool
  etoc : Bool
  sef  : Bool
  deriving DecidableEq, Repr

/-- The cause of a trip: the first element in the order PHI, PTOC, ETOC, SEF that operated (R35). -/
def Operated.cause (o : Operated) : Option TripCause :=
  if o.phi then some .phi else if o.ptoc then some .ptoc else if o.etoc then some .etoc
  else if o.sef then some .sef else none

/-- The elements operated as the TRIP detail carries them (chapter 10). -/
def Operated.code (o : Operated) : Nat :=
  (if o.phi then 1 else 0) + (if o.ptoc then 2 else 0) + (if o.etoc then 4 else 0) + (if o.sef then 8 else 0)

/-- The largest of the three phase magnitudes (R27). -/
def BayEval.phase (e : BayEval) : Nat := max e.ia.mag (max e.ib.mag e.ic.mag)

/-- A bay's element state after an evaluation with an effective setting for each field, and the elements that operate
(R27). -/
def State.elementStep (s : State) (b : Bay) (e : BayEval) (d : Direction) : Elements × Operated :=
  let x := s.elem b
  let set := s.setting b
  let phi := phiStep (set fPhiPickup) e.phase x.phi
  let cp := s.curveInForce b fPtocCurve fPtocTms fPtocFast fPtocFastTms
  let ptoc := accStep cp.1 cp.2 (set fDecay) (set fPtocPickup) e.phase x.ptoc
  let ce := s.curveInForce b fEtocCurve fEtocTms fEtocFast fEtocFastTms
  let etoc := accStep ce.1 ce.2 (set fDecay) (set fEtocPickup) e.i0.mag x.etoc
  let sef := sefStep (s.sefCondition b e.inn.mag d) (s.effSefDelay b) x.sef
  ({ x with phi := phi.1, ptoc := ptoc.1, etoc := etoc.1, sef := sef.1 },
   { phi := phi.2, ptoc := ptoc.2, etoc := etoc.2, sef := sef.2 })

/-! ### The protection trip (R34 to R36) -/

/-- The four hand-overs of one protection trip (R34). -/
def State.protectionTrip (s : State) (b : Bay) (cause : TripCause) (o : Operated) (e : BayEval) (d : Direction) : State :=
  let at_ : AtEval := { shots := (s.rcl b).shots, group := s.activeNo, level := s.fru.effective }
  let t := s.setElem b { s.elem b with latch := some cause }
  let t := (t.tripRequest (bayRec b)).hncTrip
  let t := t.tripRecord b cause e d at_
  t.occurWithRecord fTrip (bayMask b) ([byte cause.code, byte o.code] ++ tagBytes e.tag)

/-- The PHI consecutive count of a bay returns to 0 (R26, R33). -/
def State.zeroPhi (s : State) (b : Bay) : State := s.setElem b { s.elem b with phi := 0 }

/-- The PRU takes a bay evaluation (R26, R27, R34, R36). -/
def State.pruEvaluate (s : State) (b : Bay) (e : BayEval) (d : Direction) : State :=
  if s.judges b then
    let r := s.elementStep b e d
    let t := s.setElem b r.1
    match r.2.cause, r.1.latch with
    | some cause, none => t.protectionTrip b cause r.2 e d
    | _, _ => t
  else if s.runs b then s.zeroPhi b
  else s

/-- A bay evaluation is handed on: to the REC, to the EFU, and with its judgement to the PRU (R11, R112, R148). -/
def State.takeBayEval (s : State) (b : Bay) (e : BayEval) : State :=
  let t := { s with recd := { s.recd with
    latest := s.recd.latest.put b
      (some { tag := e.tag, ia := e.ia.mag, ib := e.ib.mag, ic := e.ic.mag, inn := e.inn.mag, i0 := e.i0.mag }) } }
  let d := t.judgeDirection b e
  (t.setDir b d).pruEvaluate b e d

/-- The four values of a bay that R38 puts to 0. -/
def State.zeroElements (s : State) (b : Bay) : State :=
  s.setElem b { s.elem b with ptoc := 0, etoc := 0, phi := 0, sef := 0 }

/-! ### The neutral-voltage element (R119 to R125) -/

/-- The NVD element takes new values; a change of its state is handed to the HNC at that moment (R123). -/
def State.changeNvd (s : State) (v : Nvd) : State :=
  let old := s.efu.nvd.state
  let t := s.setNvd v
  if old = v.state then t else t.hncNvd old v.state

/-- The detail of NVD_DISPLACED and NVD_NORMAL (R123; chapter 10). -/
def nvdDetail (tag : Pos) (vn count : Nat) (group : GroupNo) : List Byte :=
  tagBytes tag ++ bytes16 vn ++ bytes16 count ++ [byte group.val]

/-- TIMING with a timing count, judged against the NVD delay (R120). -/
def State.nvdTiming (s : State) (e : BusEval) (count : Nat) : State :=
  let g := s.activeGroup
  let group := s.activeNo
  let t := if s.efu.nvd.state == .timing then s else s.changeNvd { state := .timing, timing := count, confirm := 0 }
  let t := t.setNvd { t.efu.nvd with timing := count }
  if g.nvdDelay ≤ count then
    (t.changeNvd { state := .displaced, timing := count, confirm := 0 }).occur fNvdDisplaced 0
      (nvdDetail e.tag e.vn.mag count group)
  else t

/-- The NVD element at a bus evaluation (R119 to R121). -/
def State.nvdEvaluate (s : State) (e : BusEval) : State :=
  if s.protecting && s.groupValid s.activeNo then
    let g := s.activeGroup
    let group := s.activeNo
    let v := s.efu.nvd
    let vn := e.vn.mag
    match v.state with
    | .normal => if vn < g.nvdPickup then s else s.nvdTiming e 1
    | .timing =>
      if vn < g.nvdPickup then s.changeNvd Nvd.cold else s.nvdTiming e (satInc 2000 v.timing)
    | .displaced =>
      if vn < g.nvdDropout then
        let c := satInc 200 v.confirm
        if g.nvdConfirm ≤ c then
          (s.changeNvd Nvd.cold).occur fNvdNormal 0 (nvdDetail e.tag vn c group)
        else s.setNvd { v with confirm := c }
      else s.setNvd { v with confirm := 0 }
    | .unknown => s
  else s

/-- The bus source has left VALID: the element enters UNKNOWN (R122). -/
def State.nvdLost (s : State) : State :=
  if s.protecting then s.changeNvd { state := .unknown, timing := 0, confirm := 0 } else s

/-- The bus source has entered VALID: an UNKNOWN element enters NORMAL (R122). -/
def State.nvdFound (s : State) : State :=
  if s.protecting && s.efu.nvd.state == .unknown then s.changeNvd Nvd.cold else s

/-- A bus evaluation is handed on: it replaces the latest bus evaluation, and the NVD element runs (R11, R14, R119). -/
def State.takeBusEval (s : State) (e : BusEval) : State :=
  ({ s with meu := { s.meu with latestBus := some e } } : State).nvdEvaluate e

end Sys2Proof.Machine
end

