-- ==== Sys2Proof/Machine/Measure.lean ====
section
/-! DEFINITION. The Measurement Unit (chapter 1): SAMPLE frames, continuity, entering and leaving VALID, instants and the
history ring, evaluations, phasors and magnitudes. -/

namespace Sys2Proof.Machine

/-! ### Phasors and magnitudes (R12, R13) -/

/-- The coefficients (c_k, s_k) of the first quarter, k = 0 to 7 (chapter 1, The phasor). -/
def quarter : List (Int × Int) :=
  [(4096, 0), (4017, 799), (3784, 1567), (3406, 2276), (2896, 2896), (2276, 3406), (1567, 3784), (799, 4017)]

/-- The coefficients (c_n, s_n) of sample number n: a quarter turn on takes (c, s) to (-s, c). -/
def coefficient (n : Nat) : Int × Int :=
  let q := quarter.getD (n % 8) (0, 0)
  match n / 8 with
  | 0 => q
  | 1 => (-q.2, q.1)
  | 2 => (-q.1, -q.2)
  | _ => (q.2, -q.1)

/-- A division rounded to nearest with halves away from zero (R12). -/
def divNearest (x : Int) (d : Nat) : Int :=
  if 0 ≤ x then (((x.natAbs + d / 2) / d : Nat) : Int) else -(((x.natAbs + d / 2) / d : Nat) : Int)

/-- The sample number of a position. -/
def sampleNo (p : Pos) : Nat := p.val % 32

/-- A raw sum of a window over one channel with one of the two coefficients (R12). -/
def rawSum (channel : Quad → Int) (part : Int × Int → Int) (w : List Sample) : Int :=
  w.foldl (fun acc x => acc + channel x.vals * part (coefficient (sampleNo x.pos))) 0

/-- The square root rounded down and limited to 65535, one binary digit at a time from the highest (R13). -/
def sqrtFloor (n : Nat) : Nat :=
  [32768, 16384, 8192, 4096, 2048, 1024, 512, 256, 128, 64, 32, 16, 8, 4, 2, 1].foldl
    (fun r d => if (r + d) * (r + d) ≤ n then r + d else r) 0

/-- A phasor with its magnitude (R13). -/
def measOf (re im : Int) : Meas := { re := re, im := im, mag := sqrtFloor (re * re + im * im).toNat }

/-- The phasor and magnitude of one channel of a window (R12, R13). -/
def phasor (channel : Quad → Int) (w : List Sample) : Meas :=
  measOf (divNearest (rawSum channel Prod.fst w) 65536) (divNearest (-(rawSum channel Prod.snd w)) 65536)

/-- The calculated residual of a sample, saturated (R10). -/
def residual (q : Quad) : Int := max (-32767) (min 32767 (q.a + q.b + q.c))

/-- The evaluation of a bay source's windows (R11). -/
def bayEvalOf (tag : Pos) (w : List Sample) : BayEval :=
  { tag := tag, ia := phasor Quad.a w, ib := phasor Quad.b w, ic := phasor Quad.c w, inn := phasor Quad.n w,
    i0 := phasor residual w, anyHeld := w.any (fun x => x.held) }

/-- The evaluation of a bus source's windows (R11). -/
def busEvalOf (tag : Pos) (w : List Sample) : BusEval :=
  { tag := tag, va := phasor Quad.a w, vb := phasor Quad.b w, vc := phasor Quad.c w, vn := phasor Quad.n w }

/-- Sample numbers 7, 15, 23 and 31 (chapter 1, Evaluation points and tags). -/
def isPoint (p : Pos) : Bool := p.val % 8 == 7

/-! ### Instants and the history ring (R15 to R17) -/

/-- A list that holds at most a number of items, its oldest first, takes one more. -/
def pushLimited {α : Type} (limit : Nat) (l : List α) (x : α) : List α := newest limit (l ++ [x])

def State.setHistory (s : State) (b : Bay) (l : List Instant) : State :=
  { s with meu := { s.meu with history := s.meu.history.put b l } }

def State.setWaiting (s : State) (b : Bay) (l : List Instant) : State :=
  { s with meu := { s.meu with waiting := s.meu.waiting.put b l } }

/-- The channels running on a bay. -/
def State.runningOn (s : State) (b : Bay) : List Chan :=
  allChans.filter (fun k => (s.chan k).state == .running && (s.chan k).bay == b)

/-- A completed instant goes to the history ring and to the REC, for the channels that are running on the bay at the hand-over
(R15, R160): each takes its row and its end is judged before the next, 0 to 3 (log entry 38).  A channel that the end of one of
these triggers finds the instant in the ring already (R159). -/
def State.complete (s : State) (b : Bay) (i : Instant) : State :=
  let t := s.setHistory b (pushLimited Config.historyLength (s.meu.history.look b) i)
  forEach (s.runningOn b) (fun k u => u.appendRow b i k) t

/-- An instant joined with the bus sample of the same numbers. -/
def Instant.withBus (i : Instant) (x : Sample) : Instant := { i with held := i.held || x.held, bus := some x.vals }

/-- The VALID source of a role. -/
def State.validSource (s : State) (r : Role) : Option SrcIx :=
  allSources.find? (fun e => (s.src e).inUse && (s.src e).role == some r && (s.ctx e).state == .valid)

/-- The sample of a position in a window. -/
def sampleAt (p : Pos) (w : List Sample) : Option Sample := w.find? (fun x => x.pos == p)

/-- An instant joins the waiting list; where the list then holds 9, its oldest is completed without bus values (R15). -/
def State.wait (s : State) (b : Bay) (i : Instant) : State :=
  let l := s.meu.waiting.look b ++ [i]
  if Config.waitingLength < l.length then
    match l with
    | first :: rest => (s.setWaiting b rest).complete b first
    | [] => s
  else s.setWaiting b l

/-- Every waiting instant of a bay is completed without bus values, oldest first (R17). -/
def State.flushWaiting (s : State) (b : Bay) : State :=
  forEach (s.meu.waiting.look b) (fun j u => u.complete b j) (s.setWaiting b [])

/-- An instant is completed at once.  Those of the bay that still wait are older, and are completed before it without bus values,
as R16 does it, so that the instants of a bay are completed in order of position (R15; log entry 33). -/
def State.completeNow (s : State) (b : Bay) (i : Instant) : State := (s.flushWaiting b).complete b i

/-- The instant of a sample appended to a VALID bay source (R15). -/
def State.formInstant (s : State) (b : Bay) (x : Sample) : State :=
  let i : Instant := { pos := x.pos, held := x.held, bay := x.vals, bus := none }
  match s.validSource .bus with
  | none => s.completeNow b i
  | some e =>
    match sampleAt x.pos (s.ctx e).window with
    | some y => s.completeNow b (i.withBus y)
    | none => s.wait b i

/-- A bus sample completes the waiting instant of a bay with its numbers, after those ahead of it (R16). -/
def State.completeWaiting (s : State) (x : Sample) (b : Bay) : State :=
  let l := s.meu.waiting.look b
  match l.dropWhile (fun i => i.pos != x.pos) with
  | [] => s
  | i :: rest =>
    let t := s.setWaiting b rest
    let t := forEach (l.takeWhile (fun i => i.pos != x.pos)) (fun j u => u.complete b j) t
    t.complete b (i.withBus x)

/-! ### Entering and leaving VALID (R8, R9) -/

inductive StaleCause where
  | missing | silence
  deriving DecidableEq, Repr

def StaleCause.code : StaleCause → Nat
  | .missing => 1 | .silence => 2

/-- The bay mask of a source's occurrences (R9). -/
def roleMask : Option Role → BitVec 9
  | some (.bay b) => bayMask b
  | _ => 0

def roleByte (r : Option Role) : Byte := byte ((r.map Role.code).getD 255)

/-- A bay's history ring and waiting list are emptied (R1, R17). -/
def State.emptyBay (s : State) (b : Bay) : State := (s.setHistory b []).setWaiting b []

/-- The loss of a source is handed to its consumers (R8, R17, R115, R122).  At a loss of the bus the waiting lists are completed bay
by bay, 0 to 7 (log entry 36). -/
def State.leaveValid (s : State) : Option Role → State
  | some (.bay b) => ((((s.zeroPhi b).setDir b .unavailable).judgePresence (bayRec b)).recLostBay b).emptyBay b
  | some .bus =>
    let t := { s with meu := { s.meu with latestBus := none } }
    let t := { t with efu := { t.efu with direction := t.efu.direction.each (fun _ => .unavailable) } }
    forEach allBays (fun b u => u.flushWaiting b) t.nvdLost
  | none => s

/-- The entry of a source to VALID is handed on, and SOURCE_VALID occurs (R8, R9). -/
def State.enterValid (s : State) (e : SrcIx) (role : Option Role) : State :=
  let t :=
    match role with
    | some (.bay b) => s.judgePresence (bayRec b)
    | some .bus => s.nvdFound
    | none => s
  t.occur fSourceValid (roleMask role) [byte e.val, roleByte role]

/-- A source has gone STALE: the loss is handed on, and SOURCE_STALE occurs (R6 to R9). -/
def State.becomeStale (s : State) (e : SrcIx) (cause : StaleCause) : State :=
  let role := (s.src e).role
  (s.leaveValid role).occur fSourceStale (roleMask role) [byte e.val, roleByte role, byte cause.code]

/-! ### Appended samples -/

/-- The evaluation at an evaluation point (R11). -/
def State.evaluateAt (s : State) (e : SrcIx) (x : Sample) : State :=
  if isPoint x.pos then
    let c := s.ctx e
    let t := s.setCtx e { c with lastTag := some x.pos }
    match (s.src e).role with
    | some (.bay b) => t.takeBayEval b (bayEvalOf x.pos c.window)
    | some .bus => t.takeBusEval (busEvalOf x.pos c.window)
    | none => t
  else s

/-- A sample that now stands in a VALID source's windows goes through the history and the evaluation rules.  A bus sample completes
the waiting instants bay by bay, 0 to 7 (R16; log entry 36). -/
def State.afterAppend (s : State) (e : SrcIx) (x : Sample) : State :=
  let t :=
    match (s.src e).role with
    | some (.bay b) => s.formInstant b x
    | some .bus => forEach allBays (fun b u => u.completeWaiting x b) s
    | none => s
  t.evaluateAt e x

/-- A sample is appended to the windows of a VALID source (R6, R10). -/
def State.appendSample (s : State) (e : SrcIx) (x : Sample) : State :=
  let c := s.ctx e
  (s.setCtx e { c with window := pushLimited Config.windowLength c.window x }).afterAppend e x

/-! ### Continuity (R4 to R7) -/

/-- The samples that stand for skipped ones: held, with the last appended values, after the last position (R6). -/
def heldSamples (from_ : Pos) (vals : Quad) (n : Nat) : List Sample :=
  (List.range n).map (fun k => { pos := from_ + ⟨(k + 1) % 8192, Nat.mod_lt _ (by decide)⟩, held := true, vals := vals })

/-- The last appended values of a window. -/
def lastVals (w : List Sample) (d : Quad) : Quad := (w.getLast?.map (fun x => x.vals)).getD d

/-- A frame given to an ABSENT source (R4). -/
def State.firstFrame (s : State) (e : SrcIx) (p : Pos) (good : Bool) (q : Quad) : State :=
  let c := s.ctx e
  s.setCtx e
    { c with state := .filling, lastPos := some p, fill := if good then 1 else 0,
             window := if good then [{ pos := p, held := false, vals := q }] else [] }

/-- A frame given to a FILLING or STALE source (R5).  SOURCE_VALID occurs before the instant of the sample that completes the
refill is formed (log entry 24). -/
def State.refill (s : State) (e : SrcIx) (last p : Pos) (good : Bool) (q : Quad) : State :=
  let c := s.ctx e
  let x : Sample := { pos := p, held := false, vals := q }
  if p = last then s
  else if !good then s.setCtx e { c with lastPos := some p, fill := 0, window := [] }
  else
    let on := decide (p - last = 1)
    let fill := if on then c.fill + 1 else 1
    let w := if on then pushLimited Config.windowLength c.window x else [x]
    if Config.windowLength ≤ fill then
      let t := s.setCtx e
        { c with state := .valid, lastPos := some p, missing := 0, fill := Config.windowLength, window := w,
                 silence := some Config.sourceSilenceMs }
      (t.enterValid e (t.src e).role).afterAppend e x
    else s.setCtx e { c with lastPos := some p, fill := fill, window := w }

/-- A frame given to a VALID source (R6). -/
def State.validFrame (s : State) (e : SrcIx) (last p : Pos) (good : Bool) (q : Quad) : State :=
  let c := s.ctx e
  let x : Sample := { pos := p, held := false, vals := q }
  let step := (p - last).val
  if step = 0 ∨ 4096 ≤ step then s
  else
    let g := step - 1
    let t := c.missing + g + (if good then 0 else 1)
    if 3 ≤ t then
      (s.setCtx e
        { c with state := .stale, lastPos := some p, missing := 0, silence := none, fill := if good then 1 else 0,
                 window := if good then [x] else [] }).becomeStale e .missing
    else
      let hold := lastVals c.window q
      let u := s.setCtx e
        { c with lastPos := some p, missing := if good then 0 else t, silence := some Config.sourceSilenceMs }
      forEach (heldSamples last hold g ++ [if good then x else { x with held := true, vals := hold }])
        (fun y v => v.appendSample e y) u

/-- A frame given to a source is judged for continuity (R4 to R6). -/
def State.giveSample (s : State) (e : SrcIx) (p : Pos) (good : Bool) (q : Quad) : State :=
  let c := s.ctx e
  match c.state, c.lastPos with
  | .valid, some last => s.validFrame e last p good q
  | .filling, some last => s.refill e last p good q
  | .stale, some last => s.refill e last p good q
  | _, _ => s.firstFrame e p good q

/-- A source's silence has run out (R7). -/
def State.sourceSilent (s : State) (e : SrcIx) : State :=
  let c := s.ctx e
  (s.setCtx e { c with state := .stale, window := [], missing := 0, fill := 0, silence := none }).becomeStale e .silence

/-! ### SAMPLE frames (R3) -/

/-- A sample as a SAMPLE payload of the right length spells it; none where the sample number is above 31 (R3). -/
def parseSample : List Byte → Option (Pos × Bool × Quad)
  | [c, n, quality, a1, a0, b1, b0, c1, c0, n1, n0] =>
    if h : n.toNat < 32 then
      some (⟨c.toNat * 32 + n.toNat, by have := c.isLt; omega⟩, quality == 1,
        { a := int16 a1 a0, b := int16 b1 b0, c := int16 c1 c0, n := int16 n1 n0 })
    else none
  | _ => none

/-- The MEU takes or ignores a SAMPLE frame (R3). -/
def State.meuSample (s : State) (src : Byte) (payload : List Byte) : State :=
  match s.findSource (fun x => x.addr == some src.toNat), parseSample payload with
  | some e, some (p, good, q) => s.giveSample e p good q
  | _, _ => s

/-- A source is started afresh by a write to its entry, which changed its old role and use to the new ones (R1). -/
def State.startAfresh (s : State) (e : SrcIx) (oldRole : Option Role) : State :=
  let wasValid := (s.ctx e).state == .valid
  let newRole := (s.src e).role
  let t := s.setCtx e SourceCtx.fresh
  let t := if wasValid then t.leaveValid oldRole else t
  let clear (r : Option Role) (t : State) : State :=
    match r with
    | some (.bay b) => t.emptyBay b
    | some .bus => { t with meu := { t.meu with latestBus := none } }
    | none => t
  clear newRole (clear oldRole t)

end Sys2Proof.Machine
end

