-- ==== Sys2Proof/Machine/Ring.lean ====
section
/-! DEFINITION. The Ring Interface Unit (chapter 10): frames arriving on IN, classification, the queues, the arbiter of OUT,
loss of IN, and the capture blocks the Recorder places (R163). -/

namespace Sys2Proof.Machine

/-! ### Arriving on IN (R176 to R180) -/

/-- The IN silence timer is refreshed by every frame that arrives (R176, R180). -/
def State.refreshIn (s : State) : State :=
  { s with riu := { s.riu with inUp := true, inTimer := some Config.inSilenceMs, lastIn := s.stamp } }

/-- A frame has been dropped at a full queue: the overrun count rises and RING_OVERRUN occurs (R178, R179; no occurrence in
BYPASS, R181). -/
def State.overrun (s : State) (what : Byte) : State :=
  ({ s with riu := { s.riu with overrun := satInc 65535 s.riu.overrun } } : State).occur fRingOverrun 0 [what]

/-- A frame joins the tail of the forward queue, or is dropped (R179). -/
def State.forward (s : State) (f : Frame) : State :=
  if s.riu.fwd.length < Config.forwardQueueSize then { s with riu := { s.riu with fwd := s.riu.fwd ++ [f] } }
  else s.overrun 1

/-- The op words of a request's bytes. -/
def opWords : List Byte → Option (List Word32)
  | [] => some []
  | a :: b :: c :: d :: rest => (opWords rest).map (fun l => word32 a b c d :: l)
  | _ => none

/-- A consumed request whose form is good (R178). -/
def parseRequest (src : Byte) : List Byte → Option Request
  | t1 :: t0 :: flags :: count :: rest =>
    match opWords rest with
    | some ops =>
      if 1 ≤ count.toNat ∧ count.toNat ≤ 32 ∧ ops.length = count.toNat then
        some { tag := t1 ++ t0, stop := flags.getLsbD 0, ops := ops, src := src }
      else none
    | none => none
  | _ => none

/-- A consumed MGMT-REQ is judged for form and offered to the request queue (R178). -/
def State.offerRequest (s : State) (f : Frame) : State :=
  match parseRequest f.src f.payload with
  | none => s
  | some r =>
    if s.mgu.queue.length < Config.requestQueueSize then { s with mgu := { s.mgu with queue := s.mgu.queue ++ [r] } }
    else s.overrun 2

/-- What the RIU does with a frame whose check is good (R177). -/
inductive FrameAction where
  | strip | consume | discard | toMeu | toBcu | pass
  deriving DecidableEq, Repr

/-- The first line of the table of R177 that fits a frame. -/
def State.classify (s : State) (f : Frame) : FrameAction :=
  if f.src == s.ownByte then .strip
  else if f.dest == s.ownByte && f.kind == kindRequest then .consume
  else if f.dest == s.ownByte then .discard
  else if f.kind == kindSample && f.dest == broadcast then .toMeu
  else if f.kind == kindBaystat && f.dest == broadcast then .toBcu
  else .pass

/-- A frame with a good check is stripped, consumed, discarded, used or forwarded (R177).  A frame that is both used
and forwarded is used first: one that the forward queue drops has already been used (R179). -/
def State.actOn (s : State) (f : Frame) : State :=
  match s.classify f with
  | .strip => s
  | .consume => s.offerRequest f
  | .discard => s
  | .toMeu => (s.meuSample f.src f.payload).forward f
  | .toBcu => (s.bcuBaystat f.src f.payload).forward f
  | .pass => s.forward f

/-- A frame is discarded for its check or its length (R176). -/
def State.checkFailure (s : State) : State :=
  { s with riu := { s.riu with checkFail := satInc 65535 s.riu.checkFail } }

/-- A frame arrives on IN (R176, and R181 in BYPASS). -/
def State.receive (s : State) (f : Frame) : State :=
  let t := s.refreshIn
  if t.mgu.part == .bypass then t.forward f
  else if frameGood f then t.actOn f
  else t.checkFailure

/-- IN has been silent for 10 ms (R180; no occurrence in BYPASS). -/
def State.inSilent (s : State) : State :=
  ({ s with riu := { s.riu with inUp := false, inTimer := none } } : State).occur fRingInLoss 0 (bytes32 s.riu.lastIn)

/-! ### Capture blocks (R163) -/

/-- The eight values of a row; absent bus values are 0. -/
def rowValues (i : Instant) : List Int :=
  let v := i.bus.getD { a := 0, b := 0, c := 0, n := 0 }
  [i.bay.a, i.bay.b, i.bay.c, i.bay.n, v.a, v.b, v.c, v.n]

/-- A capture row's 18 bytes (chapter 10, Station frames). -/
def rowBytes (i : Instant) : List Byte :=
  [byte (sampleNo i.pos), byte ((if i.held then 1 else 0) + (if i.bus.isNone then 2 else 0))] ++
    (rowValues i).flatMap bytesInt16

/-- The CAPTURE-BLOCK frame of the next rows of a readout (R163, R184). -/
def State.blockFrame (s : State) (r : Readout) (n : Nat) : Frame :=
  buildFrame r.dest s.ownByte kindCapture
    ([byte r.chan.val] ++ bytes16 r.next ++ [byte n] ++ (((s.chan r.chan).rows.drop r.next).take n).flatMap rowBytes)

/-- Where the capture-block queue has a free place, the next block of the readout that started earliest is placed, and the
readout ends with its last block (R163). -/
def State.placeBlock (s : State) : State :=
  match s.recd.readouts with
  | [] => s
  | r :: rest =>
    if s.riu.capQueue.length < Config.captureQueueSize then
      let n := min Config.blockRows r.left
      let more := if n < r.left then [{ r with next := r.next + n, left := r.left - n }] else []
      { s with recd := { s.recd with readouts := more ++ rest },
               riu := { s.riu with capQueue := s.riu.capQueue ++ [s.blockFrame r n] } }
    else s

/-- A channel has a readout in progress. -/
def State.reading (s : State) (k : Chan) : Bool := s.recd.readouts.any (fun r => r.chan == k)

/-! ### The arbiter of OUT (R182) -/

/-- The lowest slot whose out-place holds a frame, with the frame. -/
def State.firstOutPlace (s : State) : Option (Rec × Frame) :=
  (allRecs.filterMap (fun n => (s.riu.outPlaces.look n).map (fun f => (n, f)))).head?

/-- OUT begins a frame. -/
def State.send (s : State) (f : Frame) : State := { s with riu := { s.riu with sending := some f } }

/-- The event frame has been taken: its factor is marked reported and the slot is judged again (R172). -/
def State.eventTaken (s : State) (f : Factor) : State := (s.setFac f { s.fac f with reported := true }).judgeOutSlot

/-- OUT is free, and the arbiter takes one frame by the order of R182; with no frame waiting OUT stays free. -/
def State.takeOut (s : State) : State :=
  match s.firstOutPlace with
  | some (n, f) => (s.setOutPlace n none).send f
  | none =>
    match s.riu.fwd with
    | f :: rest => ({ s with riu := { s.riu with fwd := rest } } : State).send f
    | [] =>
      match s.riu.replies with
      | f :: rest => ({ s with riu := { s.riu with replies := rest } } : State).send f
      | [] =>
        match s.evu.outSlot with
        | some (g, f) => (s.send f).eventTaken g
        | none =>
          match s.riu.capQueue with
          | f :: rest => (({ s with riu := { s.riu with capQueue := rest } } : State).send f).placeBlock
          | [] => { s with riu := { s.riu with sending := none } }

end Sys2Proof.Machine
end

