-- ==== Sys2Proof/Machine/Manage.lean ====
section
/-! DEFINITION. Management requests (chapter 11, R187 to R190): starting a request, carrying out one op of it, STOP_ON_REFUSAL,
the data blocks, and the reply. -/

namespace Sys2Proof.Machine

/-- What an op answers: its result code, its value, and the data block it appends, if any (R187). -/
structure Answer where
  code  : ResultCode
  value : Word32 := 0
  block : Option (List Byte) := none
  deriving DecidableEq, Repr

/-- OK with a value. -/
def okValue (v : Word32) : Answer := { code := .ok, value := v }

/-- OK with value 0. -/
def okAnswer : Answer := { code := .ok }

/-- A refusal with value 0. -/
def refuse (c : ResultCode) : Answer := { code := c }

/-! ### The start of a request (R187) -/

/-- The request at the head of the queue may start: none is in progress and a reply slot is empty (R187). -/
def State.canStart (s : State) : Bool :=
  s.mgu.cur.isNone && decide (s.riu.replies.length < Config.replySlots) && !s.mgu.queue.isEmpty

/-- A request as it starts: no widen pending, the bay context 0. -/
def Request.start (r : Request) : Progress :=
  { tag := r.tag, stop := r.stop, src := r.src, opCount := r.ops.length, ops := r.ops, entries := [], blocks := [],
    widen := none, context := 0 }

def State.startRequest (s : State) : State :=
  if s.canStart then
    match s.mgu.queue with
    | r :: rest => { s with mgu := { s.mgu with queue := rest, cur := some r.start } }
    | [] => s
  else s

/-! ### The reply (R184, R187, R188) -/

def ReplyEntry.bytes (e : ReplyEntry) : List Byte := byte e.code.code :: bytes32 e.value

def ReplyBlock.frameBytes (b : ReplyBlock) : List Byte := byte b.op :: bytes16 b.bytes.length ++ b.bytes

/-- The reply's payload (chapter 10, Management frames); the request result is 1, WIDEN_DANGLING, while a widen is
pending. -/
def Progress.payload (p : Progress) : List Byte :=
  [p.tag.extractLsb' 8 8, p.tag.extractLsb' 0 8, if p.widen.isSome then 1 else 0, byte p.opCount] ++
    p.entries.flatMap ReplyEntry.bytes ++ p.blocks.flatMap ReplyBlock.frameBytes

/-- The reply is placed in the reserved slot and the request ends (R187). -/
def State.placeReply (s : State) (p : Progress) : State :=
  let f := buildFrame p.src s.ownByte kindReply p.payload
  { s with mgu := { s.mgu with cur := none }, riu := { s.riu with replies := s.riu.replies ++ [f] } }

/-- The payload bytes of a reply: 4 + 5 per op of the request + 3 and its contents for each data block (R184). -/
def Progress.size (p : Progress) : Nat :=
  4 + 5 * p.opCount + (p.blocks.map (fun b => 3 + b.bytes.length)).sum

/-- An op whose data block would take the payload past 1024 bytes is refused BAD_ARG and appends none (R184). -/
def Progress.limit (p : Progress) (a : Answer) : Answer :=
  match a.block with
  | some bytes => if Config.payloadLimit < p.size + 3 + bytes.length then refuse .badArg else a
  | none => a

/-- Every op still to come answers NOT_ATTEMPTED with value 0 (R188, R195). -/
def Progress.abandon (p : Progress) : Progress :=
  { p with ops := [], entries := p.entries ++ p.ops.map (fun _ => { code := .notAttempted, value := 0 }) }

/-- The op at the head of a request is answered; after a refusal under STOP_ON_REFUSAL the rest is abandoned (R188). -/
def Progress.answered (p : Progress) (a : Answer) : Progress :=
  let a := p.limit a
  let q : Progress :=
    { p with ops := p.ops.drop 1, entries := p.entries ++ [{ code := a.code, value := a.value }],
             blocks := p.blocks ++ (a.block.map (fun b => { op := p.entries.length, bytes := b })).toList }
  if p.stop && a.code != .ok then q.abandon else q

/-- The request goes on, or ends after its last op (R187). -/
def State.goOn (s : State) (p : Progress) : State := if p.ops.isEmpty then s.placeReply p else s.setCur (some p)

/-- The op at the head of the request in progress has been carried out with an answer. -/
def State.opDone (s : State) (a : Answer) : State :=
  match s.mgu.cur with
  | some p => s.goOn (p.answered a)
  | none => s

/-! ### Carrying out one op (R188 to R190) -/

/-- The request in progress, where the op at its head asks for a command. -/
def State.asked (s : State) (c : Instr) : Option Progress :=
  match s.mgu.cur with
  | some p =>
    match p.ops with
    | w :: _ => if opMatches c w then some p else none
    | [] => none
  | none => none

/-- An op that takes no immediate is carried out: with the bay context it changes the state and answers.  A command that the
request in progress does not ask for next changes nothing (log entry 3). -/
def State.runOp (s : State) (c : Instr) (body : Rec → State → State × Answer) : State :=
  match s.asked c with
  | some p =>
    let r := body p.context s
    r.1.opDone r.2
  | none => s

/-- An op that takes an immediate is carried out: it consumes the pending widen, and its value is the widen above its
immediate (R189). -/
def State.runImm (s : State) (c : Instr) (imm : BitVec 12) (body : Word32 → Rec → State → State × Answer) : State :=
  match s.asked c with
  | some p =>
    let r := body (widened p.widen imm) p.context (s.setCur (some { p with widen := none }))
    r.1.opDone r.2
  | none => s

/-! ### The MGU's own ops (R189, R190, R191) -/

/-- BAY_CONTEXT (R190). -/
def State.opContext (v : Word32) (_ : Rec) (s : State) : State × Answer :=
  match index? 9 v.toNat, s.mgu.cur with
  | some n, some p => (s.setCur (some { p with context := n }), okValue v)
  | _, _ => (s, refuse .badArg)

/-- WIDEN (R189). -/
def State.opWiden (target imm : BitVec 12) (_ : Rec) (s : State) : State × Answer :=
  let w := widenValue target imm
  match s.mgu.cur with
  | some p => (s.setCur (some { p with widen := some w }), okValue (w.zeroExtend 32))
  | none => (s, okValue (w.zeroExtend 32))

/-- An op code the table does not give (R188). -/
def State.opUnknown (_ : Rec) (s : State) : State × Answer := (s, refuse .badOp)

end Sys2Proof.Machine
end

