-- ==== Sys2Proof/Machine/Tables.lean ====
section
/-! DEFINITION. Writes to the tables (R186, R191): each table's own judgement of a WRITE in the order its chapter gives, and
what an accepted write does. -/

namespace Sys2Proof.Machine

/-- A write's answer: the state after it and its result code; a WRITE answers with value 0 (R191). -/
abbrev Written := State × ResultCode

/-- A value that names yes or no (log entry 13). -/
def yesNo (v : Nat) : Option Bool :=
  match v with
  | 0 => some false
  | 1 => some true
  | _ => none

/-- A value that names an index or NONE, coded 255. -/
def indexOrNone (n v : Nat) : Option (Option (Fin n)) :=
  if v = 255 then some none
  else match index? n v with
    | some i => some (some i)
    | none => none

def inRange (lo hi v : Nat) : Bool := decide (lo ≤ v) && decide (v ≤ hi)

/-- A write is refused with a code and changes nothing, or is stored. -/
def storeUnless (s : State) (refusal : Option ResultCode) (stored : State) : Written :=
  match refusal with
  | some c => (s, c)
  | none => (stored, .ok)

/-! ### Table 1: the source table (R1) -/

/-- A test of another in-use entry of the source table. -/
def State.otherInUse (s : State) (e : SrcIx) (p : SourceEntry → Bool) : Bool :=
  allSources.any (fun f => f != e && (s.src f).inUse && p (s.src f))

/-- The role a value names: 0 to 7 BAY n, 8 BUS. -/
def roleOf (v : Nat) : Option Role :=
  match index? 8 v with
  | some b => some (.bay b)
  | none => if v = 8 then some .bus else none

/-- The entry a write would store, or the code that refuses it, by the rows of R1. -/
def State.sourceWrite (s : State) (e : SrcIx) (field v : Nat) : Except ResultCode SourceEntry :=
  let x := s.src e
  match field with
  | 0 =>
    if v = 0 ∨ 62 < v then .error .badArg
    else if (x.inUse && s.otherInUse e (fun y => y.addr == some v)) || v == s.riu.own.toNat then .error .conflict
    else .ok { x with addr := some v }
  | 1 =>
    match roleOf v with
    | none => .error .badArg
    | some r =>
      if x.inUse && s.otherInUse e (fun y => y.role == some r) then .error .conflict else .ok { x with role := some r }
  | 2 =>
    match yesNo v with
    | none => .error .badArg
    | some false => .ok { x with inUse := false }
    | some true =>
      if x.addr.isNone || x.role.isNone then .error .badArg
      else if s.otherInUse e (fun y => y.addr == x.addr || y.role == x.role) then .error .conflict
      else .ok { x with inUse := true }
  | _ => .error .badArg

/-- An accepted source write is stored, and the source is started afresh where R1 says so. -/
def State.storeSource (s : State) (e : SrcIx) (x : SourceEntry) : State :=
  let old := s.src e
  let t := { s with meu := { s.meu with table := s.meu.table.put e x } }
  if old != x && (old.inUse || x.inUse) then t.startAfresh e old.role else t

def State.writeTable1 (s : State) (addr : BitVec 8) (v : Nat) : Written :=
  match addrIndex addr 16 12 with
  | none => (s, .badArg)
  | some e =>
    if !writableAddr 1 addr then (s, .badArg)
    else if s.protecting then (s, .state)
    else match s.sourceWrite e (addrField addr 16) v with
      | .error c => (s, c)
      | .ok x => (s.storeSource e x, .ok)

/-! ### Table 2: the capability table (R41, R42) -/

/-- A write of a record's ring address conflicts with another record or with the part's own address. -/
def State.addrTaken (s : State) (n : Rec) (v : Nat) : Bool :=
  allRecs.any (fun k => k != n && (s.cap k).addr == some v) || v == s.riu.own.toNat

/-- The record a write would store, or the code that refuses it, by the middle rows of R41. -/
def State.capabilityWrite (s : State) (n : Rec) (field v : Nat) : Except ResultCode Capability :=
  let c := s.cap n
  match field, yesNo v with
  | 0, _ =>
    if v = 0 ∨ 62 < v then .error .badArg
    else if s.addrTaken n v then .error .conflict
    else .ok { c with addr := some v }
  | 1, some b => if b && c.addr.isNone then .error .badArg else .ok { c with inService := b }
  | 2, some b => .ok { c with recloseCap := b }
  | 3, some b => .ok { c with sefCap := b }
  | 4, some b => .ok { c with hasLocal := b }
  | 5, some b => .ok { c with hasInterlock := b }
  | 6, some b => .ok { c with hasSpring := b }
  | _, _ => .error .badArg

/-- The bay status starts afresh after a change of the record's ring address (R42).  The spring bit last reported goes with the
old address: it is no until the new one reports (log entry 12). -/
def State.statusAfresh (s : State) (n : Rec) : State :=
  let t := s.storePosition n .unknown
  let t := t.storeSpring n false
  let t := t.setStatus n { t.status n with reported := .unknown, silence := none, springReported := false }
  (t.judgePresence n).storeInputs n false false

/-- A bay is put into or taken out of service (R38, R42, R115). -/
def State.serviceChanged (s : State) (n : Rec) : State :=
  match recBay n with
  | some b =>
    let t := s.zeroElements b
    if (t.cap n).inService then t else t.setDir b .unavailable
  | none => s

/-- The CAPABILITY reason follows the reclose capable field (R42). -/
def State.recloseCapChanged (s : State) (n : Rec) : State :=
  match recBay n with
  | some b => if (s.cap n).recloseCap then s.removeReason b .capability else s.addReason b .capability
  | none => s

/-- The inputs that a record no longer has become no, and the spring input takes its gated value (R42). -/
def State.regateInputs (s : State) (n : Rec) (old new : Capability) : State :=
  let x := s.status n
  let t := s.storeInputs n (if old.hasLocal && !new.hasLocal then false else x.localMode)
    (if old.hasInterlock && !new.hasInterlock then false else x.interlock)
  if old.hasSpring == new.hasSpring then t
  else t.storeSpring n (gatedSpring n new (t.status n).springReported)

/-- An accepted write of a capability record is stored, and a change acts as R42 states. -/
def State.storeCapability (s : State) (n : Rec) (c : Capability) : State :=
  let old := s.cap n
  let t := s.setCap n c
  let t := if old.addr == c.addr then t else t.statusAfresh n
  let t := if old.inService == c.inService then t else t.serviceChanged n
  let t := if old.recloseCap == c.recloseCap then t else t.recloseCapChanged n
  t.regateInputs n old c

/-- The rows of R41 that hold for every write, around a judgement of the field. -/
def State.judgeCapability (s : State) (n : Rec) (r : Except ResultCode Capability) : Written :=
  if s.protecting then (s, .state)
  else match r with
    | .error c => (s, c)
    | .ok c => if (s.slot n).busy then (s, .busy) else (s.storeCapability n c, .ok)

def State.writeTable2 (s : State) (addr : BitVec 8) (v : Nat) (ctx : Rec) : Written :=
  if !writableAddr 2 addr then (s, .badArg)
  else s.judgeCapability ctx
    (if ctx = 8 ∧ 1 < addr.toNat then .error .badArg else s.capabilityWrite ctx addr.toNat v)

/-! ### Table 3: the setting groups (R20) -/

/-- The range of each field of a bay record, in table order (chapter 2, The bay record). -/
def bayFieldOk (k v : Nat) : Bool :=
  match k with
  | 0  => v == 0 || inRange 500 40000 v
  | 1  => inRange 50 20000 v
  | 2  => inRange 0 7 v
  | 3  => inRange 5 150 v
  | 4  => inRange 0 7 v || v == 255
  | 5  => inRange 5 150 v
  | 6  => inRange 20 10000 v
  | 7  => inRange 0 7 v
  | 8  => inRange 5 150 v
  | 9  => inRange 0 7 v || v == 255
  | 10 => inRange 5 150 v
  | 11 => inRange 0 16777216 v
  | 12 => v == 0 || inRange 2 2000 v
  | 13 => inRange 1 12000 v
  | 14 => inRange 0 1 v
  | 15 => inRange 0 1 v
  | 16 => inRange 1 1000 v
  | 17 => inRange 0 4 v
  | 18 => inRange 0 4 v
  | 19 => inRange 0 1 v
  | 20 => inRange 100 180000 v
  | 21 => inRange 100 180000 v
  | 22 => inRange 100 180000 v
  | 23 => inRange 100 180000 v
  | 24 => inRange 1000 600000 v
  | _  => false

/-- The range of each field of the station part, in table order (chapter 2, The station part). -/
def stationFieldOk (k v : Nat) : Bool :=
  match k with
  | 0 => inRange 20 800 v
  | 1 => inRange 1 799 v
  | 2 => inRange 1 2000 v
  | 3 => inRange 1 200 v
  | _ => false

def State.setGroup (s : State) (g : GroupNo) (x : Group) : State :=
  { s with pru := { s.pru with groups := s.pru.groups.put g x } }

/-- A field of a group's bay record is set. -/
def Group.setBay (x : Group) (b : Bay) (k : Fin 25) (v : Nat) : Group :=
  { x with bays := x.bays.put b ((x.bays.look b).put k (some v)) }

/-- A field of a group's station part is set. -/
def Group.setStation (x : Group) (k : Fin 4) (v : Nat) : Group := { x with station := x.station.put k (some v) }

/-- The group with one field set, where the context and the field name one and the value is in its range. -/
def groupWrite (x : Group) (ctx : Rec) (field v : Nat) : Option Group :=
  match recBay ctx with
  | some b => (index? 25 field).bind (fun k => if bayFieldOk field v then some (x.setBay b k v) else none)
  | none => (index? 4 field).bind (fun k => if stationFieldOk field v then some (x.setStation k v) else none)

/-- A write to a setting group.  A value outside its range is refused before a group in use is (log entry 34). -/
def State.writeTable3 (s : State) (addr : BitVec 8) (v : Nat) (ctx : Rec) : Written :=
  match addrIndex addr 32 6 with
  | none => (s, .badArg)
  | some g =>
    match groupWrite (s.pru.groups.look g) ctx (addrField addr 32) v with
    | none => (s, .badArg)
    | some x => if s.groupInUse g then (s, .inUse) else (s.setGroup g x, .ok)

/-! ### Tables 4 and 5: the curves (R22) -/

def State.setCurve (s : State) (c : CurveNo) (x : Curve) : State :=
  { s with pru := { s.pru with curves := s.pru.curves.put c x } }

/-- The curve of an address of either curve table. -/
def curveOf (addr : BitVec 8) : CurveNo := ⟨addr.toNat / 32, by have := addr.isLt; omega⟩

/-- The slot of an address of the points table. -/
def slotOf (addr : BitVec 8) : Fin 16 := ⟨addr.toNat % 16, Nat.mod_lt _ (by decide)⟩

/-- The curve with the count or one point field set, where the value is in its range (R22). -/
def curveWrite (x : Curve) (header : Bool) (addr : BitVec 8) (v : Nat) : Option Curve :=
  if header then
    if addrField addr 32 = 0 && inRange 2 16 v then some { x with count := some v } else none
  else if addrField addr 32 < 16 then
    if inRange 1 2560 v then some { x with m := x.m.put (slotOf addr) (some v) } else none
  else if inRange 1 16777216 v then some { x with inc := x.inc.put (slotOf addr) (some v) }
  else none

def State.writeCurves (s : State) (header : Bool) (addr : BitVec 8) (v : Nat) : Written :=
  let c := curveOf addr
  match curveWrite (s.pru.curves.look c) header addr v with
  | none => (s, .badArg)
  | some x => if s.curveInUse c then (s, .inUse) else (s.setCurve c x, .ok)

/-! ### Table 8: the fire map (R103, R104) -/

def State.setFire (s : State) (l : Level) (x : FireRecord) : State :=
  { s with fru := { s.fru with fireMap := s.fru.fireMap.put l x } }

/-- The fire map record with one field set, where the value is in its range (R103). -/
def fireWrite (x : FireRecord) (field v : Nat) : Option FireRecord :=
  match field with
  | 0 => (indexOrNone 6 v).map (fun g => { x with group := g })
  | 1 => if v ≤ 255 then some { x with mask := BitVec.ofNat 8 v } else none
  | 2 => if v ≤ 4 then some { x with shotCap := v } else none
  | 3 => (yesNo v).map (fun b => { x with fastAll := b })
  | 4 => if v ≤ 12000 then some { x with sefCap := v } else none
  | _ => none

/-- A write of the group of the record in force names a group that is not VALID while the part protects (R103). -/
def State.fireGroupRefused (s : State) (l : Level) (field : Nat) (x : FireRecord) : Bool :=
  field == 0 && l == s.fru.effective && s.protecting &&
    (match x.group with
     | some g => !s.groupValid g
     | none => false)

/-- The derivation after a block mask write, with its FIRE_LEVEL occurrence where a bay's FIRE changed (R104). -/
def State.fireMaskWritten (s : State) : State :=
  let d := s.deriveFire
  if d.2 = 0 then d.1
  else
    let t := d.1
    t.occur fFireLevel (baysMask d.2)
      [byte t.fru.effective.val, byte t.fru.effective.val, byte t.fru.commanded.val, byte t.fru.pinLevel.val,
       byte StackOutcome.unchanged.code]

/-- An accepted fire map write is stored; on the record in force it acts at once (R104). -/
def State.storeFire (s : State) (l : Level) (field : Nat) (x : FireRecord) : State :=
  let t := s.setFire l x
  if l = t.fru.effective then
    match field with
    | 0 => if t.protecting then t.changeStack t.fireStep.1 .fireMapWrite else t
    | 1 => t.fireMaskWritten
    | _ => t.rejudgeWaiting
  else t

def State.writeTable8 (s : State) (addr : BitVec 8) (v : Nat) : Written :=
  match addrIndex addr 32 5 with
  | none => (s, .badArg)
  | some l =>
    let field := addrField addr 32
    match fireWrite (s.fru.fireMap.look l) field v with
    | none => (s, .badArg)
    | some x =>
      if s.fru.seasonLock then (s, .locked)
      else if s.fireGroupRefused l field x then (s, .invalidTable)
      else (s.storeFire l field x, .ok)

/-! ### Table 10: the hunt table (R126) -/

def State.setHuntTable (s : State) (x : HuntTable) : State := s.setHnc { s.hnc with table := x }

/-- The plan position of an address of the hunt table. -/
def planIndex (addr : BitVec 8) : Fin 8 := ⟨(addr.toNat - 16) / 2 % 8, Nat.mod_lt _ (by decide)⟩

/-- An address of the hunt table names a plan bay. -/
def isPlanBay (addr : BitVec 8) : Bool := inRange 16 31 addr.toNat && addr.toNat % 2 == 0

/-- The hunt table with one field set, where the value is in its range (R126). -/
def huntWrite (x : HuntTable) (addr : BitVec 8) (v : Nat) : Option HuntTable :=
  let k := planIndex addr
  let p := x.plan.look k
  match addr.toNat with
  | 0 => (yesNo v).map (fun b => { x with enable := b })
  | 1 => (indexOrNone 6 v).map (fun g => { x with group := g })
  | 2 => if inRange 1000 600000 v then some { x with startDelay := v } else none
  | 3 => if inRange 1000 600000 v then some { x with retestDelay := v } else none
  | 4 => if inRange 1 5 v then some { x with fireLimit := v } else none
  | n =>
    if isPlanBay addr then (indexOrNone 8 v).map (fun b => { x with plan := x.plan.put k { p with bay := b } })
    else if inRange 16 31 n && inRange 500 60000 v then some { x with plan := x.plan.put k { p with dwell := v } }
    else none

/-- Another position of the plan holds the bay (R126). -/
def State.planHolds (s : State) (k : Fin 8) (b : Bay) : Bool :=
  allBays.any (fun j => j != k && (s.hnc.table.plan.look j).bay == some b)

/-- The last three checks of R126. -/
def State.huntWriteRefused (s : State) (addr : BitVec 8) (v : Nat) : Option ResultCode :=
  if !(s.hnc.state == .idle) then some .busy
  else
    match (if isPlanBay addr then index? 8 v else none) with
    | some b =>
      if s.planHolds (planIndex addr) b then some .conflict
      else if s.protecting && !(s.cap (bayRec b)).inService then some .state
      else none
    | none => none

def State.writeTable10 (s : State) (addr : BitVec 8) (v : Nat) : Written :=
  match huntWrite s.hnc.table addr v with
  | none => (s, .badArg)
  | some x => storeUnless s (s.huntWriteRefused addr v) (s.setHuntTable x)

/-! ### Table 12: the segment table (R153) -/

/-- The segment with one field set, where the value is in its range; the two reactances are read as signed numbers
(R153, R189). -/
def segmentWrite (x : Segment) (field : Nat) (v : Word32) : Option Segment :=
  let ok := decide (-32768 ≤ v.toInt) && decide (v.toInt ≤ 32767)
  match field with
  | 0 => (indexOrNone 8 v.toNat).map (fun b => { x with bay := b })
  | 1 => if ok then some { x with xLow := v.toInt } else none
  | 2 => if ok then some { x with xHigh := v.toInt } else none
  | 3 => if v.toNat ≤ 255 then some { x with segLabel := v.toNat } else none
  | _ => none

def segIndex (addr : BitVec 8) : SegIx := ⟨addr.toNat / 8, by have := addr.isLt; omega⟩

def State.writeTable12 (s : State) (addr : BitVec 8) (v : Word32) : Written :=
  let k := segIndex addr
  match segmentWrite (s.recd.segments.look k) (addrField addr 8) v with
  | none => (s, .badArg)
  | some x => ({ s with recd := { s.recd with segments := s.recd.segments.put k x } }, .ok)

/-! ### Table 13: the capture channels (R156) -/

def channelWrite (x : Channel) (field v : Nat) : Option Channel :=
  match field with
  | 0 => (index? 24 v).map (fun f => { x with trigger := f })
  | 1 => (index? 8 v).map (fun b => { x with bay := b })
  | 2 => if v ≤ 4 then some { x with pre := v } else none
  | 3 => if inRange 1 64 v then some { x with length := v } else none
  | 4 => (yesNo v).map (fun b => { x with reportAtEnd := b })
  | _ => none

/-- A write to a capture channel's configuration.  A value outside its range is refused before an ARMED or RUNNING channel is (log
entry 34). -/
def State.writeTable13 (s : State) (addr : BitVec 8) (v : Nat) : Written :=
  match addrIndex addr 16 4 with
  | none => (s, .badArg)
  | some k =>
    let c := s.chan k
    match channelWrite c (addrField addr 16) v with
    | none => (s, .badArg)
    | some x => storeUnless s (if c.state == .armed || c.state == .running then some .state else none) (s.setChan k x)

/-! ### Table 15: the event configuration (R166) -/

def eventWrite (x : FactorRecord) (field v : Nat) : Option FactorRecord :=
  match field with
  | 0 => (yesNo v).map (fun b => { x with enable := b })
  | 1 => if v ≤ 7 then some { x with level := v } else none
  | _ => none

def State.writeTable15 (s : State) (addr : BitVec 8) (v : Nat) : Written :=
  match addrIndex addr 8 24 with
  | none => (s, .badArg)
  | some f =>
    match eventWrite (s.fac f) (addrField addr 8) v with
    | none => (s, .badArg)
    | some x => if s.fac f = x then (s, .ok) else ((s.setFac f x).judgeOutSlot, .ok)

/-! ### WRITE (R186, R191) -/

/-- A WRITE is decoded and judged by the block that owns the target (R186, R191). -/
def State.writeTarget (s : State) (table : Nat) (addr : BitVec 8) (v : Word32) (ctx : Rec) : Written :=
  match table with
  | 1  => s.writeTable1 addr v.toNat
  | 2  => s.writeTable2 addr v.toNat ctx
  | 3  => s.writeTable3 addr v.toNat ctx
  | 4  => s.writeCurves false addr v.toNat
  | 5  => s.writeCurves true addr v.toNat
  | 8  => s.writeTable8 addr v.toNat
  | 10 => s.writeTable10 addr v.toNat
  | 12 => s.writeTable12 addr v
  | 13 => s.writeTable13 addr v.toNat
  | 15 => s.writeTable15 addr v.toNat
  | _  => (s, .badArg)

/-- The answer of a WRITE: its code, with value 0 (R191). -/
def writeAnswer (w : Written) : State × Answer := (w.1, refuse w.2)

/-- A WRITE to a target. -/
def State.opWrite (target : BitVec 12) (v : Word32) (ctx : Rec) (s : State) : State × Answer :=
  writeAnswer (s.writeTarget (targetTable target) (targetAddr target) v ctx)

end Sys2Proof.Machine
end

