-- ==== Sys2Proof/Machine/Control.lean ====
section
/-! DEFINITION. The ops that direct the station: the stack, the fire level, the season lock, the bay switching, breaker fail and
standdown, the hunt (R59, R64, R65, R82, R84 to R86, R90, R97, R98, R106, R108, R130, R142). -/

namespace Sys2Proof.Machine

/-! ### The setting-group stack (R97, R98) -/

/-- SELECT_BASE_GROUP (R97). -/
def State.opSelectBase (v : Word32) (_ : Rec) (s : State) : State × Answer :=
  match index? 6 v.toNat with
  | none => (s, refuse .badArg)
  | some g =>
    if s.groupValid g then (s.changeStack (replaceGroup .base g s.fru.stack) .selectBase, okAnswer)
    else (s, refuse .invalidTable)

/-- PUSH_MANUAL (R98). -/
def State.opPushManual (v : Word32) (_ : Rec) (s : State) : State × Answer :=
  match index? 6 v.toNat with
  | none => (s, refuse .badArg)
  | some g =>
    if s.groupValid g then (s.changeStack (s.placed .manual g) .pushManual, okAnswer)
    else (s, refuse .invalidTable)

/-- POP_MANUAL (R98). -/
def State.opPopManual (_ : Rec) (s : State) : State × Answer :=
  if hasOrigin .manual s.fru.stack then (s.changeStack (removeEntry .manual s.fru.stack) .popManual, okAnswer)
  else (s, refuse .state)

/-! ### The fire level and the season lock (R90, R106, R108) -/

/-- SET_FIRE_LEVEL (R90). -/
def State.opSetLevel (v : Word32) (_ : Rec) (s : State) : State × Answer :=
  match index? 5 v.toNat with
  | none => (s, refuse .badArg)
  | some l =>
    let t := ({ s with fru := { s.fru with commanded := l } } : State).formLevel
    (t, okValue (value t.fru.effective.val))

def State.setLock (s : State) (b : Bool) : State := { s with fru := { s.fru with seasonLock := b } }

/-- SEASON_LOCK (R106). -/
def State.opLock (_ : Rec) (s : State) : State × Answer :=
  if s.fru.seasonLock then (s, okAnswer)
  else ((s.setLock true).changeStack (lockOrder s.fru.stack) .seasonLock, okAnswer)

/-- SEASON_UNLOCK (R108). -/
def State.opUnlock (_ : Rec) (s : State) : State × Answer :=
  if !s.fru.seasonLock then (s, okAnswer)
  else if s.fru.effective = 0 then (s.setLock false, okAnswer)
  else (s, refuse .state)

/-! ### Bay switching (R59, R82, R84 to R86) -/

/-- A MANAGEMENT request is placed, and an effect follows where the slot accepts it (R59). -/
def State.manage (s : State) (n : Rec) (cmd : Command) (after : State → State) : State × Answer :=
  match s.place n .management cmd with
  | .ok t => (after t, okAnswer)
  | .error c => (s, refuse c)

/-- The effect of a placed BAY_OPEN on the bay's reclose record (R84). -/
def State.rccBayOpen (s : State) (b : Bay) : State :=
  let r := s.rcl b
  match r.state with
  | .dead => s.setRcl b { r with state := .idleOpen, shots := 0, deadTimer := none, springTimer := none }
  | .closing .waiting => (s.setPend (bayRec b) .reclose none).setRcl b { r with state := .idleOpen, shots := 0 }
  | _ => s

/-- BAY_OPEN (R59, R84). -/
def State.opBayOpen (n : Rec) (s : State) : State × Answer :=
  s.manage n .opening (fun t =>
    match recBay n with
    | some b => t.rccBayOpen b
    | none => t)

/-- The RCC's check of a BAY_CLOSE: it passes in IDLE_OPEN and in LOCKOUT (R85). -/
def RecloseState.mayBayClose : RecloseState → Bool
  | .idleOpen => true
  | .lockout _ => true
  | _ => false

/-- BAY_CLOSE (R59, R85). -/
def State.opBayClose (n : Rec) (s : State) : State × Answer :=
  match recBay n with
  | some b => if (s.rcl b).state.mayBayClose then s.manage n .closing id else (s, refuse .state)
  | none => s.manage n .closing id

/-- The argument a BAY_INDICATE immediate names (R59). -/
def lampArgOf (v : Nat) : Option LampArg :=
  match v with
  | 0 => some .off
  | 1 => some .on
  | 2 => some .blink
  | 3 => some .noChange
  | _ => none

/-- BAY_INDICATE (R59). -/
def State.opBayIndicate (v : Word32) (n : Rec) (s : State) : State × Answer :=
  if n = 8 then (s, refuse .notCapable)
  else match lampArgOf v.toNat with
    | some a => s.manage n (.indicate a) id
    | none => (s, refuse .badArg)

/-- BAY_INTERLOCK: RELEASE is 0 and ENGAGE is 1 (R59). -/
def State.opBayInterlock (v : Word32) (n : Rec) (s : State) : State × Answer :=
  if n = 8 ∨ (s.cap n).hasInterlock = false then (s, refuse .notCapable)
  else match yesNo v.toNat with
    | some e => s.manage n (.interlock e) id
    | none => (s, refuse .badArg)

/-- The clipped range of BLOCK_RANGE and UNBLOCK_RANGE; none where the range is refused (R82). -/
def bayRange (v : Word32) : Option (List Bay) :=
  let base := rangeBase v
  let count := rangeCount v
  if 7 < base ∨ count = 0 ∨ 8 < count then none
  else some (allBays.filter (fun b => decide (base ≤ b.val) && decide (b.val < base + count)))

/-- BLOCK_RANGE (R82), in the order of the bays 0 to 7 (log entry 36). -/
def State.opBlock (v : Word32) (_ : Rec) (s : State) : State × Answer :=
  match bayRange v with
  | none => (s, refuse .badArg)
  | some bs => (forEach bs (fun b t => t.addReason b .manual) s, okValue (value bs.length))

/-- UNBLOCK_RANGE (R82), in the order of the bays 0 to 7 (log entry 36). -/
def State.opUnblock (v : Word32) (_ : Rec) (s : State) : State × Answer :=
  match bayRange v with
  | none => (s, refuse .badArg)
  | some bs => (forEach bs (fun b t => t.removeReason b .manual) s, okValue (value bs.length))

/-- RESET_LOCKOUT (R80, R86). -/
def State.opResetLockout (n : Rec) (s : State) : State × Answer :=
  match recBay n with
  | none => (s, refuse .notCapable)
  | some b =>
    let r := s.rcl b
    if r.state.isLockout then ((s.setRcl b { r with state := r.idleState, shots := 0 }).lamp n .off, okAnswer)
    else (s, refuse .state)

/-! ### Breaker fail and standdown (R64, R65) -/

/-- ACK_BREAKER_FAIL (R64). -/
def State.opAck (_ : Rec) (s : State) : State × Answer :=
  if !s.bcu.backupFlag then (s, refuse .state)
  else if !(s.slot 8).state.isFree then (s, refuse .busy)
  else (s.setBackup false, okAnswer)

/-- CLEAR_STANDDOWN (R65). -/
def State.opClearStanddown (_ : Rec) (s : State) : State × Answer :=
  if s.mgu.part ≠ .standdown ∨ s.bcu.backupFlag = true then (s, refuse .state)
  else (s.setPart .active, okAnswer)

/-! ### The hunt (R130, R142) -/

/-- START_HUNT (R130). -/
def State.opStartHunt (_ : Rec) (s : State) : State × Answer :=
  if s.mgu.part = .standdown then (s, refuse .standdown)
  else if s.mgu.part ≠ .active ∨ s.hnc.state ≠ .idle ∨ s.efu.nvd.state ≠ .displaced then (s, refuse .state)
  else (s.startHuntNow .startHunt, okAnswer)

/-- ABORT_HUNT (R129, R142). -/
def State.opAbortHunt (_ : Rec) (s : State) : State × Answer :=
  if s.hnc.state = .idle then (s, refuse .state)
  else if s.hnc.state = .waiting then (s.huntToIdle, okAnswer)
  else (s.abortRunning .abortedMgmt, okAnswer)

end Sys2Proof.Machine
end

