-- ==== Sys2Proof/Machine/Reads.lean ====
section
/-! DEFINITION. READ, READ_STATUS and READ_RECORDS (R186, R191, R155): the value of every readable field by the target codes
of chapter 10 and the encodings of the owning chapters.  Reading changes nothing. -/

namespace Sys2Proof.Machine

/-- A field of a record that is absent reads as 0xFFFFFFFF (R186). -/
def optNat (o : Option Nat) : Word32 := optValue (o.map value)

def optFin {n : Nat} (o : Option (Fin n)) : Word32 := optNat (o.map Fin.val)

/-- A group, curve, bay or plan field that is NONE or EMPTY reads as 255. -/
def noneFin {n : Nat} (o : Option (Fin n)) : Word32 := noneValue (o.map Fin.val)

/-! ### Table 0: station and ring -/

def State.readStation (s : State) (field : Nat) : Option Word32 :=
  match field with
  | 0  => some (value s.riu.own.toNat)
  | 1  => some (flagValue s.riu.inUp)
  | 2  => some (value s.riu.checkFail)
  | 3  => some (value s.riu.overrun)
  | 4  => some (value s.riu.fwd.length)
  | 5  => some (value s.mgu.part.code)
  | 6  => some (flagValue s.bcu.backupFlag)
  | 7  => some (value s.evu.dest)
  | 8  => some (value s.evu.threshold)
  | 9  => some (optFin (s.evu.outSlot.map Prod.fst))
  | 10 => some s.mgu.offset
  | 11 => some s.mono
  | 12 => some (value s.recd.count)
  | 13 => some (value s.recd.top.val)
  | 14 => some (value s.recd.nextSeq.toNat)
  | _  => none

/-! ### Table 1: the source table and the continuity contexts -/

def State.readSource (s : State) (addr : BitVec 8) : Option Word32 :=
  (addrIndex addr 16 12).bind (fun e =>
    let x := s.src e
    let c := s.ctx e
    match addrField addr 16 with
    | 0 => some (optNat x.addr)
    | 1 => some (optNat (x.role.map Role.code))
    | 2 => some (flagValue x.inUse)
    | 3 => some (value c.state.code)
    | 4 => some (optFin c.lastPos)
    | 5 => some (optFin c.lastTag)
    | 6 => some (value c.missing)
    | 7 => some (value c.fill)
    | _ => none)

/-! ### Table 2: the bay -/

def SlotState.code : SlotState → Nat
  | .free => 0 | .inFlight _ => 1 | .echoed _ => 2

/-- The kind of the current command; 0 none (chapter 10). -/
def Slot.kindCode (x : Slot) : Nat := (x.state.flight.map (fun f => f.cmd.kindCode)).getD 0

/-- The last result: outcome × 65536 + class × 256 + kind, and outcome 0 where it is absent (chapter 10). -/
def Slot.resultCode (x : Slot) : Nat :=
  match x.lastResult with
  | some r => r.outcome.code * 65536 + r.cls.code * 256 + r.cmd.kindCode
  | none => 0

/-- The result code of a request refused at request time. -/
def CmdOutcome.refusal : CmdOutcome → Option Nat
  | .refusedAtRequest c => some c.code
  | _ => none

/-- A capability field; the incomer's record has the first two alone (chapter 3, The capability table). -/
def State.readCapability (s : State) (n : Rec) (field : Nat) : Word32 :=
  let c := s.cap n
  let own (v : Bool) : Word32 := if n = 8 then absentValue else flagValue v
  match field with
  | 0 => optNat c.addr
  | 1 => flagValue c.inService
  | 2 => own c.recloseCap
  | 3 => own c.sefCap
  | 4 => own c.hasLocal
  | 5 => own c.hasInterlock
  | _ => own c.hasSpring

/-- A field of the command slot.  The argument of an OPEN or CLOSE in flight reads as 0, as BAYCMD carries it, and not as a
field that is absent (log entry 22). -/
def State.readSlot (s : State) (n : Rec) (field : Nat) : Option Word32 :=
  let x := s.slot n
  let cur (g : Flight → Word32) : Word32 := optValue (x.state.flight.map g)
  match field with
  | 32 => some (value x.state.code)
  | 33 => some (value x.kindCode)
  | 34 => some (cur (fun f => value f.tag))
  | 35 => some (cur (fun f => value f.cls.code))
  | 36 => some (cur (fun f => value f.cmd.argCode))
  | 37 => some (cur (fun f => flagValue f.tripAttached))
  | 38 => some (value x.lastTag)
  | 39 => some (value x.resultCode)
  | 40 => some (optNat (x.lastResult.bind (fun r => r.tag)))
  | 41 => some (optNat (x.lastResult.bind (fun r => r.outcome.refusal)))
  | 42 => some (optValue (x.lastResult.map (fun r => r.time)))
  | _  => none

def State.readBay (s : State) (n : Rec) (addr : BitVec 8) : Option Word32 :=
  let x := s.status n
  match addr.toNat with
  | 16 => some (value x.position.code)
  | 17 => some (flagValue x.localMode)
  | 18 => some (flagValue x.interlock)
  | 19 => some (flagValue x.spring)
  | 20 => some (value x.reported.code)
  | 21 => some (value x.indicator.code)
  | 22 => some (flagValue x.presence)
  | k  => if k ≤ 6 then some (s.readCapability n k) else s.readSlot n k

/-! ### Tables 3 to 5: groups and curves -/

/-- A failure value: the condition times 256 plus the record or slot; absent where there is no failure (R21, R23). -/
def failureValue (f : Option (Nat × Nat)) : Word32 := optNat (f.map (fun p => p.1 * 256 + p.2))

def State.readGroup (s : State) (addr : BitVec 8) (ctx : Rec) : Option Word32 :=
  (addrIndex addr 32 6).bind (fun g =>
    let x := s.pru.groups.look g
    match addrField addr 32 with
    | 30 => some (failureValue (groupFailure s.pru x))
    | 31 => some (flagValue (s.groupValid g))
    | k =>
      match recBay ctx with
      | some b => (index? 25 k).map (fun i => optNat ((x.bays.look b).look i))
      | none => (index? 4 k).map (fun i => optNat (x.station.look i)))

def State.readPoint (s : State) (addr : BitVec 8) : Option Word32 :=
  let c := s.pru.curves.look (curveOf addr)
  let i := slotOf addr
  some (optNat (if addrField addr 32 < 16 then c.m.look i else c.inc.look i))

def State.readCurve (s : State) (addr : BitVec 8) : Option Word32 :=
  let k := curveOf addr
  let c := s.pru.curves.look k
  match addrField addr 32 with
  | 0 => some (optNat c.count)
  | 1 => some (flagValue c.valid)
  | 2 => some (failureValue c.failure)
  | 3 => some (flagValue (s.curveInUse k))
  | _ => none

/-! ### Table 6: bay protection and the reclose record (R40, R89, R115) -/

/-- The value of a trip latch: 0 clear, or the cause's number (R40). -/
def latchValue (l : Option TripCause) : Nat := (l.map TripCause.code).getD 0

/-- ms remaining; 0 when stopped (R89, R147). -/
def timerValue (t : Option Nat) : Nat := t.getD 0

def ReclaimTimer.left : ReclaimTimer → Nat
  | .running n => n
  | _ => 0

def RecloseState.phaseCode : RecloseState → Nat
  | .closing p => p.code
  | _ => 0

def RecloseState.causeCode : RecloseState → Nat
  | .lockout c => c.code
  | _ => 0

/-- The last definite position: 0 absent, 1 OPEN, 2 CLOSED (R89). -/
def definiteCode (p : Option Position) : Nat := (p.map Position.code).getD 0

def State.readReclose (s : State) (b : Bay) (field : Nat) : Option Word32 :=
  let r := s.rcl b
  match field with
  | 16 => some (value r.state.code)
  | 17 => some (value r.shots)
  | 18 => some (value r.state.phaseCode)
  | 19 => some (value r.state.causeCode)
  | 20 => some (value r.block.code)
  | 21 => some (value (definiteCode r.lastDefinite))
  | 22 => some (value (timerValue r.deadTimer))
  | 23 => some (value (timerValue r.springTimer))
  | 24 => some (value r.reclaimTimer.left)
  | _  => none

def State.readProtection (s : State) (addr : BitVec 8) (ctx : Rec) : Option Word32 :=
  (recBay ctx).bind (fun b =>
    let x := s.elem b
    match addr.toNat with
    | 0 => some (value x.ptoc)
    | 1 => some (value x.etoc)
    | 2 => some (value x.phi)
    | 3 => some (value x.sef)
    | 4 => some (value (latchValue x.latch))
    | 5 => some (value (s.dir b).code)
    | k => s.readReclose b k)

/-! ### Tables 7 to 11: fire regime, NVD and hunt -/

/-- Stack entry k from the bottom: origin × 256 + group, 0 at or above the depth (R111). -/
def State.entryValue (s : State) (k : Nat) : Word32 :=
  match s.fru.stack[k]? with
  | some e => value (e.origin.code * 256 + e.group.val)
  | none => 0

def State.entryTime (s : State) (k : Nat) : Word32 :=
  match s.fru.stack[k]? with
  | some e => e.placed
  | none => 0

def State.readFire (s : State) (addr : BitVec 8) : Option Word32 :=
  match addr.toNat with
  | 0 => some (value s.fru.commanded.val)
  | 1 => some (value s.fru.pinLevel.val)
  | 2 => some (value s.fru.effective.val)
  | 3 => some (flagValue s.fru.seasonLock)
  | 4 => some (value s.activeNo.val)
  | 5 => some (value s.fru.stack.length)
  | k =>
    if inRange 8 11 k then some (s.entryValue (k - 8))
    else if inRange 12 15 k then some (s.entryTime (k - 12))
    else if 16 ≤ k then (index? 6 (k - 16)).map (fun g => flagValue (s.groupInUse g))
    else none

def State.readFireMap (s : State) (addr : BitVec 8) : Option Word32 :=
  (addrIndex addr 32 5).bind (fun l =>
    let x := s.fru.fireMap.look l
    match addrField addr 32 with
    | 0 => some (noneFin x.group)
    | 1 => some (value x.mask.toNat)
    | 2 => some (value x.shotCap)
    | 3 => some (flagValue x.fastAll)
    | 4 => some (value x.sefCap)
    | _ => none)

def State.readNvd (s : State) (addr : BitVec 8) : Option Word32 :=
  match addr.toNat with
  | 0 => some (value s.efu.nvd.state.code)
  | 1 => some (value s.efu.nvd.timing)
  | 2 => some (value s.efu.nvd.confirm)
  | _ => none

def State.readHuntTable (s : State) (addr : BitVec 8) : Option Word32 :=
  let x := s.hnc.table
  let p := x.plan.look (planIndex addr)
  match addr.toNat with
  | 0 => some (flagValue x.enable)
  | 1 => some (noneFin x.group)
  | 2 => some (value x.startDelay)
  | 3 => some (value x.retestDelay)
  | 4 => some (value x.fireLimit)
  | n =>
    if isPlanBay addr then some (noneFin p.bay)
    else if inRange 16 31 n then some (value p.dwell)
    else none

/-- Candidate k of the hunt context; absent where the list is empty (R147). -/
def State.readCandidate (s : State) (k field : Nat) : Word32 :=
  match s.hnc.cands[k]? with
  | none => absentValue
  | some c =>
    match field with
    | 0 => noneFin c.bay
    | 1 => value c.dwell
    | 2 => optNat (c.snapshot.map Direction.code)
    | _ => value c.outcome.code

def State.readHunt (s : State) (addr : BitVec 8) : Option Word32 :=
  let h := s.hnc
  match addr.toNat with
  | 0 => some (value h.state.code)
  | 1 => some (value (timerValue h.timer))
  | 2 => some (optFin h.current)
  | 3 => some (optFin h.bayOpen)
  | 4 => some (flagValue h.rearm)
  | 5 => some (flagValue h.restoreOut)
  | 6 => some (value ((h.last.map (fun l => l.result.code)).getD 0))
  | 7 => some (optFin (h.last.bind (fun l => l.bay)))
  | 8 => some (optValue (h.last.map (fun l => l.started)))
  | 9 => some (optValue (h.last.map (fun l => l.ended)))
  | n => if inRange 64 95 n then some (s.readCandidate ((n - 64) / 4) ((n - 64) % 4)) else none

/-! ### Tables 12 to 15: segments, captures and events -/

def State.readSegment (s : State) (addr : BitVec 8) : Option Word32 :=
  let g := s.recd.segments.look (segIndex addr)
  match addrField addr 8 with
  | 0 => some (noneFin g.bay)
  | 1 => some (intValue g.xLow)
  | 2 => some (intValue g.xHigh)
  | 3 => some (value g.segLabel)
  | _ => none

def State.readChannel (s : State) (addr : BitVec 8) : Option Word32 :=
  (addrIndex addr 16 4).bind (fun k =>
    let c := s.chan k
    match addrField addr 16 with
    | 0  => some (value c.trigger.val)
    | 1  => some (value c.bay.val)
    | 2  => some (value c.pre)
    | 3  => some (value c.length)
    | 4  => some (flagValue c.reportAtEnd)
    | 8  => some (value c.state.code)
    | 9  => some (value c.rows.length)
    | 10 => some (value c.target)
    | 11 => some (flagValue c.truncated)
    | 12 => some (optFin c.holding)
    | 13 => some (flagValue (s.reading k))
    | _  => none)

/-- The first four bytes of a last detail (R175). -/
def detailValue (d : List Byte) : Word32 := word32 (d.getD 0 0) (d.getD 1 0) (d.getD 2 0) (d.getD 3 0)

def State.readEvent (s : State) (addr : BitVec 8) : Option Word32 :=
  (addrIndex addr 8 24).bind (fun f =>
    let r := s.fac f
    match addrField addr 8 with
    | 0 => some (flagValue r.flag)
    | 1 => some (flagValue r.reported)
    | 2 => some (flagValue r.held)
    | 3 => some (value r.count)
    | 4 => some (value r.mask.toNat)
    | 5 => some (value r.capMask.toNat)
    | 6 => some (optValue r.firstTime)
    | _ => some (optValue (r.lastDetail.map detailValue)))

def State.readEventConfig (s : State) (addr : BitVec 8) : Option Word32 :=
  (addrIndex addr 8 24).bind (fun f =>
    let r := s.fac f
    match addrField addr 8 with
    | 0 => some (flagValue r.enable)
    | 1 => some (value r.level)
    | 2 => some (flagValue (s.eligible f))
    | _ => none)

/-! ### READ (R186, R191) -/

/-- The value of a table's field at an address; none where the target is refused (R186). -/
def State.readTable (s : State) (table : Nat) (a : BitVec 8) (ctx : Rec) : Option Word32 :=
  match table with
  | 0  => s.readStation a.toNat
  | 1  => s.readSource a
  | 2  => s.readBay ctx a
  | 3  => s.readGroup a ctx
  | 4  => s.readPoint a
  | 5  => s.readCurve a
  | 6  => s.readProtection a ctx
  | 7  => s.readFire a
  | 8  => s.readFireMap a
  | 9  => s.readNvd a
  | 10 => s.readHuntTable a
  | 11 => s.readHunt a
  | 12 => s.readSegment a
  | 13 => s.readChannel a
  | 14 => s.readEvent a
  | _  => s.readEventConfig a

/-- The value of a target's field; none where the target is refused (R186). -/
def State.readTarget (s : State) (t : BitVec 12) (ctx : Rec) : Option Word32 :=
  s.readTable (targetTable t) (targetAddr t) ctx

def State.opRead (t : BitVec 12) (ctx : Rec) (s : State) : State × Answer :=
  match s.readTarget t ctx with
  | some v => (s, okValue v)
  | none => (s, refuse .badArg)

/-! ### READ_STATUS (R191; chapter 10, Management frames) -/

/-- Section 0: the station, 21 words.  An absent position or bay is 0xFFFFFFFF (log entry 22). -/
def State.statusStation (s : State) : List Word32 :=
  [value s.mgu.part.code, value s.fru.commanded.val, value s.fru.pinLevel.val, value s.fru.effective.val,
   flagValue s.fru.seasonLock, value s.activeNo.val, value s.fru.stack.length, s.entryValue 0, s.entryValue 1,
   s.entryValue 2, s.entryValue 3, flagValue s.bcu.backupFlag, value s.efu.nvd.state.code, value s.hnc.state.code,
   optFin s.hnc.current, optFin s.hnc.bayOpen, value ((s.hnc.last.map (fun l => l.result.code)).getD 0),
   optFin (s.hnc.last.bind (fun l => l.bay)), flagValue s.riu.inUp, value s.riu.checkFail, value s.riu.overrun]

/-- The inputs of a record as a sum: 1 local, 2 interlock, 4 spring charged (log entry 14). -/
def BayStatus.inputs (x : BayStatus) : Nat :=
  (if x.localMode then 1 else 0) + (if x.interlock then 2 else 0) + (if x.spring then 4 else 0)

/-- The six words of a record.  The current tag of a FREE slot is 0 (log entry 22). -/
def State.statusRecord (s : State) (n : Rec) : List Word32 :=
  let x := s.status n
  let y := s.slot n
  [value x.position.code, value x.inputs, flagValue x.presence, value x.indicator.code,
   value (y.state.code * 65536 + y.kindCode * 256 + (y.state.flight.map (fun f => f.tag)).getD 0), value y.resultCode]

/-- The eight words of a bay. -/
def State.statusBay (s : State) (b : Bay) : List Word32 :=
  let x := s.elem b
  let r := s.rcl b
  [value (latchValue x.latch), value x.ptoc, value x.etoc, value r.state.code, value r.shots, value r.state.causeCode,
   value r.block.code, value (s.dir b).code]

/-- Section 1: the bays, 118 words. -/
def State.statusBays (s : State) : List Word32 := allRecs.flatMap s.statusRecord ++ allBays.flatMap s.statusBay

/-- Section 2: streams, captures and events, 40 words. -/
def State.statusStreams (s : State) : List Word32 :=
  allSources.map (fun e => value (s.ctx e).state.code) ++
    allChans.map (fun k => value ((s.chan k).state.code * 65536 + (s.chan k).rows.length)) ++
    allFactors.map (fun f =>
      let r := s.fac f
      value ((if r.flag then 1 else 0) + (if r.reported then 2 else 0) + (if r.held then 4 else 0) + 256 * r.count))

def State.statusSection (s : State) (n : Nat) : Option (List Word32) :=
  match n with
  | 0 => some s.statusStation
  | 1 => some s.statusBays
  | 2 => some s.statusStreams
  | _ => none

/-- READ_STATUS: OK with the number of words, and the words as a data block (R191). -/
def State.opReadStatus (v : Word32) (_ : Rec) (s : State) : State × Answer :=
  match s.statusSection v.toNat with
  | some ws => (s, { code := .ok, value := value ws.length, block := some (ws.flatMap bytes32) })
  | none => (s, refuse .badArg)

/-! ### READ_RECORDS (R155; chapter 10, Management frames) -/

/-- The present marks of a record: 1 tag, 2 VN, 4 reactance, 8 label. -/
def FaultRecord.marks (r : FaultRecord) : Nat :=
  (if r.tag.isSome then 1 else 0) + (if r.vn.isSome then 2 else 0) + (if r.reactance.isSome then 4 else 0) +
    (if r.segLabel.isSome then 8 else 0)

/-- A record's 31 bytes; an absent field is sent as 0. -/
def FaultRecord.bytes (r : FaultRecord) : List Byte :=
  bytes16 r.seq.toNat ++ bytes32 r.stamp ++
    [byte r.bay.val, byte r.cause.code, byte r.shots, byte r.group.val, byte r.level.val, byte r.marks] ++
    tagBytes (r.tag.getD 0) ++ bytes16 r.ia ++ bytes16 r.ib ++ bytes16 r.ic ++ bytes16 r.inn ++ bytes16 r.i0 ++
    bytes16 (r.vn.getD 0) ++ [byte r.direction.code] ++ bytesInt16 (r.reactance.getD 0) ++
    [byte (r.segLabel.getD 0), r.chans.zeroExtend 8]

def State.opReadRecords (v : Word32) (_ : Rec) (s : State) : State × Answer :=
  if v.toNat = 0 ∨ Config.recordSlots < v.toNat then (s, refuse .badArg)
  else
    let rs := s.newestRecords v.toNat
    (s, { code := .ok, value := value rs.length, block := some (rs.flatMap FaultRecord.bytes) })

end Sys2Proof.Machine
end

