-- ==== Sys2Proof/Machine/Reset.lean ====
section
/-! DEFINITION. Resets and time: the cold reset and the reset pin (R196), the warm restart (R195 with each chapter's own
values), the millisecond (R197), and which timers have run out. -/

namespace Sys2Proof.Machine

/-! ### Cold reset (R196) -/

/-- Every block takes its cold-reset values with the given straps; the pin and the waiting commands stay. -/
def State.coldReset (s : State) (straps : BitVec 6) : State := State.cold straps s.pins.tfb s.pending

/-- The reset pin is asserted: the part takes no frame and sends none, and a frame OUT was sending is cut off (R185, R196;
log entry 8). -/
def State.holdReset (s : State) : State :=
  { s with pins := { s.pins with resetHeld := true }, riu := { s.riu with sending := none } }

/-! ### Warm restart (R195) -/

/-- R18: the source table is kept, everything else starts afresh. -/
def Meu.warm (m : Meu) : Meu := { Meu.cold with table := m.table }

/-- R39. -/
def Pru.warm (p : Pru) : Pru := { p with elem := Vector.replicate 8 Elements.cold }

/-- Chapter 3, Bay status: all but the indicator state takes its cold value. -/
def BayStatus.warm (x : BayStatus) : BayStatus := { BayStatus.cold with indicator := x.indicator }

/-- R66: the last tag is kept. -/
def Slot.warm (x : Slot) : Slot := { Slot.cold with lastTag := x.lastTag }

def Bcu.warm (b : Bcu) : Bcu :=
  { cap := b.cap, status := b.status.each BayStatus.warm, slots := b.slots.each Slot.warm, backupFlag := false }

/-- A sequence in hand when the restart is made is lost (R88). -/
def RecloseState.lostByRestart : RecloseState → Bool
  | .dead => true
  | .closing _ => true
  | .reclaim => true
  | _ => false

/-- R88; FIRE stays for the derivation that follows (R110). -/
def RecloseRecord.warm (r : RecloseRecord) : RecloseRecord :=
  { state := if r.state.isLockout then r.state
             else if r.state.lostByRestart then .lockout .protectionBlocked
             else r.idleState,
    shots := 0, lastDefinite := r.lastDefinite,
    block := { r.block with hunt := false, localMode := false, interlock := false },
    deadTimer := none, springTimer := none, reclaimTimer := .stopped }

/-- R127: the table, the last result and the candidate list of the hunt that produced it are kept. -/
def Hnc.warm (h : Hnc) : Hnc := { Hnc.cold with table := h.table, last := h.last, cands := h.cands }

/-- R164: a RUNNING channel ends truncated, and every holding mark is cleared. -/
def Channel.warm (c : Channel) : Channel :=
  if c.state == .running then { c with state := .done, truncated := true, holding := none }
  else { c with holding := none }

/-- R148, R153, R163, R164. -/
def Recorder.warm (r : Recorder) : Recorder :=
  { r with latest := Vector.replicate 8 none, chans := r.chans.each Channel.warm, readouts := [] }

/-- R174: the configuration of each factor is kept. -/
def FactorRecord.warm (r : FactorRecord) : FactorRecord :=
  { FactorRecord.cold with enable := r.enable, level := r.level }

def Evu.warm (e : Evu) : Evu := { e with factors := e.factors.each FactorRecord.warm, outSlot := none }

/-- R185. -/
def Riu.warm (r : Riu) : Riu :=
  { r with inUp := false, inTimer := none, outPlaces := Vector.replicate 9 none, capQueue := [] }

/-- Every block takes its warm-restart values (R195); the fire regime follows in fruRestart. -/
def State.blocksWarm (s : State) : State :=
  { s with meu := s.meu.warm, pru := s.pru.warm, efu := Efu.cold, bcu := s.bcu.warm, rcc := s.rcc.each RecloseRecord.warm,
           hnc := s.hnc.warm, recd := s.recd.warm, evu := s.evu.warm, riu := s.riu.warm,
           mgu := { s.mgu with cur := none } }

/-- The FRU reads the pin, forms the effective level and treats the stack and the FIRE reasons (R110); none of it makes an
occurrence. -/
def State.fruRestart (s : State) : State :=
  let pin := pinLevelOf s.pins.tfb
  let t := { s with fru := { s.fru with pinLevel := pin, effective := max s.fru.commanded pin,
                                        stack := removeEntry .hunt s.fru.stack } }
  let t := if t.protecting then t.setStack t.fireStep.1 else t
  t.deriveFire.1

/-- The warm restart (R195): the blocks, the FRU, and last the lamp requests for the lockouts the restart has made (R88). -/
def State.warmRestart (s : State) : State :=
  let lost := allBays.filter (fun b => (s.rcl b).state.lostByRestart)
  forEach lost (fun b t => t.lamp (bayRec b) .blink) s.blocksWarm.fruRestart

/-! ### One millisecond (R197) -/

/-- A timer's remaining time after one ms. -/
def Timer.down (t : Option Nat) : Option Nat := t.map (fun n => n - 1)

def SourceCtx.tick (c : SourceCtx) : SourceCtx := { c with silence := Timer.down c.silence }

def BayStatus.tick (x : BayStatus) : BayStatus := { x with silence := Timer.down x.silence }

def Flight.tick (f : Flight) : Flight := { f with timer := f.timer - 1 }

def SlotState.tick : SlotState → SlotState
  | .free => .free
  | .inFlight f => .inFlight f.tick
  | .echoed f => .echoed f.tick

def Slot.tick (x : Slot) : Slot := { x with state := x.state.tick }

def ReclaimTimer.tick : ReclaimTimer → ReclaimTimer
  | .running n => .running (n - 1)
  | t => t

def RecloseRecord.tick (r : RecloseRecord) : RecloseRecord :=
  { r with deadTimer := Timer.down r.deadTimer, springTimer := Timer.down r.springTimer,
           reclaimTimer := r.reclaimTimer.tick }

/-- One ms passes: the monotonic count rises and every running timer runs (R197). -/
def State.tick (s : State) : State :=
  { s with mono := s.mono + 1,
           meu := { s.meu with ctx := s.meu.ctx.each SourceCtx.tick },
           bcu := { s.bcu with status := s.bcu.status.each BayStatus.tick, slots := s.bcu.slots.each Slot.tick },
           rcc := s.rcc.each RecloseRecord.tick,
           hnc := { s.hnc with timer := Timer.down s.hnc.timer },
           riu := { s.riu with inTimer := Timer.down s.riu.inTimer } }

/-! ### Timers that have run out -/

/-- A source's silence has run out (R7). -/
def State.sourceDue (s : State) (e : SrcIx) : Bool := (s.ctx e).state == .valid && due (s.ctx e).silence

/-- A record's BAYSTAT silence has run out (R48). -/
def State.baystatDue (s : State) (n : Rec) : Bool := due (s.status n).silence

/-- The command in flight at a slot, where its timer has run out (R56). -/
def State.commandDue (s : State) (n : Rec) : Option Flight := (s.slot n).state.flight.filter (fun f => f.timer == 0)

def State.deadDue (s : State) (b : Bay) : Bool := (s.rcl b).state == .dead && due (s.rcl b).deadTimer

def State.springDue (s : State) (b : Bay) : Bool := (s.rcl b).state == .dead && due (s.rcl b).springTimer

def State.reclaimDue (s : State) (b : Bay) : Bool :=
  (s.rcl b).state == .reclaim && (s.rcl b).reclaimTimer == .running 0

/-- The hunt timer has run out in a state. -/
def State.huntDue (s : State) (st : HuntState) : Bool := s.hnc.state == st && due s.hnc.timer

def State.inDue (s : State) : Bool := s.riu.inUp && due s.riu.inTimer

/-- The expiries that stand at the moment, in the order in which the idle step takes them (log entry 5). -/
def State.dueEvents (s : State) : List Instr :=
  (if s.inDue then [.inSilenceExpiry] else []) ++
    (allSources.filter s.sourceDue).map .sourceSilenceExpiry ++
    (allRecs.filter s.baystatDue).map .baystatSilenceExpiry ++
    (allRecs.filter (fun n => (s.commandDue n).isSome)).map .commandTimeout ++
    (allBays.filter s.deadDue).map .deadTimerExpiry ++
    (allBays.filter s.springDue).map .springWaitExpiry ++
    (allBays.filter s.reclaimDue).map .reclaimExpiry ++
    (if s.huntDue .waiting then [.huntStartDelayExpiry] else []) ++
    (if s.huntDue .dwell then [.dwellExpiry] else []) ++
    (if s.huntDue .retestWait then [.retestDelayExpiry] else []) ++
    (if s.huntDue .retestDwell then [.retestDwellExpiry] else [])

end Sys2Proof.Machine
end

