-- ==== Sys2Proof/Machine/Station.lean ====
section
/-! DEFINITION. The ops of captures, events, the station table and the part state (R41, R157, R158, R163, R167, R168, R173, R193
to R195, R197). -/

namespace Sys2Proof.Machine

/-! ### Captures (R157, R158, R163) -/

/-- ARM_CAPTURE (R157). -/
def State.opArm (v : Word32) (_ : Rec) (s : State) : State × Answer :=
  match index? 4 v.toNat with
  | none => (s, refuse .badArg)
  | some k =>
    let c := s.chan k
    if s.reading k || ((c.state == .done || c.state == .disarmed) && c.holding.isSome) then (s, refuse .busy)
    else if c.state = .running then (s, refuse .state)
    else if c.length < c.pre + 1 then (s, refuse .badArg)
    else if c.state = .armed then (s, okAnswer)
    else (s.setChan k { c with rows := [], truncated := false, target := c.length * 32, state := .armed }, okAnswer)

/-- DISARM_CAPTURE (R158). -/
def State.opDisarm (v : Word32) (_ : Rec) (s : State) : State × Answer :=
  match index? 4 v.toNat with
  | none => (s, refuse .badArg)
  | some k =>
    let c := s.chan k
    match c.state with
    | .disarmed => (s, okAnswer)
    | .armed => (s.setChan k { c with state := .disarmed }, okAnswer)
    | .running => (s.truncateChan k, okAnswer)
    | .done => (s.setChan k { c with state := .disarmed }, okAnswer)

/-- Blocks are placed while the queue has a free place, at most the number given (R163). -/
def State.placeBlocks : Nat → State → State
  | 0, s => s
  | n + 1, s => State.placeBlocks n s.placeBlock

/-- The src address of the request in progress. -/
def State.requester (s : State) : Byte := (s.mgu.cur.map (fun p => p.src)).getD 0

/-- READ_CAPTURE (R163). -/
def State.opReadCapture (v : Word32) (_ : Rec) (s : State) : State × Answer :=
  let count := captureCount v
  let first := captureFirst v
  match index? 4 (captureChannel v) with
  | none => (s, refuse .badArg)
  | some k =>
    let c := s.chan k
    if count = 0 then (s, refuse .badArg)
    else if s.reading k then (s, refuse .busy)
    else if c.state = .armed ∨ c.state = .running ∨ c.rows = [] then (s, refuse .state)
    else if c.rows.length < first + count then (s, refuse .badArg)
    else
      let r : Readout := { chan := k, next := first, left := count, dest := s.requester }
      (State.placeBlocks Config.captureQueueSize
        { s with recd := { s.recd with readouts := s.recd.readouts ++ [r] } },
       okValue (value ((count + 31) / 32)))

/-! ### Events (R167, R168, R173) -/

/-- One factor is cleared by the gateway: its state, the holds on it, and its waiting frame (R173). -/
def State.clearFactor (s : State) (f : Factor) : State :=
  let held := (s.fac f).held
  let t := s.setFac f (s.fac f).clear
  (if held then t.dropHolds f else t).judgeOutSlot

/-- The factors a CLEAR_EVENTS value names. -/
def factorSet (v : Word32) : List Factor := allFactors.filter (fun f => v.getLsbD f.val)

/-- CLEAR_EVENTS (R173). -/
def State.opClearEvents (v : Word32) (_ : Rec) (s : State) : State × Answer :=
  if 16777215 < v.toNat then (s, refuse .badArg)
  else
    let fs := factorSet v
    (forEach fs (fun f t => t.clearFactor f) s, okValue (value (fs.filter (fun f => (s.fac f).flag)).length))

/-- SET_THRESHOLD (R167). -/
def State.opThreshold (v : Word32) (_ : Rec) (s : State) : State × Answer :=
  if 7 < v.toNat then (s, refuse .badArg)
  else
    ((if s.evu.threshold = v.toNat then s
      else ({ s with evu := { s.evu with threshold := v.toNat } } : State).judgeOutSlot), okValue v)

/-- SET_REPORT_DEST (R168). -/
def State.opReportDest (v : Word32) (_ : Rec) (s : State) : State × Answer :=
  if 63 < v.toNat then (s, refuse .badArg)
  else if v.toNat = s.riu.own.toNat then (s, refuse .conflict)
  else (({ s with evu := { s.evu with dest := v.toNat } } : State).judgeOutSlot, okAnswer)

/-! ### The station table (R41, R197) -/

/-- SET_TIME (R197). -/
def State.opSetTime (v : Word32) (_ : Rec) (s : State) : State × Answer :=
  let o := v - s.mono
  ({ s with mgu := { s.mgu with offset := o } }, okValue o)

/-- The record SET_BACKUP_ADDR would store, or the code that refuses it (R41). -/
def State.backupWrite (s : State) (v : Nat) : Except ResultCode Capability :=
  if v = 0 then .ok { s.cap 8 with addr := none, inService := false } else s.capabilityWrite 8 0 v

/-- SET_BACKUP_ADDR (R41). -/
def State.opBackupAddr (v : Word32) (_ : Rec) (s : State) : State × Answer :=
  writeAnswer (s.judgeCapability 8 (s.backupWrite v.toNat))

/-! ### Commissioning (R193, R194) -/

/-- An in-use entry has the role. -/
def State.roleInUse (s : State) (r : Role) : Bool := (s.findSource (fun x => x.role == some r)).isSome

/-- A bay that is in service has an in-use source (R193, check 2). -/
def State.serves (s : State) (b : Bay) : Bool := !(s.cap (bayRec b)).inService || s.roleInUse (.bay b)

/-- A fire map record names no group, or one that is VALID (R193, check 4). -/
def State.mapsValid (s : State) (l : Level) : Bool :=
  match (s.fru.fireMap.look l).group with
  | some g => s.groupValid g
  | none => true

/-- A hunt plan position is EMPTY, or names a bay that is in service (R193, check 5). -/
def State.plansServed (s : State) (k : Fin 8) : Bool :=
  match (s.hnc.table.plan.look k).bay with
  | some b => (s.cap (bayRec b)).inService
  | none => true

/-- The group of the BASE entry. -/
def State.baseGroup (s : State) : GroupNo :=
  ((s.fru.stack.find? (fun e => e.origin == .base)).map (fun e => e.group)).getD 0

/-- The first check of COMMISSION that fails, with its value (R193). -/
def State.commissionFailure (s : State) : Option Nat :=
  if !(s.roleValid .bus && allBays.any (fun b => s.roleInUse (.bay b))) then some 256
  else match allBays.find? (fun b => !s.serves b) with
  | some b => some (2 * 256 + b.val)
  | none =>
    if !s.groupValid s.baseGroup then some (3 * 256 + s.baseGroup.val)
    else match allLevels.find? (fun l => !s.mapsValid l) with
    | some l => some (4 * 256 + l.val)
    | none => (allBays.find? (fun k => !s.plansServed k)).map (fun k => 5 * 256 + k.val)

/-- The entry to ACTIVE (R87, R109, R193). -/
def State.enterActive (s : State) : State :=
  let t := s.setPart .active
  let t := forEach allBays (fun b u => if (u.cap (bayRec b)).inService then u.startIdle b else u) t
  let t := t.deriveFire.1
  t.changeStack t.fireStep.1 .commission

/-- COMMISSION (R193). -/
def State.opCommission (_ : Rec) (s : State) : State × Answer :=
  if s.mgu.part ≠ .unconfigured then (s, refuse .state)
  else match s.commissionFailure with
    | some v => (s, { code := .invalidTable, value := value v })
    | none => (s.enterActive, okAnswer)

/-- The return to UNCONFIGURED (R38, R87, R109, R115, R125, R194). -/
def State.leaveActive (s : State) : State :=
  let t := s.setPart .unconfigured
  let t := forEach allBays (fun b u => u.decommissionBay b) t
  let t := (t.setStack (removeEntry .fire t.fru.stack)).deriveFire.1
  let t := forEach allBays (fun b u => (u.zeroElements b).setDir b .unavailable) t
  t.changeNvd Nvd.cold

/-- DECOMMISSION (R107, R194). -/
def State.opDecommission (_ : Rec) (s : State) : State × Answer :=
  if s.mgu.part = .standdown then (s, refuse .state)
  else if s.hnc.state ≠ .idle then (s, refuse .busy)
  else if s.fru.seasonLock = true then (s, refuse .locked)
  else if s.mgu.part ≠ .active then (s, refuse .state)
  else (s.leaveActive, okAnswer)

/-! ### RESTART (R195) -/

/-- Whether a RESTART is refused, and with which code (R195). -/
def State.restartRefused (s : State) : Option ResultCode :=
  if s.mgu.part = .standdown then some .state
  else if s.hnc.state ≠ .idle then some .busy
  else none

/-- RESTART: a refusal is answered like any other; otherwise the request ends at it, its reply is placed, and then the warm
restart is made (R195). -/
def State.restartOp (s : State) (c : Instr) : State :=
  match s.asked c with
  | none => s
  | some p =>
    match s.restartRefused with
    | some code => s.opDone (refuse code)
    | none => (s.placeReply (p.answered okAnswer).abandon).warmRestart

end Sys2Proof.Machine
end

