-- ==== Sys2Proof/Machine/Autopilot.lean ====
section
/-! DEFINITION. What the part does of itself when no command waits: it goes on with a capture readout, with the request in
progress and with the next request, and else lets one millisecond pass and takes the expiries that then stand (log
entry 5). -/

namespace Sys2Proof.Machine

/-- A capture block waits for a place and there is one (R163). -/
def State.canPlaceBlock (s : State) : Bool :=
  !s.recd.readouts.isEmpty && decide (s.riu.capQueue.length < Config.captureQueueSize)

/-- The command the request in progress asks for next (R188). -/
def State.nextOp (s : State) : Option Instr := s.mgu.cur.bind (fun p => p.ops.head?.map decodeOp)

/-- Commands join the tail of the queue. -/
def State.enqueue (s : State) (cs : List Instr) : State := { s with pending := s.pending ++ cs }

/-- The step of a part with no command waiting.  A part held in reset stands still. -/
def State.idle (s : State) : State :=
  if s.pins.resetHeld then s
  else if s.canPlaceBlock then s.enqueue [.captureBlockPlace]
  else
    match s.nextOp with
    | some c => s.enqueue [c]
    | none =>
      if s.canStart then s.enqueue [.requestStart]
      else
        let t := s.tick
        t.enqueue t.dueEvents

end Sys2Proof.Machine
end

