-- ==== Sys2Proof/Machine/EventCommands.lean ====
section
/-! DEFINITION. The events of the part: resets, pins, frames, the arbiter of OUT, and the expiries of timers.  While the reset pin is
held the part takes nothing but the pins and the release (R196; log entry 8).  An expiry whose timer has not run out, or whose
state has passed, changes nothing (log entry 4). -/

namespace Sys2Proof.Machine

/-- A command's effect, on a part that is not held in reset (R196). -/
def State.live (s t : State) : Host.Outcome State Fault Refusal := .next (if s.pins.resetHeld then s else t)

/-- COLD_RESET: power-up, or the release of the reset pin, with the levels of the straps (R181, R196). -/
def execColdReset (straps : BitVec 6) (s : State) : Host.Outcome State Fault Refusal :=
  .next (s.coldReset straps)

/-- The TFB pin's level enters the fire regime (R91, R92). -/
def State.takePin (s : State) (asserted : Bool) : State :=
  ({ s with fru := { s.fru with pinLevel := pinLevelOf asserted } } : State).formLevel

/-- TFB_PIN_CHANGE (R91).  The pin's level is followed while the reset pin is held too, and read at the release (R110). -/
def execTfbPinChange (asserted : Bool) (s : State) : Host.Outcome State Fault Refusal :=
  let t : State := { s with pins := { s.pins with tfb := asserted } }
  t.live (t.takePin asserted)

/-- RING_FRAME_RECEIVE (R176, R177). -/
def execRingFrameReceive (f : Frame) (s : State) : Host.Outcome State Fault Refusal :=
  s.live (s.receive f)

/-- SAMPLE_FRAME: a frame of kind SAMPLE with a good check arrives (R3, R177). -/
def execSampleFrame (dest src : Byte) (payload : List Byte) (s : State) : Host.Outcome State Fault Refusal :=
  s.live (s.receive (buildFrame dest src kindSample payload))

/-- BAYSTAT_FRAME: a frame of kind BAYSTAT with a good check arrives (R44, R177). -/
def execBaystatFrame (dest src : Byte) (payload : List Byte) (s : State) : Host.Outcome State Fault Refusal :=
  s.live (s.receive (buildFrame dest src kindBaystat payload))

/-- MGMT_REQ_FRAME: a frame of kind MGMT-REQ with a good check arrives (R177, R178). -/
def execMgmtReqFrame (dest src : Byte) (payload : List Byte) (s : State) : Host.Outcome State Fault Refusal :=
  s.live (s.receive (buildFrame dest src kindRequest payload))

/-- OUT_TAKE (R182). -/
def execOutTake (s : State) : Host.Outcome State Fault Refusal :=
  s.live (s.takeOut)

/-- REQUEST_START (R187). -/
def execRequestStart (s : State) : Host.Outcome State Fault Refusal :=
  s.live (s.startRequest)

/-- CAPTURE_BLOCK_PLACE (R163). -/
def execCaptureBlockPlace (s : State) : Host.Outcome State Fault Refusal :=
  s.live (s.placeBlock)

/-- SOURCE_SILENCE_EXPIRY (R7). -/
def execSourceSilenceExpiry (e : SrcIx) (s : State) : Host.Outcome State Fault Refusal :=
  s.live (if s.sourceDue e then s.sourceSilent e else s)

/-- BAYSTAT_SILENCE_EXPIRY (R48). -/
def execBaystatSilenceExpiry (n : Rec) (s : State) : Host.Outcome State Fault Refusal :=
  s.live (if s.baystatDue n then s.baystatSilent n else s)

/-- COMMAND_TIMEOUT (R56). -/
def execCommandTimeout (n : Rec) (s : State) : Host.Outcome State Fault Refusal :=
  s.live (match s.commandDue n with
    | some f => s.commandTimedOut n f
    | none => s)

/-- DEAD_TIMER_EXPIRY (R70). -/
def execDeadTimerExpiry (b : Bay) (s : State) : Host.Outcome State Fault Refusal :=
  s.live (if s.deadDue b then s.deadEnded b else s)

/-- SPRING_WAIT_EXPIRY (R71): the spring is still uncharged. -/
def execSpringWaitExpiry (b : Bay) (s : State) : Host.Outcome State Fault Refusal :=
  s.live (if s.springDue b then s.lock b .spring else s)

/-- RECLAIM_EXPIRY (R76). -/
def execReclaimExpiry (b : Bay) (s : State) : Host.Outcome State Fault Refusal :=
  s.live (if s.reclaimDue b then s.reclaimEnded b else s)

/-- HUNT_START_DELAY_EXPIRY (R129, R131). -/
def execHuntStartDelayExpiry (s : State) : Host.Outcome State Fault Refusal :=
  s.live (if s.huntDue .waiting then s.startHuntNow .startDelay else s)

/-- DWELL_EXPIRY (R135). -/
def execDwellExpiry (s : State) : Host.Outcome State Fault Refusal :=
  s.live (if s.huntDue .dwell then s.dwellEnded else s)

/-- RETEST_DELAY_EXPIRY (R138). -/
def execRetestDelayExpiry (s : State) : Host.Outcome State Fault Refusal :=
  s.live (if s.huntDue .retestWait then s.retestDelayEnded else s)

/-- RETEST_DWELL_EXPIRY (R140). -/
def execRetestDwellExpiry (s : State) : Host.Outcome State Fault Refusal :=
  s.live (if s.huntDue .retestDwell then s.retestDwellEnded else s)

/-- IN_SILENCE_EXPIRY (R180). -/
def execInSilenceExpiry (s : State) : Host.Outcome State Fault Refusal :=
  s.live (if s.inDue then s.inSilent else s)

/-- RESET_PIN_ASSERTED (R196). -/
def execResetPinAsserted (s : State) : Host.Outcome State Fault Refusal :=
  .next (s.holdReset)

end Sys2Proof.Machine
end

