-- ==== Sys2Proof/Machine/OpCommands.lean ====
section
/-! DEFINITION. The ops of a management request.  Each acts where the request in progress asks for it next (R188; log entry 3). -/

namespace Sys2Proof.Machine

/-- BAD_OP (R188). -/
def execBadOp (word : BitVec 32) (s : State) : Host.Outcome State Fault Refusal :=
  s.live (s.runOp (.badOp word) State.opUnknown)

/-- BAY_CONTEXT (R190). -/
def execBayContext (imm : BitVec 12) (s : State) : Host.Outcome State Fault Refusal :=
  s.live (s.runImm (.bayContext imm) imm State.opContext)

/-- WIDEN (R189). -/
def execWiden (target imm : BitVec 12) (s : State) : Host.Outcome State Fault Refusal :=
  s.live (s.runOp (.widen target imm) (State.opWiden target imm))

/-- WRITE (R186, R191). -/
def execWrite (target imm : BitVec 12) (s : State) : Host.Outcome State Fault Refusal :=
  s.live (s.runImm (.write target imm) imm (State.opWrite target))

/-- WRITE_SOURCE (R1). -/
def execWriteSource (addr : BitVec 8) (imm : BitVec 12) (s : State) : Host.Outcome State Fault Refusal :=
  s.live (s.runImm (.writeSource addr imm) imm (fun v _ t => writeAnswer (t.writeTable1 addr v.toNat)))

/-- WRITE_GROUP (R20). -/
def execWriteGroup (addr : BitVec 8) (imm : BitVec 12) (s : State) : Host.Outcome State Fault Refusal :=
  s.live (s.runImm (.writeGroup addr imm) imm (fun v n t => writeAnswer (t.writeTable3 addr v.toNat n)))

/-- WRITE_CURVE (R22). -/
def execWriteCurve (header : Bool) (addr : BitVec 8) (imm : BitVec 12) (s : State) : Host.Outcome State Fault Refusal :=
  s.live (s.runImm (.writeCurve header addr imm) imm (fun v _ t => writeAnswer (t.writeCurves header addr v.toNat)))

/-- WRITE_CAPABILITY (R41, R42). -/
def execWriteCapability (addr : BitVec 8) (imm : BitVec 12) (s : State) : Host.Outcome State Fault Refusal :=
  s.live (s.runImm (.writeCapability addr imm) imm (fun v n t => writeAnswer (t.writeTable2 addr v.toNat n)))

/-- WRITE_FIRE_MAP (R103, R104). -/
def execWriteFireMap (addr : BitVec 8) (imm : BitVec 12) (s : State) : Host.Outcome State Fault Refusal :=
  s.live (s.runImm (.writeFireMap addr imm) imm (fun v _ t => writeAnswer (t.writeTable8 addr v.toNat)))

/-- WRITE_HUNT_TABLE (R126). -/
def execWriteHuntTable (addr : BitVec 8) (imm : BitVec 12) (s : State) : Host.Outcome State Fault Refusal :=
  s.live (s.runImm (.writeHuntTable addr imm) imm (fun v _ t => writeAnswer (t.writeTable10 addr v.toNat)))

/-- WRITE_SEGMENT (R153). -/
def execWriteSegment (addr : BitVec 8) (imm : BitVec 12) (s : State) : Host.Outcome State Fault Refusal :=
  s.live (s.runImm (.writeSegment addr imm) imm (fun v _ t => writeAnswer (t.writeTable12 addr v)))

/-- WRITE_CAPTURE_CONFIG (R156). -/
def execWriteCaptureConfig (addr : BitVec 8) (imm : BitVec 12) (s : State) : Host.Outcome State Fault Refusal :=
  s.live (s.runImm (.writeCaptureConfig addr imm) imm (fun v _ t => writeAnswer (t.writeTable13 addr v.toNat)))

/-- WRITE_EVENT_CONFIG (R166). -/
def execWriteEventConfig (addr : BitVec 8) (imm : BitVec 12) (s : State) : Host.Outcome State Fault Refusal :=
  s.live (s.runImm (.writeEventConfig addr imm) imm (fun v _ t => writeAnswer (t.writeTable15 addr v.toNat)))

/-- READ (R186, R191). -/
def execRead (target : BitVec 12) (s : State) : Host.Outcome State Fault Refusal :=
  s.live (s.runOp (.read target) (State.opRead target))

/-- READ_STATUS (R191). -/
def execReadStatus (imm : BitVec 12) (s : State) : Host.Outcome State Fault Refusal :=
  s.live (s.runImm (.readStatus imm) imm State.opReadStatus)

/-- READ_RECORDS (R155). -/
def execReadRecords (imm : BitVec 12) (s : State) : Host.Outcome State Fault Refusal :=
  s.live (s.runImm (.readRecords imm) imm State.opReadRecords)

/-- READ_CAPTURE (R163). -/
def execReadCapture (imm : BitVec 12) (s : State) : Host.Outcome State Fault Refusal :=
  s.live (s.runImm (.readCapture imm) imm State.opReadCapture)

/-- SELECT_BASE_GROUP (R97). -/
def execSelectBaseGroup (imm : BitVec 12) (s : State) : Host.Outcome State Fault Refusal :=
  s.live (s.runImm (.selectBaseGroup imm) imm State.opSelectBase)

/-- PUSH_MANUAL (R98). -/
def execPushManual (imm : BitVec 12) (s : State) : Host.Outcome State Fault Refusal :=
  s.live (s.runImm (.pushManual imm) imm State.opPushManual)

/-- POP_MANUAL (R98). -/
def execPopManual (s : State) : Host.Outcome State Fault Refusal :=
  s.live (s.runOp (.popManual) State.opPopManual)

/-- SET_FIRE_LEVEL (R90). -/
def execSetFireLevel (imm : BitVec 12) (s : State) : Host.Outcome State Fault Refusal :=
  s.live (s.runImm (.setFireLevel imm) imm State.opSetLevel)

/-- SEASON_LOCK (R106). -/
def execSeasonLock (s : State) : Host.Outcome State Fault Refusal :=
  s.live (s.runOp (.seasonLock) State.opLock)

/-- SEASON_UNLOCK (R108). -/
def execSeasonUnlock (s : State) : Host.Outcome State Fault Refusal :=
  s.live (s.runOp (.seasonUnlock) State.opUnlock)

/-- BAY_OPEN (R59, R84). -/
def execBayOpen (s : State) : Host.Outcome State Fault Refusal :=
  s.live (s.runOp (.bayOpen) State.opBayOpen)

/-- BAY_CLOSE (R59, R85). -/
def execBayClose (s : State) : Host.Outcome State Fault Refusal :=
  s.live (s.runOp (.bayClose) State.opBayClose)

/-- BAY_INDICATE (R59). -/
def execBayIndicate (imm : BitVec 12) (s : State) : Host.Outcome State Fault Refusal :=
  s.live (s.runImm (.bayIndicate imm) imm State.opBayIndicate)

/-- BAY_INTERLOCK (R59). -/
def execBayInterlock (imm : BitVec 12) (s : State) : Host.Outcome State Fault Refusal :=
  s.live (s.runImm (.bayInterlock imm) imm State.opBayInterlock)

/-- BLOCK_RANGE (R82). -/
def execBlockRange (imm : BitVec 12) (s : State) : Host.Outcome State Fault Refusal :=
  s.live (s.runImm (.blockRange imm) imm State.opBlock)

/-- UNBLOCK_RANGE (R82). -/
def execUnblockRange (imm : BitVec 12) (s : State) : Host.Outcome State Fault Refusal :=
  s.live (s.runImm (.unblockRange imm) imm State.opUnblock)

/-- RESET_LOCKOUT (R86). -/
def execResetLockout (s : State) : Host.Outcome State Fault Refusal :=
  s.live (s.runOp (.resetLockout) State.opResetLockout)

/-- ACK_BREAKER_FAIL (R64). -/
def execAckBreakerFail (s : State) : Host.Outcome State Fault Refusal :=
  s.live (s.runOp (.ackBreakerFail) State.opAck)

/-- CLEAR_STANDDOWN (R65). -/
def execClearStanddown (s : State) : Host.Outcome State Fault Refusal :=
  s.live (s.runOp (.clearStanddown) State.opClearStanddown)

/-- START_HUNT (R130). -/
def execStartHunt (s : State) : Host.Outcome State Fault Refusal :=
  s.live (s.runOp (.startHunt) State.opStartHunt)

/-- ABORT_HUNT (R142). -/
def execAbortHunt (s : State) : Host.Outcome State Fault Refusal :=
  s.live (s.runOp (.abortHunt) State.opAbortHunt)

/-- ARM_CAPTURE (R157). -/
def execArmCapture (imm : BitVec 12) (s : State) : Host.Outcome State Fault Refusal :=
  s.live (s.runImm (.armCapture imm) imm State.opArm)

/-- DISARM_CAPTURE (R158). -/
def execDisarmCapture (imm : BitVec 12) (s : State) : Host.Outcome State Fault Refusal :=
  s.live (s.runImm (.disarmCapture imm) imm State.opDisarm)

/-- CLEAR_EVENTS (R173). -/
def execClearEvents (imm : BitVec 12) (s : State) : Host.Outcome State Fault Refusal :=
  s.live (s.runImm (.clearEvents imm) imm State.opClearEvents)

/-- SET_THRESHOLD (R167). -/
def execSetThreshold (imm : BitVec 12) (s : State) : Host.Outcome State Fault Refusal :=
  s.live (s.runImm (.setThreshold imm) imm State.opThreshold)

/-- SET_TIME (R197). -/
def execSetTime (imm : BitVec 12) (s : State) : Host.Outcome State Fault Refusal :=
  s.live (s.runImm (.setTime imm) imm State.opSetTime)

/-- SET_REPORT_DEST (R168). -/
def execSetReportDest (imm : BitVec 12) (s : State) : Host.Outcome State Fault Refusal :=
  s.live (s.runImm (.setReportDest imm) imm State.opReportDest)

/-- SET_BACKUP_ADDR (R41). -/
def execSetBackupAddr (imm : BitVec 12) (s : State) : Host.Outcome State Fault Refusal :=
  s.live (s.runImm (.setBackupAddr imm) imm State.opBackupAddr)

/-- COMMISSION (R193). -/
def execCommission (s : State) : Host.Outcome State Fault Refusal :=
  s.live (s.runOp (.commission) State.opCommission)

/-- DECOMMISSION (R194). -/
def execDecommission (s : State) : Host.Outcome State Fault Refusal :=
  s.live (s.runOp (.decommission) State.opDecommission)

/-- RESTART (R195). -/
def execRestart (s : State) : Host.Outcome State Fault Refusal :=
  s.live (s.restartOp .restart)

end Sys2Proof.Machine
end

