-- ==== Sys2Proof/Machine/Dispatch.lean ====
section
/-! DEFINITION. One arm per command of spec/opcode_table.json, in its order. -/

namespace Sys2Proof.Machine

def exec (i : Instr) (s : State) : Host.Outcome State Fault Refusal :=
  match i with
  | .coldReset straps => Sys2Proof.Machine.execColdReset straps s
  | .tfbPinChange asserted => Sys2Proof.Machine.execTfbPinChange asserted s
  | .ringFrameReceive f => Sys2Proof.Machine.execRingFrameReceive f s
  | .sampleFrame dest src payload => Sys2Proof.Machine.execSampleFrame dest src payload s
  | .baystatFrame dest src payload => Sys2Proof.Machine.execBaystatFrame dest src payload s
  | .mgmtReqFrame dest src payload => Sys2Proof.Machine.execMgmtReqFrame dest src payload s
  | .outTake => Sys2Proof.Machine.execOutTake s
  | .requestStart => Sys2Proof.Machine.execRequestStart s
  | .captureBlockPlace => Sys2Proof.Machine.execCaptureBlockPlace s
  | .sourceSilenceExpiry e => Sys2Proof.Machine.execSourceSilenceExpiry e s
  | .baystatSilenceExpiry n => Sys2Proof.Machine.execBaystatSilenceExpiry n s
  | .commandTimeout n => Sys2Proof.Machine.execCommandTimeout n s
  | .deadTimerExpiry b => Sys2Proof.Machine.execDeadTimerExpiry b s
  | .springWaitExpiry b => Sys2Proof.Machine.execSpringWaitExpiry b s
  | .reclaimExpiry b => Sys2Proof.Machine.execReclaimExpiry b s
  | .huntStartDelayExpiry => Sys2Proof.Machine.execHuntStartDelayExpiry s
  | .dwellExpiry => Sys2Proof.Machine.execDwellExpiry s
  | .retestDelayExpiry => Sys2Proof.Machine.execRetestDelayExpiry s
  | .retestDwellExpiry => Sys2Proof.Machine.execRetestDwellExpiry s
  | .inSilenceExpiry => Sys2Proof.Machine.execInSilenceExpiry s
  | .badOp word => Sys2Proof.Machine.execBadOp word s
  | .bayContext imm => Sys2Proof.Machine.execBayContext imm s
  | .widen target imm => Sys2Proof.Machine.execWiden target imm s
  | .write target imm => Sys2Proof.Machine.execWrite target imm s
  | .writeSource addr imm => Sys2Proof.Machine.execWriteSource addr imm s
  | .writeGroup addr imm => Sys2Proof.Machine.execWriteGroup addr imm s
  | .writeCurve header addr imm => Sys2Proof.Machine.execWriteCurve header addr imm s
  | .writeCapability addr imm => Sys2Proof.Machine.execWriteCapability addr imm s
  | .writeFireMap addr imm => Sys2Proof.Machine.execWriteFireMap addr imm s
  | .writeHuntTable addr imm => Sys2Proof.Machine.execWriteHuntTable addr imm s
  | .writeSegment addr imm => Sys2Proof.Machine.execWriteSegment addr imm s
  | .writeCaptureConfig addr imm => Sys2Proof.Machine.execWriteCaptureConfig addr imm s
  | .writeEventConfig addr imm => Sys2Proof.Machine.execWriteEventConfig addr imm s
  | .read target => Sys2Proof.Machine.execRead target s
  | .readStatus imm => Sys2Proof.Machine.execReadStatus imm s
  | .readRecords imm => Sys2Proof.Machine.execReadRecords imm s
  | .readCapture imm => Sys2Proof.Machine.execReadCapture imm s
  | .selectBaseGroup imm => Sys2Proof.Machine.execSelectBaseGroup imm s
  | .pushManual imm => Sys2Proof.Machine.execPushManual imm s
  | .popManual => Sys2Proof.Machine.execPopManual s
  | .setFireLevel imm => Sys2Proof.Machine.execSetFireLevel imm s
  | .seasonLock => Sys2Proof.Machine.execSeasonLock s
  | .seasonUnlock => Sys2Proof.Machine.execSeasonUnlock s
  | .bayOpen => Sys2Proof.Machine.execBayOpen s
  | .bayClose => Sys2Proof.Machine.execBayClose s
  | .bayIndicate imm => Sys2Proof.Machine.execBayIndicate imm s
  | .bayInterlock imm => Sys2Proof.Machine.execBayInterlock imm s
  | .blockRange imm => Sys2Proof.Machine.execBlockRange imm s
  | .unblockRange imm => Sys2Proof.Machine.execUnblockRange imm s
  | .resetLockout => Sys2Proof.Machine.execResetLockout s
  | .ackBreakerFail => Sys2Proof.Machine.execAckBreakerFail s
  | .clearStanddown => Sys2Proof.Machine.execClearStanddown s
  | .startHunt => Sys2Proof.Machine.execStartHunt s
  | .abortHunt => Sys2Proof.Machine.execAbortHunt s
  | .armCapture imm => Sys2Proof.Machine.execArmCapture imm s
  | .disarmCapture imm => Sys2Proof.Machine.execDisarmCapture imm s
  | .clearEvents imm => Sys2Proof.Machine.execClearEvents imm s
  | .setThreshold imm => Sys2Proof.Machine.execSetThreshold imm s
  | .setTime imm => Sys2Proof.Machine.execSetTime imm s
  | .setReportDest imm => Sys2Proof.Machine.execSetReportDest imm s
  | .setBackupAddr imm => Sys2Proof.Machine.execSetBackupAddr imm s
  | .commission => Sys2Proof.Machine.execCommission s
  | .decommission => Sys2Proof.Machine.execDecommission s
  | .restart => Sys2Proof.Machine.execRestart s
  | .resetPinAsserted => Sys2Proof.Machine.execResetPinAsserted s

end Sys2Proof.Machine
end

