-- ==== Sys2Proof/Safety.lean ====
section
/-! DEFINITION. What counts as a well-kept state and a safe step, in the terms the claims use: the shape of the setting-group
stack, the bounds of counters and queues, the bookkeeping of the command slots and of the request in progress, the FIRE
reasons, which commands can change which table, and what the start and the abort of a hunt leave. -/

namespace Sys2Proof.Safety

open Sys2Proof.Machine

/-! ### The setting-group stack (R94, R96, R106) -/

/-- The orders, from bottom to top, in which the origins of a stack can stand.  BASE is at the bottom and each origin stands
at most once; HUNT is only ever at the top; MANUAL stands above FIRE only while the season lock is not engaged. -/
def stackShapes (lock : Bool) : List (List Origin) :=
  let low := [[.base], [.base, .manual], [.base, .fire], [.base, .manual, .fire]] ++
    (if lock then [] else [[.base, .fire, .manual]])
  low ++ low.map (fun l => l ++ [.hunt])

/-- The stack stands in one of its orders. -/
def StackOk (s : State) : Prop := s.fru.stack.map (fun e => e.origin) ∈ stackShapes s.fru.seasonLock

/-! ### Bounds (R28, R31, R73, R93) -/

/-- The accumulators of every bay are within full scale and its PHI count within 2. -/
def ElementsOk (s : State) : Prop :=
  ∀ b, (s.elem b).ptoc ≤ Config.fullScale ∧ (s.elem b).etoc ≤ Config.fullScale ∧ (s.elem b).phi ≤ 2

/-- Every shot count and every shot cap of the fire map is at most 4. -/
def ShotsOk (s : State) : Prop := (∀ b, (s.rcl b).shots ≤ 4) ∧ (∀ l, (s.fru.fireMap.look l).shotCap ≤ 4)

/-- Every queue, window and list is within the size the manual gives it (chapter 1; R149, R163, R178, R179, R187). -/
structure QueuesOk (s : State) : Prop where
  forward : s.riu.fwd.length ≤ Config.forwardQueueSize
  requests : s.mgu.queue.length ≤ Config.requestQueueSize
  capture : s.riu.capQueue.length ≤ Config.captureQueueSize
  replies : s.riu.replies.length + s.mgu.cur.toList.length ≤ Config.replySlots
  windows : ∀ e, (s.ctx e).window.length ≤ Config.windowLength
  history : ∀ b, (s.meu.history.look b).length ≤ Config.historyLength
  waiting : ∀ b, (s.meu.waiting.look b).length ≤ Config.waitingLength
  records : s.recd.count ≤ Config.recordSlots

/-! ### The command slots (R50, R52, R53) -/

/-- The bookkeeping of a slot: no TRIP request waits, and the command in flight, if any, has the last tag issued, a tag from 1
to 255, and carries a trip only where it is an OPEN. -/
structure SlotOk (x : Slot) : Prop where
  noTripWaits : x.pend.trip = none
  tag : ∀ f, x.state.flight = some f → f.tag = x.lastTag ∧ 1 ≤ f.tag ∧ f.tag ≤ 255
  trip : ∀ f, x.state.flight = some f → f.tripAttached = true → f.cmd = .opening
  lastTag : x.lastTag ≤ 255

def SlotsOk (s : State) : Prop := ∀ n, SlotOk (s.slot n)

/-! ### The FIRE reasons (R101) -/

/-- A bay carries FIRE exactly when the part is ACTIVE or STANDDOWN, the bay is in service, and the block mask of the record
in force names it. -/
def FireOk (s : State) : Prop :=
  ∀ b, (s.rcl b).block.fire =
    ((s.mgu.part == .active || s.mgu.part == .standdown) && (s.cap (bayRec b)).inService &&
      (s.fru.fireMap.look s.fru.effective).mask.getLsbD b.val)

/-! ### The request in progress (R178, R184, R187, R188) -/

/-- The accounting of the requests and replies: a request holds 1 to 32 ops; in the request in progress each op has its entry
or still waits, at least one waits, and the reply stays within the payload limit. -/
structure RequestsOk (s : State) : Prop where
  queue : ∀ r ∈ s.mgu.queue, 1 ≤ r.ops.length ∧ r.ops.length ≤ 32
  ops : ∀ p, s.mgu.cur = some p → p.ops ≠ [] ∧ p.entries.length + p.ops.length = p.opCount ∧ p.opCount ≤ 32
  size : ∀ p, s.mgu.cur = some p → p.size ≤ Config.payloadLimit
  replies : ∀ f ∈ s.riu.replies, f.payload.length ≤ Config.payloadLimit

/-! ### Which commands write which table (R186, R191) -/

/-- The command is a WRITE to the table with the given code. -/
def writesTable : Instr → Nat → Bool
  | .write t _, k              => targetTable t == k
  | .writeSource _ _, k        => k == 1
  | .writeCapability _ _, k    => k == 2
  | .writeGroup _ _, k         => k == 3
  | .writeCurve header _ _, k  => k == (if header then 5 else 4)
  | .writeFireMap _ _, k       => k == 8
  | .writeHuntTable _ _, k     => k == 10
  | .writeSegment _ _, k       => k == 12
  | .writeCaptureConfig _ _, k => k == 13
  | .writeEventConfig _ _, k   => k == 15
  | _, _                       => false

/-- The command is a cold reset. -/
def isColdReset : Instr → Bool
  | .coldReset _ => true
  | _ => false

/-! ### The part state (R192) -/

/-- The commands in which a command at a slot can end. -/
def endsCommands : Instr → Bool
  | .ringFrameReceive _ => true
  | .baystatFrame _ _ _ => true
  | .commandTimeout _   => true
  | _                   => false

/-- The changes of the part state that R192 lists, each with the command in which it comes about.  An entry to STANDDOWN
comes about where a command at a slot fails: in a BAYSTAT taken or a command's timeout. -/
inductive PartChange : Instr → PartState → PartState → Prop
  | stays (c : Instr) (p : PartState) : PartChange c p p
  | cold (straps : BitVec 6) (p : PartState) :
      PartChange (.coldReset straps) p (if straps = 0 ∨ straps = 63 then .bypass else .unconfigured)
  | commission : PartChange .commission .unconfigured .active
  | decommission : PartChange .decommission .active .unconfigured
  | standdown (c : Instr) (h : endsCommands c = true) : PartChange c .active .standdown
  | clear : PartChange .clearStanddown .standdown .active

/-! ### Closes in standdown (R52, R63) -/

/-- The CLOSE in flight at a slot, by its tag. -/
def closeInFlight (x : Slot) : Option Nat :=
  match x.state.flight with
  | some f => if f.cmd = .closing then some f.tag else none
  | none => none

/-! ### Frames: what a group of blocks leaves as it was

Each says what stays from a state to a later one; what it does not name may have changed. -/

/-- What the measurement and the protection leave as it was: every table and setting, the levels, the season lock, the
requests and replies, the queues of the ring, the pins, the count and the waiting commands. -/
structure OnlyMeasures (s t : State) : Prop where
  sources      : t.meu.table = s.meu.table
  groups       : t.pru.groups = s.pru.groups
  curves       : t.pru.curves = s.pru.curves
  capabilities : t.bcu.cap = s.bcu.cap
  regime       : { t.fru with stack := s.fru.stack } = s.fru
  huntTable    : t.hnc.table = s.hnc.table
  requests     : { t.mgu with part := s.mgu.part } = s.mgu
  ring         : { t.riu with outPlaces := s.riu.outPlaces } = s.riu
  pins         : t.pins = s.pins
  mono         : t.mono = s.mono
  pending      : t.pending = s.pending
  segments     : t.recd.segments = s.recd.segments
  readouts     : t.recd.readouts = s.recd.readouts
  reports      : t.evu.threshold = s.evu.threshold ∧ t.evu.dest = s.evu.dest
  factors      : ∀ f, (t.fac f).enable = (s.fac f).enable ∧ (t.fac f).level = (s.fac f).level
  channels     : ∀ k, (t.chan k).trigger = (s.chan k).trigger ∧ (t.chan k).bay = (s.chan k).bay ∧
    (t.chan k).pre = (s.chan k).pre ∧ (t.chan k).length = (s.chan k).length ∧
    (t.chan k).reportAtEnd = (s.chan k).reportAtEnd

/-- What the bay control unit leaves as it was: all of that, the sources and their windows, the directions and the NVD element,
the latest evaluations, and the element counts. -/
structure OnlyControl (s t : State) : Prop extends OnlyMeasures s t where
  meu    : t.meu = s.meu
  efu    : t.efu = s.efu
  latest : t.recd.latest = s.recd.latest
  counts : ∀ b, { t.elem b with latch := none } = { s.elem b with latch := none }

/-- What the hunt controller leaves as it was: all of that, the trip latches, the bay status, the backup flag and the part
state. -/
structure OnlyHunt (s t : State) : Prop extends OnlyControl s t where
  pru    : t.pru = s.pru
  status : t.bcu.status = s.bcu.status
  backup : t.bcu.backupFlag = s.bcu.backupFlag
  part   : t.mgu.part = s.mgu.part

/-- What the command slots and the reclose controller leave as it was: all of that, the stack, the hunt, and the fault records but
for their capture marks. -/
structure OnlySlots (s t : State) : Prop extends OnlyHunt s t where
  fru     : t.fru = s.fru
  hnc     : t.hnc = s.hnc
  records : t.recd.top = s.recd.top ∧ t.recd.count = s.recd.count ∧ t.recd.nextSeq = s.recd.nextSeq
  bare    : ∀ i, (t.recd.ring.look i).map (fun r => { r with chans := 0 }) =
    (s.recd.ring.look i).map (fun r => { r with chans := 0 })

/-- What an occurrence leaves as it was: all but the factor records' live state, the event out-slot, the channels' live state and
the capture marks of the records. -/
structure OnlyEvents (s t : State) : Prop extends OnlySlots s t where
  bcu : t.bcu = s.bcu
  rcc : t.rcc = s.rcc
  riu : t.riu = s.riu

/-- All six block reasons. -/
def allReasons : List BlockReason := [.fire, .hunt, .manual, .localMode, .interlock, .capability]

/-- The block reasons given stand in the same block sets. -/
def SameReasons (l : List BlockReason) (s t : State) : Prop :=
  ∀ b, ∀ r ∈ l, (t.rcl b).block.has r = (s.rcl b).block.has r

/-- The slots, out-places and reclose records of every record but one are as they were. -/
structure OnlyAt (n : Rec) (s t : State) : Prop where
  slots     : ∀ k, k ≠ n → t.slot k = s.slot k
  outPlaces : ∀ k, k ≠ n → t.riu.outPlaces.look k = s.riu.outPlaces.look k
  reclose   : ∀ b, bayRec b ≠ n → t.rcl b = s.rcl b

/-! ### The start and the abort of a hunt (R131, R132, R142)

Each says what a hunt's start or abort, made on s, leaves in t. -/

/-- The outcome of a candidate that the selection passes over: the first test of R132 that holds in t. -/
def PassedOver (t : State) (c : Candidate) (o : CandOutcome) : Prop :=
  (c.bay = none ∧ o = .skippedAbsent) ∨
  ∃ b, c.bay = some b ∧
    let x := t.status (bayRec b)
    let absent : Prop := (t.cap (bayRec b)).inService = false ∨ x.presence = false
    let opened : Prop := x.position ≠ .closed ∨ (∃ p, (t.rcl b).state = .closing p) ∨ ∃ l, (t.rcl b).state = .lockout l
    (absent ∧ o = .skippedAbsent) ∨
    (¬ absent ∧ x.localMode = true ∧ o = .skippedLocal) ∨
    (¬ absent ∧ x.localMode = false ∧ x.interlock = true ∧ o = .skippedInterlock) ∨
    (¬ absent ∧ x.localMode = false ∧ x.interlock = false ∧ opened ∧ o = .skippedOpen) ∨
    (¬ absent ∧ x.localMode = false ∧ x.interlock = false ∧ ¬ opened ∧ c.snapshot = some .reverse ∧ o = .skippedReverse)

/-- A command of the hunt stands at a slot that was x: issued with the next tag and its time where x was FREE with nothing
pending, and else waiting behind the command in flight (R51, R52). -/
def HuntPlaced (s t : State) (n : Rec) (cmd : Command) (ms : Nat) : Prop :=
  let x := s.slot n
  let tag := if x.lastTag = 255 then 1 else x.lastTag + 1
  (x.state = .free → x.pend = Pending.none → t.slot n = { x with
    lastTag := tag,
    state := .inFlight { cmd := cmd, tag := tag, cls := .hunt, issued := s.mono, tripAttached := false, timer := ms } }) ∧
  (x.state ≠ .free → t.slot n = { x with pend := { x.pend with hunt := some cmd } })

/-- What the start of a hunt leaves (R131), with the first candidate selected (R132, R133). -/
structure HuntStarts (s : State) (how : HuntHow) (t : State) : Prop where
  only     : OnlyHunt s t
  reasons  : SameReasons [.fire, .manual, .localMode, .interlock, .capability] s t
  rearm    : t.hnc.rearm = false
  started  : t.hnc.started = s.stamp
  /-- A candidate is tested, or the list is exhausted and the hunt has ended. -/
  goes     : t.hnc.state = .opening ∨ (t.hnc.state = .idle ∧ t.hnc.current = none ∧
    t.hnc.last = some { result := .exhausted, bay := none, started := s.stamp, ended := s.stamp })
  /-- The plan is copied with the directions stored at the start; a candidate passed over has its outcome, every other is
  PENDING. -/
  plan     : ∀ j : Fin 8, let q := s.hnc.table.plan.look j
    let c : Candidate := { bay := q.bay, dwell := q.dwell, snapshot := q.bay.map s.dir, outcome := .pending }
    let passed : Prop := ∃ o, PassedOver t c o ∧ t.hnc.cands[j.val]? = some { c with outcome := o }
    (t.hnc.state = .idle → passed) ∧
    (t.hnc.state = .opening → ∃ i, t.hnc.current = some i ∧ (j < i → passed) ∧ (i ≤ j → t.hnc.cands[j.val]? = some c) ∧
      (j = i → (∀ o, ¬ PassedOver t c o) ∧ ∃ b, q.bay = some b ∧ HuntPlaced s t (bayRec b) .opening 120))
  /-- The HUNT entry stands on top while the hunt tests, where the hunt group names a VALID group. -/
  entry    : let keeps (l : List StackEntry) : Prop :=
      t.fru.stack = (if t.hnc.state = .opening then l else l.filter (fun e => e.origin != .hunt))
    (∀ g, s.hnc.table.group = some g → s.groupValid g = true →
      ((∀ e ∈ s.fru.stack, e.origin ≠ .hunt) → keeps (s.fru.stack ++ [{ origin := .hunt, group := g, placed := s.stamp }])) ∧
      ((∃ e ∈ s.fru.stack, e.origin = .hunt) →
        keeps (s.fru.stack.map (fun e => if e.origin = .hunt then { e with group := g } else e)))) ∧
    (s.hnc.table.group = none ∨ (∃ g, s.hnc.table.group = some g ∧ s.groupValid g = false) → keeps s.fru.stack)
  /-- HUNT stands in the block set of every bay in service while the hunt tests. -/
  blocked  : ∀ b, (t.rcl b).block.hunt =
    (decide (t.hnc.state = .opening) && ((s.cap (bayRec b)).inService || (s.rcl b).block.hunt))
  /-- An added HUNT cancels a sequence in DEAD, or in CLOSING with close phase WAITING (R81). -/
  cancels  : ∀ b, s.runs b = true → (s.rcl b).block.hunt = false →
    ((s.rcl b).state = .dead → (t.rcl b).state = .lockout .protectionBlocked) ∧
    ((s.rcl b).state = .closing .waiting →
      (t.rcl b).state = .lockout .protectionBlocked ∨ (t.rcl b).state = .lockout .shotsExhausted)
  /-- HUNT_START, with how the hunt started, its group, 0xFF for NONE or 0xFE for GROUP_INVALID, and the number of plans. -/
  occurs   : s.mgu.part ≠ .bypass → (∀ j, (s.chan j).state ≠ .armed) → ∀ group : Byte,
    (s.hnc.table.group = none → group = 0xFF) →
    (∀ g, s.hnc.table.group = some g → group = if s.groupValid g then byte g.val else 0xFE) →
    let r := s.fac fHuntStart
    t.fac fHuntStart = { r with
      flag := true, count := min 255 (r.count + 1), firstTime := if r.flag then r.firstTime else some s.stamp,
      lastDetail := some (detail [match how with | .startDelay => 1 | .startHunt => 2, group,
        byte (s.hnc.table.plan.toList.filter (fun q => q.bay.isSome)).length]) }

/-- What the abort of a running hunt with bay b under test leaves, with the result it is to end with (R142). -/
structure HuntAborts (s : State) (r : HuntResult) (b : Bay) (t : State) : Prop where
  only    : OnlyHunt s t
  reasons : SameReasons [.fire, .manual, .localMode, .interlock, .capability] s t
  removed : ∀ c, c ≠ b → (t.rcl c).block.hunt = false
  acts    : let h := s.hnc
    let x := s.slot (bayRec b)
    -- the hunt has ended with the result (R145)
    let ended : Prop := t.hnc.state = .idle ∧ t.hnc.current = none ∧ t.hnc.timer = none ∧ t.hnc.pendingResult = none ∧
      t.hnc.last = some { result := r, bay := none, started := h.started, ended := s.stamp } ∧
      t.fru.stack = s.fru.stack.filter (fun e => e.origin != .hunt) ∧ (∀ c, (t.rcl c).block.hunt = false) ∧
      (s.mgu.part ≠ .bypass → (∀ j, (s.chan j).state ≠ .armed) → ∃ named : Byte, (t.fac fHuntEnd).lastDetail =
        some (detail ([byte r.code, named, byte b.val, 0] ++ bytes32 h.started ++ bytes32 s.stamp)))
    -- the hunt waits for a command at the bay under test
    let waits (restoreOut : Bool) : Prop :=
      t.hnc = { h with state := .aborting, timer := none, pendingResult := some r, restoreOut := restoreOut } ∧
      t.fru = s.fru ∧ t.rcl b = s.rcl b ∧ (∀ c, c ≠ b →
        t.rcl c = { s.rcl c with block := { (s.rcl c).block with hunt := false } }) ∧
      ∀ k, k ≠ bayRec b → t.slot k = s.slot k
    let restores : Prop := h.state = .dwell ∨ h.state = .retestWait ∨
      ((h.state = .restoring ∨ h.state = .retestClosing) ∧ h.restoreOut = true)
    let left : Bool := if h.state = .dwell ∨ h.state = .retestWait then h.restoreOut else false
    let served := (s.cap (bayRec b)).inService
    let held : Prop := (s.status (bayRec b)).localMode = true ∨ (s.status (bayRec b)).interlock = true
    (h.state = .retestDwell → ended) ∧
    (h.state = .opening → x.pend.hunt ≠ none → ended ∧ (t.slot (bayRec b)).pend.hunt = none) ∧
    (h.state = .opening → x.pend.hunt = none → waits h.restoreOut ∧ t.bcu = s.bcu) ∧
    (h.state = .restoring ∨ h.state = .retestClosing → h.restoreOut = false → waits false ∧ t.bcu = s.bcu) ∧
    -- the restore is placed, or turned away: with STANDDOWN the notice of R144 follows, and else the bay is locked out (R143)
    (restores → served = true → s.mgu.part ≠ .standdown → ¬ held → x.state ≠ .free ∨ x.pend = Pending.none →
      waits left ∧ HuntPlaced s t (bayRec b) .closing 250) ∧
    (restores → served = true → s.mgu.part = .standdown → waits left ∧ t.bcu = s.bcu) ∧
    (restores → served = false ∨ (s.mgu.part ≠ .standdown ∧ held) → ended ∧ t.hnc.bayOpen = none ∧
      (s.runs b = true → (∀ c, (s.rcl b).state ≠ .lockout c) → (t.rcl b).state = .lockout .closeFailed) ∧
      ∀ c, s.curCandidate = some c → ∀ j, h.current = some j → (t.hnc.cands[j.val]?).map (fun y => y.outcome) =
        some (if c.outcome = .pending ∨ c.outcome = .healthy then .failedRestore else c.outcome))

/-! ### What a command of a request is carried out on -/

/-- A command is carried out for the request in progress p: the part is not held in reset, and the op at the head of p asks
for it (R188, R196). -/
structure Runs (s : State) (c : Instr) (p : Progress) : Prop where
  live : s.pins.resetHeld = false
  asked : s.asked c = some p

/-- The state an op with an immediate works on: the pending widen is consumed (R189). -/
def consumed (s : State) (p : Progress) : State := s.setCur (some { p with widen := none })

/-- The value of an op with an immediate: the pending widen times 4096 plus the immediate (R189). -/
def valueOf (p : Progress) (imm : BitVec 12) : Word32 :=
  BitVec.ofNat 32 ((p.widen.map BitVec.toNat).getD 0 * 4096 + imm.toNat)

end Sys2Proof.Safety
end

