-- ==== Sys2Proof/WellFormed.lean ====
section
/-! DEFINITION. Which commands are well formed.  exec gives a meaning to every command, the ill-formed ones too (an
ill-formed write is refused BAD_ARG under R186); well-formedness says which commands a sender of the spec's own
frames and op words can mean. -/

namespace Sys2Proof

open Sys2Proof.Machine

/-- The op codes of the table of chapter 10. -/
def knownOpCodes : List Nat :=
  [0x01, 0x02, 0x10, 0x11, 0x12, 0x13, 0x14, 0x20, 0x21, 0x22, 0x28, 0x29, 0x2A, 0x30, 0x31, 0x32, 0x33, 0x34, 0x35,
   0x36, 0x38, 0x39, 0x40, 0x41, 0x48, 0x49, 0x50, 0x51, 0x58, 0x59, 0x5A, 0x60, 0x61, 0x62]

/-- A payload that a frame with a good check and length can carry (R176). -/
def goodPayload (p : List Byte) : Bool := decide (p.length ≤ 1024)

/-- A command is well formed when its frame can have a good length, its op word has no known op code (BAD_OP), or its
address names a writable field of its table. -/
def Instr.wellFormed : Instr → Bool
  | .sampleFrame _ _ p      => goodPayload p
  | .baystatFrame _ _ p     => goodPayload p
  | .mgmtReqFrame _ _ p     => goodPayload p
  | .badOp w                => !(knownOpCodes.contains (opCode w))
  | .write t _              => !(writableAddr (targetTable t) (targetAddr t))
  | .writeSource a _        => writableAddr 1 a
  | .writeCapability a _    => writableAddr 2 a
  | .writeGroup a _         => writableAddr 3 a
  | .writeCurve hdr a _     => writableAddr (if hdr then 5 else 4) a
  | .writeFireMap a _       => writableAddr 8 a
  | .writeHuntTable a _     => writableAddr 10 a
  | .writeSegment a _       => writableAddr 12 a
  | .writeCaptureConfig a _ => writableAddr 13 a
  | .writeEventConfig a _   => writableAddr 15 a
  | .coldReset _            => true
  | .tfbPinChange _         => true
  | .ringFrameReceive _     => true
  | .outTake                => true
  | .requestStart           => true
  | .captureBlockPlace      => true
  | .sourceSilenceExpiry _  => true
  | .baystatSilenceExpiry _ => true
  | .commandTimeout _       => true
  | .deadTimerExpiry _      => true
  | .springWaitExpiry _     => true
  | .reclaimExpiry _        => true
  | .huntStartDelayExpiry   => true
  | .dwellExpiry            => true
  | .retestDelayExpiry      => true
  | .retestDwellExpiry      => true
  | .inSilenceExpiry        => true
  | .bayContext _           => true
  | .widen _ _              => true
  | .read _                 => true
  | .readStatus _           => true
  | .readRecords _          => true
  | .readCapture _          => true
  | .selectBaseGroup _      => true
  | .pushManual _           => true
  | .popManual              => true
  | .setFireLevel _         => true
  | .seasonLock             => true
  | .seasonUnlock           => true
  | .bayOpen                => true
  | .bayClose               => true
  | .bayIndicate _          => true
  | .bayInterlock _         => true
  | .blockRange _           => true
  | .unblockRange _         => true
  | .resetLockout           => true
  | .ackBreakerFail         => true
  | .clearStanddown         => true
  | .startHunt              => true
  | .abortHunt              => true
  | .armCapture _           => true
  | .disarmCapture _        => true
  | .clearEvents _          => true
  | .setThreshold _         => true
  | .setTime _              => true
  | .setReportDest _        => true
  | .setBackupAddr _        => true
  | .commission             => true
  | .decommission           => true
  | .restart                => true
  | .resetPinAsserted       => true

end Sys2Proof
end

