-- ==== Sys2Proof/Certificates/Slice0/Obligations.lean ====
section
/-! DEFINITION. The statements for the provers, by chapter: the step and the requests, the op commands, the events, the arithmetic of
the elements, and the rules of the whole machine.  A statement about an op says `exec c s = .next (u.opDone a)`: u is the
state the op leaves and a is its answer, which OpAnswerEntered enters in the reply.  Where u is `consumed s p`, or s, with
fields replaced, every other field is as it was. -/

open Sys2Proof Sys2Proof.Machine Sys2Proof.Safety

/-! ### The step -/

/-- Log entry 5 and the row's own form: the command at the front of the queue is run on the state with the queue's rest. -/
def Obligations.StepRunsFront : Prop :=
  ∀ (s : State) (c : Instr) (rest : List Instr), s.pending = c :: rest → step s = exec c { s with pending := rest }

/-- The model's choice (log entry 5): what the part does of itself when no command waits.  With nothing of a request or a readout
to go on with, one ms passes: the count rises, every running timer falls by one (R197; log entry 2), nothing else changes, and
the expiry of each timer that has come to 0 in its state, and no other command, is put in the queue. -/
def Obligations.IdleStepGoesOn : Prop :=
  ∀ s : State, s.pending = [] →
    (s.pins.resetHeld = true → step s = .next s) ∧
    (s.pins.resetHeld = false → s.canPlaceBlock = true → step s = .next { s with pending := [.captureBlockPlace] }) ∧
    (s.pins.resetHeld = false → s.canPlaceBlock = false → ∀ c, s.nextOp = some c → step s = .next { s with pending := [c] }) ∧
    (s.pins.resetHeld = false → s.canPlaceBlock = false → s.nextOp = none → s.canStart = true →
      step s = .next { s with pending := [.requestStart] }) ∧
    (s.pins.resetHeld = false → s.canPlaceBlock = false → s.nextOp = none → s.canStart = false →
      step s = .next { s.tick with pending := s.tick.dueEvents } ∧ s.tick.mono = s.mono + 1 ∧
      let t := s.tick
      let down (o : Option Nat) : Option Nat := o.map (fun n => n - 1)
      t = { s with
        mono := s.mono + 1, meu := { s.meu with ctx := t.meu.ctx },
        bcu := { s.bcu with status := t.bcu.status, slots := t.bcu.slots }, rcc := t.rcc,
        hnc := { s.hnc with timer := down s.hnc.timer }, riu := { s.riu with inTimer := down s.riu.inTimer } } ∧
      (∀ e, t.ctx e = { s.ctx e with silence := down (s.ctx e).silence }) ∧
      (∀ n, t.status n = { s.status n with silence := down (s.status n).silence } ∧
        ((s.slot n).state = .free → t.slot n = s.slot n) ∧
        (∀ f, (s.slot n).state = .inFlight f → t.slot n = { s.slot n with state := .inFlight { f with timer := f.timer - 1 } }) ∧
        (∀ f, (s.slot n).state = .echoed f → t.slot n = { s.slot n with state := .echoed { f with timer := f.timer - 1 } })) ∧
      (∀ b, t.rcl b = { s.rcl b with deadTimer := down (s.rcl b).deadTimer, springTimer := down (s.rcl b).springTimer,
                                     reclaimTimer := (t.rcl b).reclaimTimer } ∧
        (∀ k, (s.rcl b).reclaimTimer = .running k → (t.rcl b).reclaimTimer = .running (k - 1)) ∧
        ((∀ k, (s.rcl b).reclaimTimer ≠ .running k) → (t.rcl b).reclaimTimer = (s.rcl b).reclaimTimer)) ∧
      ∀ c, c ∈ t.dueEvents ↔
        (c = .inSilenceExpiry ∧ t.riu.inUp = true ∧ t.riu.inTimer = some 0) ∨
        (∃ e, c = .sourceSilenceExpiry e ∧ (t.ctx e).state = .valid ∧ (t.ctx e).silence = some 0) ∨
        (∃ n, c = .baystatSilenceExpiry n ∧ (t.status n).silence = some 0) ∨
        (∃ n f, c = .commandTimeout n ∧ (t.slot n).state.flight = some f ∧ f.timer = 0) ∨
        (∃ b, c = .deadTimerExpiry b ∧ (t.rcl b).state = .dead ∧ (t.rcl b).deadTimer = some 0) ∨
        (∃ b, c = .springWaitExpiry b ∧ (t.rcl b).state = .dead ∧ (t.rcl b).springTimer = some 0) ∨
        (∃ b, c = .reclaimExpiry b ∧ (t.rcl b).state = .reclaim ∧ (t.rcl b).reclaimTimer = .running 0) ∨
        (c = .huntStartDelayExpiry ∧ t.hnc.state = .waiting ∧ t.hnc.timer = some 0) ∨
        (c = .dwellExpiry ∧ t.hnc.state = .dwell ∧ t.hnc.timer = some 0) ∨
        (c = .retestDelayExpiry ∧ t.hnc.state = .retestWait ∧ t.hnc.timer = some 0) ∨
        (c = .retestDwellExpiry ∧ t.hnc.state = .retestDwell ∧ t.hnc.timer = some 0))

/-- The model's choice (log entry 32, DEDUCED; entries 3, 4 and 8 for commands that do not stand): no command faults and none is
refused.  In every state each answers a next state, and the commands waiting behind it stay as they are. -/
def Obligations.EveryCommandAnswers : Prop :=
  ∀ (c : Instr) (s : State), ∃ t, exec c s = .next t ∧ t.pending = s.pending

/-! ### Op words (chapter 10, Management frames) -/

/-- The op word of a well-formed op decodes to that op, with every operand at every value: no bit of an op word is dropped. -/
def Obligations.OpWordsDecode : Prop :=
  ∀ (i : Instr) (w : Word32), i.wellFormed = true → opWord i = some w → decodeOp w = i

/-! ### Requests (R187, R188) -/

/-- R187, the start: with no request in progress, a reply slot empty and a request in the queue, the request at the head starts,
with no widen pending and bay context 0, and the queue moves up; else nothing changes. -/
def Obligations.RequestStarts : Prop :=
  ∀ s : State, s.pins.resetHeld = false →
    (∀ r rest, s.mgu.cur = none → s.riu.replies.length < 2 → s.mgu.queue = r :: rest →
      exec .requestStart s = .next { s with mgu := { s.mgu with
        queue := rest,
        cur := some { tag := r.tag, stop := r.stop, src := r.src, opCount := r.ops.length, ops := r.ops, entries := [],
                      blocks := [], widen := none, context := 0 } } }) ∧
    (s.mgu.cur ≠ none ∨ 2 ≤ s.riu.replies.length ∨ s.mgu.queue = [] → exec .requestStart s = .next s)

/-- R187 and R188, the end of an op: its entry joins the reply, and with it the data block it appends, if any, under its op's
index.  While ops are left and none has been refused under STOP_ON_REFUSAL the request goes on; else the reply is placed, with
NOT_ATTEMPTED for each op left, and the request ends.  Nothing else changes.  R184: where a data block would take the payload
past 1024 bytes the op is refused BAD_ARG in its place, and no block is appended. -/
def Obligations.OpAnswerEntered : Prop :=
  (∀ (s : State) (p : Progress) (a : Answer) (w : Word32) (rest : List Word32),
    s.mgu.cur = some p → p.ops = w :: rest → (∀ bytes, a.block = some bytes → p.size + 3 + bytes.length ≤ 1024) →
    let entries := p.entries ++ [({ code := a.code, value := a.value } : ReplyEntry)]
    let blocks := p.blocks ++ (a.block.map (fun bytes => ({ op := p.entries.length, bytes := bytes } : ReplyBlock))).toList
    let left := rest.map (fun _ => ({ code := .notAttempted, value := 0 } : ReplyEntry))
    let refused := p.stop && a.code != .ok
    (rest ≠ [] → refused = false →
      s.opDone a = s.setCur (some { p with ops := rest, entries := entries, blocks := blocks })) ∧
    (rest = [] ∨ refused = true →
      s.opDone a = { s with
        mgu := { s.mgu with cur := none },
        riu := { s.riu with replies := s.riu.replies ++
          [buildFrame p.src s.ownByte kindReply ({ p with entries := entries ++ left, blocks := blocks } : Progress).payload] } })) ∧
  (∀ (s : State) (p : Progress) (a : Answer) (bytes : List Byte), s.mgu.cur = some p → a.block = some bytes →
    1024 < p.size + 3 + bytes.length → s.opDone a = s.opDone (refuse .badArg)) ∧
  (∀ (p : Progress) (a : Answer) (bytes : List Byte), a.block = some bytes →
    (p.size + 3 + bytes.length ≤ 1024 → p.limit a = a) ∧
    (1024 < p.size + 3 + bytes.length → p.limit a = refuse .badArg) ∧
    (p.stop = false → p.size + 3 + bytes.length ≤ 1024 →
      (p.answered a).blocks = p.blocks ++ [{ op := p.entries.length, bytes := bytes }] ∧
      (p.answered a).entries = p.entries ++ [{ code := a.code, value := a.value }]) ∧
    (p.stop = false → 1024 < p.size + 3 + bytes.length →
      (p.answered a).blocks = p.blocks ∧
      (p.answered a).entries = p.entries ++ [{ code := .badArg, value := 0 }]))

/-- R188 and R189: an op code not in the table answers BAD_OP with value 0 and leaves a pending widen pending; WIDEN makes its
20-bit value the pending widen, in place of one already there, and answers it. -/
def Obligations.WidenPends : Prop :=
  (∀ (s : State) (p : Progress) (w : BitVec 32), Runs s (.badOp w) p →
    exec (.badOp w) s = .next (s.opDone { code := .badOp, value := 0 })) ∧
  (∀ (s : State) (p : Progress) (target imm : BitVec 12), Runs s (.widen target imm) p →
    let v := target.toNat % 256 * 4096 + imm.toNat
    exec (.widen target imm) s =
      .next ((s.setCur (some { p with widen := some (BitVec.ofNat 20 v) })).opDone { code := .ok, value := BitVec.ofNat 32 v }))

/-- R190: a value above 8 is refused BAD_ARG and the context keeps its value; a value from 0 to 8 becomes the bay context and is
answered. -/
def Obligations.BayContextJudged : Prop :=
  ∀ (s : State) (p : Progress) (imm : BitVec 12), Runs s (.bayContext imm) p →
    (∀ n : Rec, (valueOf p imm).toNat = n.val →
      exec (.bayContext imm) s = .next ((s.setCur (some { p with widen := none, context := n })).opDone
        { code := .ok, value := BitVec.ofNat 32 n.val })) ∧
    (8 < (valueOf p imm).toNat →
      exec (.bayContext imm) s = .next ((consumed s p).opDone { code := .badArg, value := 0 }))

/-! ### Writes to the tables (R1, R20, R22, R41, R42, R103, R104, R126, R153, R156, R166, R186, R191)

A write of an op in a request of context p.context has the value v of its widened immediate; a refused one answers its code with
value 0 and changes nothing but the pending widen, which it consumes. -/

/-- R186 and R191: a WRITE to a target that no table lists, or to a field not marked writable, is refused BAD_ARG and changes
nothing; a WRITE to any other target is answered as its table judges it. -/
def Obligations.WriteJudgedByItsTable : Prop :=
  ∀ (s : State) (p : Progress) (target imm : BitVec 12), Runs s (.write target imm) p →
    let u := consumed s p
    let v := valueOf p imm
    let a := targetAddr target
    ∃ w : Written, exec (.write target imm) s = .next (w.1.opDone (refuse w.2)) ∧
      (targetTable target = 1 → w = u.writeTable1 a v.toNat) ∧
      (targetTable target = 2 → w = u.writeTable2 a v.toNat p.context) ∧
      (targetTable target = 3 → w = u.writeTable3 a v.toNat p.context) ∧
      (targetTable target = 4 → w = u.writeCurves false a v.toNat) ∧
      (targetTable target = 5 → w = u.writeCurves true a v.toNat) ∧
      (targetTable target = 8 → w = u.writeTable8 a v.toNat) ∧
      (targetTable target = 10 → w = u.writeTable10 a v.toNat) ∧
      (targetTable target = 12 → w = u.writeTable12 a v) ∧
      (targetTable target = 13 → w = u.writeTable13 a v.toNat) ∧
      (targetTable target = 15 → w = u.writeTable15 a v.toNat) ∧
      (writableAddr (targetTable target) a = false → w = (u, .badArg)) ∧
      (targetTable target ∉ [1, 2, 3, 4, 5, 8, 10, 12, 13, 15] → w = (u, .badArg))

/-- R1, which writes to the source table are refused, and with which code.  That an in-use value above 1 is refused BAD_ARG is the
model's choice (log entry 13, DEDUCED). -/
def Obligations.SourceWriteRefused : Prop :=
  ∀ (s : State) (p : Progress) (addr : BitVec 8) (imm : BitVec 12) (e : SrcIx) (k : Nat),
    Runs s (.writeSource addr imm) p → addr.toNat = e.val * 16 + k → k ≤ 2 →
    let v := (valueOf p imm).toNat
    let x := s.src e
    let refused (c : ResultCode) : Prop := exec (.writeSource addr imm) s = .next ((consumed s p).opDone (refuse c))
    let another (test : SourceEntry → Prop) : Prop := ∃ f, f ≠ e ∧ (s.src f).inUse = true ∧ test (s.src f)
    (s.mgu.part = .active ∨ s.mgu.part = .standdown → refused .state) ∧
    (s.mgu.part = .unconfigured →
      (k = 0 → v = 0 ∨ 62 < v → refused .badArg) ∧
      (k = 0 → 1 ≤ v → v ≤ 62 →
        v = s.riu.own.toNat ∨ (x.inUse = true ∧ another (fun y => y.addr = some v)) → refused .conflict) ∧
      (k = 1 → 8 < v → refused .badArg) ∧
      (k = 1 → ∀ r, roleOf v = some r → x.inUse = true → another (fun y => y.role = some r) → refused .conflict) ∧
      (k = 2 → v = 1 → x.addr = none ∨ x.role = none → refused .badArg) ∧
      (k = 2 → v = 1 → x.addr ≠ none → x.role ≠ none → another (fun y => y.addr = x.addr ∨ y.role = x.role) →
        refused .conflict) ∧
      (k = 2 → 1 < v → refused .badArg))

/-- R1, an accepted write to the source table: the field is stored, and no other entry changes.  Where the entry was or is in use
and the write changed it, its source is started afresh, the history rings of the bays it leaves and takes and the latest bus
evaluation are emptied; else nothing else changes. -/
def Obligations.SourceWriteStored : Prop :=
  ∀ (s : State) (p : Progress) (addr : BitVec 8) (imm : BitVec 12) (e : SrcIx) (k : Nat),
    Runs s (.writeSource addr imm) p → addr.toNat = e.val * 16 + k → s.mgu.part = .unconfigured →
    let v := (valueOf p imm).toNat
    let old := s.src e
    let stored (x : SourceEntry) : Prop := ∃ t : State, exec (.writeSource addr imm) s = .next (t.opDone okAnswer) ∧
      OnlyMeasures { consumed s p with meu := { s.meu with table := s.meu.table.put e x } } t ∧
      (∀ f, f ≠ e → t.ctx f = s.ctx f) ∧
      (x = old ∨ (old.inUse = false ∧ x.inUse = false) →
        t = { consumed s p with meu := { s.meu with table := s.meu.table.put e x } }) ∧
      (x ≠ old → old.inUse = true ∨ x.inUse = true →
        t.ctx e = { state := .absent, lastPos := none, missing := 0, fill := 0, lastTag := none, silence := none,
                    window := [] } ∧
        (∀ b, old.role = some (.bay b) ∨ x.role = some (.bay b) →
          t.meu.history.look b = [] ∧ t.meu.waiting.look b = []) ∧
        (old.role = some .bus ∨ x.role = some .bus → t.meu.latestBus = none))
    (k = 0 → 1 ≤ v → v ≤ 62 → v ≠ s.riu.own.toNat →
      (old.inUse = true → ∀ f, f ≠ e → (s.src f).inUse = true → (s.src f).addr ≠ some v) →
      stored { old with addr := some v }) ∧
    (k = 1 → ∀ r, roleOf v = some r →
      (old.inUse = true → ∀ f, f ≠ e → (s.src f).inUse = true → (s.src f).role ≠ some r) →
      stored { old with role := some r }) ∧
    (k = 2 → v = 0 → stored { old with inUse := false }) ∧
    (k = 2 → v = 1 → old.addr ≠ none → old.role ≠ none →
      (∀ f, f ≠ e → (s.src f).inUse = true → (s.src f).addr ≠ old.addr ∧ (s.src f).role ≠ old.role) →
      stored { old with inUse := true })

/-- R20 and R105: a write to a setting group, by the record the bay context names.  A value outside the field's range is refused
BAD_ARG, a group in use IN_USE, and any other write stores the value and nothing else.  That the range is judged before the use is
the model's choice (log entry 34, DEDUCED).  The ranges are those of chapter 2's two tables, with NONE as 255, and with 0 and 1 for
the two names of a mode, a fallback or a reclose. -/
def Obligations.GroupWriteJudged : Prop :=
  (∀ (s : State) (p : Progress) (addr : BitVec 8) (imm : BitVec 12) (g : GroupNo) (k : Nat),
    Runs s (.writeGroup addr imm) p → addr.toNat = g.val * 32 + k → k ≤ 24 →
    let u := consumed s p
    let v := (valueOf p imm).toNat
    let x := s.pru.groups.look g
    let refused (c : ResultCode) : Prop := exec (.writeGroup addr imm) s = .next (u.opDone (refuse c))
    let stored (y : Group) : Prop := exec (.writeGroup addr imm) s =
      .next (({ u with pru := { s.pru with groups := s.pru.groups.put g y } } : State).opDone okAnswer)
    let inUse : Prop := (s.mgu.part = .active ∨ s.mgu.part = .standdown) ∧ ∃ e ∈ s.fru.stack, e.group = g
    (∀ b : Bay, p.context = bayRec b → ∀ i : Fin 25, i.val = k →
      (bayFieldOk k v = false → refused .badArg) ∧
      (bayFieldOk k v = true → inUse → refused .inUse) ∧
      (bayFieldOk k v = true → ¬ inUse →
        stored { x with bays := x.bays.put b ((x.bays.look b).put i (some v)) })) ∧
    (p.context = 8 → 4 ≤ k → refused .badArg) ∧
    (p.context = 8 → ∀ i : Fin 4, i.val = k →
      (stationFieldOk k v = false → refused .badArg) ∧
      (stationFieldOk k v = true → inUse → refused .inUse) ∧
      (stationFieldOk k v = true → ¬ inUse → stored { x with station := x.station.put i (some v) }))) ∧
  (∀ k v : Nat, bayFieldOk k v = true ↔
    (k = 0 ∧ (v = 0 ∨ 500 ≤ v ∧ v ≤ 40000)) ∨ (k = 1 ∧ 50 ≤ v ∧ v ≤ 20000) ∨ ((k = 2 ∨ k = 7) ∧ v ≤ 7) ∨
    ((k = 3 ∨ k = 5 ∨ k = 8 ∨ k = 10) ∧ 5 ≤ v ∧ v ≤ 150) ∨ ((k = 4 ∨ k = 9) ∧ (v ≤ 7 ∨ v = 255)) ∨
    (k = 6 ∧ 20 ≤ v ∧ v ≤ 10000) ∨ (k = 11 ∧ v ≤ 16777216) ∨ (k = 12 ∧ (v = 0 ∨ 2 ≤ v ∧ v ≤ 2000)) ∨
    (k = 13 ∧ 1 ≤ v ∧ v ≤ 12000) ∨ ((k = 14 ∨ k = 15 ∨ k = 19) ∧ v ≤ 1) ∨ (k = 16 ∧ 1 ≤ v ∧ v ≤ 1000) ∨
    ((k = 17 ∨ k = 18) ∧ v ≤ 4) ∨ (20 ≤ k ∧ k ≤ 23 ∧ 100 ≤ v ∧ v ≤ 180000) ∨ (k = 24 ∧ 1000 ≤ v ∧ v ≤ 600000)) ∧
  (∀ k v : Nat, stationFieldOk k v = true ↔
    (k = 0 ∧ 20 ≤ v ∧ v ≤ 800) ∨ (k = 1 ∧ 1 ≤ v ∧ v ≤ 799) ∨ (k = 2 ∧ 1 ≤ v ∧ v ≤ 2000) ∨ (k = 3 ∧ 1 ≤ v ∧ v ≤ 200))

/-- R22: a write to a curve's count, or to a slot's m or inc, by the rows of its table in order; an accepted write stores the
value and nothing else. -/
def Obligations.CurveWriteJudged : Prop :=
  ∀ (s : State) (p : Progress) (header : Bool) (addr : BitVec 8) (imm : BitVec 12) (c : CurveNo) (k : Nat),
    Runs s (.writeCurve header addr imm) p → addr.toNat = c.val * 32 + k → k < 32 →
    let u := consumed s p
    let v := (valueOf p imm).toNat
    let x := s.pru.curves.look c
    let refused (code : ResultCode) : Prop := exec (.writeCurve header addr imm) s = .next (u.opDone (refuse code))
    let stored (y : Curve) : Prop := exec (.writeCurve header addr imm) s =
      .next (({ u with pru := { s.pru with curves := s.pru.curves.put c y } } : State).opDone okAnswer)
    let judged (lo hi : Nat) (y : Curve) : Prop :=
      (v < lo ∨ hi < v → refused .badArg) ∧
      (lo ≤ v → v ≤ hi → s.curveInUse c = true → refused .inUse) ∧
      (lo ≤ v → v ≤ hi → s.curveInUse c = false → stored y)
    (header = true → k = 0 → judged 2 16 { x with count := some v }) ∧
    (header = false → ∀ i : Fin 16, k = i.val → judged 1 2560 { x with m := x.m.put i (some v) }) ∧
    (header = false → ∀ i : Fin 16, k = 16 + i.val → judged 1 16777216 { x with inc := x.inc.put i (some v) })

/-- R41: which writes to the capability table are refused, and with which code, in the order of its rows.  That a value above 1 of a
yes or no field is refused BAD_ARG is the model's choice (log entry 13, DEDUCED). -/
def Obligations.CapabilityWriteRefused : Prop :=
  ∀ (s : State) (p : Progress) (addr : BitVec 8) (imm : BitVec 12),
    Runs s (.writeCapability addr imm) p → addr.toNat ≤ 6 →
    let n := p.context
    let k := addr.toNat
    let v := (valueOf p imm).toNat
    let refused (c : ResultCode) : Prop := exec (.writeCapability addr imm) s = .next ((consumed s p).opDone (refuse c))
    let protecting : Prop := s.mgu.part = .active ∨ s.mgu.part = .standdown
    let taken : Prop := v = s.riu.own.toNat ∨ ∃ m, m ≠ n ∧ (s.cap m).addr = some v
    (protecting → refused .state) ∧
    (¬ protecting → n = 8 → 1 < k → refused .badArg) ∧
    (¬ protecting → k = 0 → v = 0 ∨ 62 < v → refused .badArg) ∧
    (¬ protecting → k = 0 → 1 ≤ v → v ≤ 62 → taken → refused .conflict) ∧
    (¬ protecting → k = 1 → v = 1 → (s.cap n).addr = none → refused .badArg) ∧
    (¬ protecting → 1 ≤ k → 1 < v → refused .badArg) ∧
    (¬ protecting → k = 0 → 1 ≤ v → v ≤ 62 → ¬ taken → (s.slot n).busy = true → refused .busy) ∧
    (¬ protecting → k = 1 → v = 0 ∨ (v = 1 ∧ (s.cap n).addr ≠ none) → (s.slot n).busy = true → refused .busy) ∧
    (¬ protecting → n ≠ 8 → 1 < k → v ≤ 1 → (s.slot n).busy = true → refused .busy)

/-- R41 and R42, an accepted write to the capability table or of record 8's address: the field is stored, a write of the value held
has no other effect, and no other table changes; a changed ring address starts the bay status afresh, and the CAPABILITY
reason follows reclose capable. -/
def Obligations.CapabilityWriteStored : Prop :=
  (∀ (s : State) (p : Progress) (addr : BitVec 8) (imm : BitVec 12),
    Runs s (.writeCapability addr imm) p → s.mgu.part = .unconfigured → (s.slot p.context).busy = false →
    let n := p.context
    let k := addr.toNat
    let v := (valueOf p imm).toNat
    let old := s.cap n
    let stored (c : Capability) : Prop := ∃ t : State, exec (.writeCapability addr imm) s = .next (t.opDone okAnswer) ∧
      OnlyMeasures { consumed s p with bcu := { s.bcu with cap := s.bcu.cap.put n c } } t ∧
      (c = old → t = { consumed s p with bcu := { s.bcu with cap := s.bcu.cap.put n c } })
    (k = 0 → 1 ≤ v → v ≤ 62 → v ≠ s.riu.own.toNat → (∀ m, m ≠ n → (s.cap m).addr ≠ some v) →
      stored { old with addr := some v }) ∧
    (k = 1 → v = 0 → stored { old with inService := false }) ∧
    (k = 1 → v = 1 → old.addr ≠ none → stored { old with inService := true }) ∧
    (n ≠ 8 → k = 2 → v ≤ 1 → stored { old with recloseCap := v == 1 }) ∧
    (n ≠ 8 → k = 3 → v ≤ 1 → stored { old with sefCap := v == 1 }) ∧
    (n ≠ 8 → k = 4 → v ≤ 1 → stored { old with hasLocal := v == 1 }) ∧
    (n ≠ 8 → k = 5 → v ≤ 1 → stored { old with hasInterlock := v == 1 }) ∧
    (n ≠ 8 → k = 6 → v ≤ 1 → stored { old with hasSpring := v == 1 })) ∧
  (∀ (s : State) (p : Progress) (imm : BitVec 12), Runs s (.setBackupAddr imm) p →
    let v := (valueOf p imm).toNat
    let old := s.cap 8
    let stored (c : Capability) : Prop := ∃ t : State, exec (.setBackupAddr imm) s = .next (t.opDone okAnswer) ∧
      OnlyMeasures { consumed s p with bcu := { s.bcu with cap := s.bcu.cap.put 8 c } } t
    let refused (c : ResultCode) : Prop := exec (.setBackupAddr imm) s = .next ((consumed s p).opDone (refuse c))
    (s.mgu.part = .active ∨ s.mgu.part = .standdown → refused .state) ∧
    (s.mgu.part = .unconfigured → 62 < v → refused .badArg) ∧
    (s.mgu.part = .unconfigured → (s.slot 8).busy = false →
      (v = 0 → stored { old with addr := none, inService := false }) ∧
      (1 ≤ v → v ≤ 62 → v ≠ s.riu.own.toNat → (∀ m, m ≠ 8 → (s.cap m).addr ≠ some v) →
        stored { old with addr := some v }))) ∧
  (∀ (s : State) (p : Progress) (addr : BitVec 8) (imm : BitVec 12) (b : Bay),
    Runs s (.writeCapability addr imm) p → s.mgu.part = .unconfigured → p.context = bayRec b →
    (s.slot (bayRec b)).busy = false →
    let v := (valueOf p imm).toNat
    (addr = 0 → 1 ≤ v → v ≤ 62 → v ≠ s.riu.own.toNat → (∀ m, m ≠ bayRec b → (s.cap m).addr ≠ some v) →
      (s.cap (bayRec b)).addr ≠ some v →
      ∃ t : State, exec (.writeCapability addr imm) s = .next (t.opDone okAnswer) ∧
        (let y := t.status (bayRec b)
         y.position = .unknown ∧ y.localMode = false ∧ y.interlock = false ∧ y.spring = false ∧ y.reported = .unknown ∧
         y.silence = none ∧ y.indicator = (s.status (bayRec b)).indicator)) ∧
    (addr = 2 → v ≤ 1 → (s.cap (bayRec b)).recloseCap ≠ (v == 1) →
      ∃ t : State, exec (.writeCapability addr imm) s = .next (t.opDone okAnswer) ∧
        (t.rcl b).block = { (s.rcl b).block with capability := v == 0 }))

/-- R103: which writes to the fire map are refused, and with which code, in the order of its checks. -/
def Obligations.FireMapWriteRefused : Prop :=
  ∀ (s : State) (p : Progress) (addr : BitVec 8) (imm : BitVec 12) (l : Level) (k : Nat),
    Runs s (.writeFireMap addr imm) p → addr.toNat = l.val * 32 + k → k ≤ 4 →
    let v := (valueOf p imm).toNat
    let refused (c : ResultCode) : Prop := exec (.writeFireMap addr imm) s = .next ((consumed s p).opDone (refuse c))
    let bad : Prop := (k = 0 ∧ 5 < v ∧ v ≠ 255) ∨ (k = 1 ∧ 255 < v) ∨ (k = 2 ∧ 4 < v) ∨ (k = 3 ∧ 1 < v) ∨
      (k = 4 ∧ 12000 < v)
    (bad → refused .badArg) ∧
    (¬ bad → s.fru.seasonLock = true → refused .locked) ∧
    (s.fru.seasonLock = false → k = 0 → l = s.fru.effective → s.mgu.part = .active ∨ s.mgu.part = .standdown →
      ∀ g : GroupNo, g.val = v → s.groupValid g = false → refused .invalidTable)

/-- R103 and R104, an accepted write to the fire map: outside the record in force the value is stored and nothing more follows; in
the record in force a block mask sets the FIRE reasons at once, and the group takes the stack step. -/
def Obligations.FireMapWriteStored : Prop :=
  ∀ (s : State) (p : Progress) (addr : BitVec 8) (imm : BitVec 12) (l : Level) (k : Nat),
    Runs s (.writeFireMap addr imm) p → addr.toNat = l.val * 32 + k → s.fru.seasonLock = false →
    let v := (valueOf p imm).toNat
    let old := s.fru.fireMap.look l
    let put (x : FireRecord) : State :=
      { consumed s p with fru := { s.fru with fireMap := s.fru.fireMap.put l x } }
    let stored (x : FireRecord) : Prop :=
      (l ≠ s.fru.effective → exec (.writeFireMap addr imm) s = .next ((put x).opDone okAnswer)) ∧
      (l = s.fru.effective → ∃ t : State, exec (.writeFireMap addr imm) s = .next (t.opDone okAnswer) ∧
        OnlyHunt (put x) t ∧ t.hnc = s.hnc ∧ SameReasons [.hunt, .manual, .localMode, .interlock, .capability] s t ∧
        (k ≠ 0 → t.fru.stack = s.fru.stack) ∧ (k ≠ 1 → SameReasons [.fire] s t) ∧
        (k = 1 → ∀ b, (t.rcl b).block.fire = (s.runs b && x.mask.getLsbD b.val)) ∧
        (k = 0 → s.protecting = true → t.fru.stack = (put x).fireStep.1) ∧
        (k = 0 → s.protecting = false → t = put x))
    (k = 0 → v = 255 → stored { old with group := none }) ∧
    (k = 0 → ∀ g : GroupNo, g.val = v → s.groupValid g = true ∨ l ≠ s.fru.effective ∨ s.mgu.part = .unconfigured →
      stored { old with group := some g }) ∧
    (k = 1 → v ≤ 255 → stored { old with mask := BitVec.ofNat 8 v }) ∧
    (k = 2 → v ≤ 4 → stored { old with shotCap := v }) ∧
    (k = 3 → v ≤ 1 → stored { old with fastAll := v == 1 }) ∧
    (k = 4 → v ≤ 12000 → stored { old with sefCap := v })

/-- R126: a write to the hunt table, by its checks in order; an accepted write stores the value and nothing else.  That a
value above 1 of enable is refused BAD_ARG is the model's choice (log entry 13, DEDUCED). -/
def Obligations.HuntTableWriteJudged : Prop :=
  ∀ (s : State) (p : Progress) (addr : BitVec 8) (imm : BitVec 12), Runs s (.writeHuntTable addr imm) p →
    let u := consumed s p
    let a := addr.toNat
    let v := (valueOf p imm).toNat
    let h := s.hnc.table
    let refused (c : ResultCode) : Prop := exec (.writeHuntTable addr imm) s = .next (u.opDone (refuse c))
    let stored (y : HuntTable) : Prop :=
      (s.hnc.state ≠ .idle → refused .busy) ∧
      (s.hnc.state = .idle → exec (.writeHuntTable addr imm) s =
        .next (({ u with hnc := { s.hnc with table := y } } : State).opDone okAnswer))
    (a = 0 → v ≤ 1 → stored { h with enable := v == 1 }) ∧
    (a = 0 → 1 < v → refused .badArg) ∧
    (a = 1 → v = 255 → stored { h with group := none }) ∧
    (a = 1 → ∀ g : GroupNo, g.val = v → stored { h with group := some g }) ∧
    (a = 1 → 5 < v → v ≠ 255 → refused .badArg) ∧
    (a = 2 → 1000 ≤ v → v ≤ 600000 → stored { h with startDelay := v }) ∧
    (a = 3 → 1000 ≤ v → v ≤ 600000 → stored { h with retestDelay := v }) ∧
    (a = 2 ∨ a = 3 → v < 1000 ∨ 600000 < v → refused .badArg) ∧
    (a = 4 → 1 ≤ v → v ≤ 5 → stored { h with fireLimit := v }) ∧
    (a = 4 → v < 1 ∨ 5 < v → refused .badArg) ∧
    (∀ k : Fin 8, a = 16 + 2 * k.val + 1 → 500 ≤ v → v ≤ 60000 →
      stored { h with plan := h.plan.put k { h.plan.look k with dwell := v } }) ∧
    (∀ k : Fin 8, a = 16 + 2 * k.val + 1 → v < 500 ∨ 60000 < v → refused .badArg) ∧
    (∀ k : Fin 8, a = 16 + 2 * k.val → 7 < v → v ≠ 255 → refused .badArg) ∧
    (∀ k : Fin 8, a = 16 + 2 * k.val → v = 255 →
      stored { h with plan := h.plan.put k { h.plan.look k with bay := none } }) ∧
    (∀ (k : Fin 8) (b : Bay), a = 16 + 2 * k.val → b.val = v →
      let held : Prop := ∃ j, j ≠ k ∧ (h.plan.look j).bay = some b
      let outOfService : Prop := (s.mgu.part = .active ∨ s.mgu.part = .standdown) ∧ (s.cap (bayRec b)).inService = false
      (s.hnc.state = .idle → held → refused .conflict) ∧
      (s.hnc.state = .idle → ¬ held → outOfService → refused .state) ∧
      (¬ held → ¬ outOfService → stored { h with plan := h.plan.put k { h.plan.look k with bay := some b } }))

/-- R153 and R156: writes to the segment table and to a capture channel's configuration; an accepted write stores the value and
nothing else.  That a value out of range is refused BAD_ARG in an ARMED or RUNNING channel too is the model's choice (log entry
34, DEDUCED), and so is the range of report at end (log entry 13, DEDUCED). -/
def Obligations.RecorderWriteJudged : Prop :=
  (∀ (s : State) (p : Progress) (addr : BitVec 8) (imm : BitVec 12) (i : SegIx) (k : Nat),
    Runs s (.writeSegment addr imm) p → addr.toNat = i.val * 8 + k → k < 8 →
    let v := (valueOf p imm).toNat
    let x := (valueOf p imm).toInt
    let g := s.recd.segments.look i
    let refused : Prop := exec (.writeSegment addr imm) s = .next ((consumed s p).opDone (refuse .badArg))
    let stored (y : Segment) : Prop := exec (.writeSegment addr imm) s =
      .next (({ consumed s p with recd := { s.recd with segments := s.recd.segments.put i y } } : State).opDone okAnswer)
    (k = 0 → ∀ b : Bay, b.val = v → stored { g with bay := some b }) ∧
    (k = 0 → v = 255 → stored { g with bay := none }) ∧
    (k = 0 → 7 < v → v ≠ 255 → refused) ∧
    (k = 1 → -32768 ≤ x → x ≤ 32767 → stored { g with xLow := x }) ∧
    (k = 2 → -32768 ≤ x → x ≤ 32767 → stored { g with xHigh := x }) ∧
    (k = 1 ∨ k = 2 → x < -32768 ∨ 32767 < x → refused) ∧
    (k = 3 → v ≤ 255 → stored { g with segLabel := v }) ∧
    (k = 3 → 255 < v → refused)) ∧
  (∀ (s : State) (p : Progress) (addr : BitVec 8) (imm : BitVec 12) (c : Chan) (k : Nat),
    Runs s (.writeCaptureConfig addr imm) p → addr.toNat = c.val * 16 + k → k < 16 →
    let v := (valueOf p imm).toNat
    let x := s.chan c
    let refused (code : ResultCode) : Prop :=
      exec (.writeCaptureConfig addr imm) s = .next ((consumed s p).opDone (refuse code))
    let stored (y : Channel) : Prop :=
      (x.state = .armed ∨ x.state = .running → refused .state) ∧
      (x.state = .disarmed ∨ x.state = .done → exec (.writeCaptureConfig addr imm) s =
        .next (({ consumed s p with recd := { s.recd with chans := s.recd.chans.put c y } } : State).opDone okAnswer))
    (k = 0 → ∀ f : Factor, f.val = v → stored { x with trigger := f }) ∧
    (k = 0 → 23 < v → refused .badArg) ∧
    (k = 1 → ∀ b : Bay, b.val = v → stored { x with bay := b }) ∧
    (k = 1 → 7 < v → refused .badArg) ∧
    (k = 2 → v ≤ 4 → stored { x with pre := v }) ∧
    (k = 2 → 4 < v → refused .badArg) ∧
    (k = 3 → 1 ≤ v → v ≤ 64 → stored { x with length := v }) ∧
    (k = 3 → v < 1 ∨ 64 < v → refused .badArg) ∧
    (k = 4 → v ≤ 1 → stored { x with reportAtEnd := v == 1 }) ∧
    (k = 4 → 1 < v → refused .badArg))

/-- R166: a write to a factor's enable or level, with an enable other than 0 or 1 (log entry 13, DEDUCED) or a level above 7 refused
BAD_ARG; an accepted one that changes the value judges the event out-slot again.  What the out-slot then holds, the frame formed
from the records as they stand, is the model's choice (log entry 17, DEDUCED). -/
def Obligations.EventWriteJudged : Prop :=
  ∀ (s : State) (p : Progress) (addr : BitVec 8) (imm : BitVec 12) (f : Factor) (k : Nat),
    Runs s (.writeEventConfig addr imm) p → addr.toNat = f.val * 8 + k → k < 8 →
    let v := (valueOf p imm).toNat
    let x := s.fac f
    let refused : Prop := exec (.writeEventConfig addr imm) s = .next ((consumed s p).opDone (refuse .badArg))
    let stored (y : FactorRecord) : Prop :=
      (y = x → exec (.writeEventConfig addr imm) s = .next ((consumed s p).opDone okAnswer)) ∧
      (y ≠ x → exec (.writeEventConfig addr imm) s = .next (
        let t : State := { consumed s p with evu := { s.evu with factors := s.evu.factors.put f y } }
        ({ t with evu := { t.evu with outSlot := t.outSlotNow } } : State).opDone okAnswer))
    (k = 0 → v ≤ 1 → stored { x with enable := v == 1 }) ∧
    (k = 0 → 1 < v → refused) ∧
    (k = 1 → v ≤ 7 → stored { x with level := v }) ∧
    (k = 1 → 7 < v → refused)

/-! ### Reads (R155, R163, R186, R191) -/

/-- R186, R191 and R155: READ, READ_STATUS and READ_RECORDS change nothing but the reply (and consume a widen where they take
an immediate). READ answers the value of every field that the target table lists, 0xFFFFFFFF for an unset or absent one, and
BAD_ARG for every other target. READ_STATUS appends the 21, 118 or 40 words of its section, of 4 bytes each; READ_RECORDS
appends the newest min(n, count) records, the one at the top index first and then each one before it, 31 bytes each. What an
absent field with no value of its own reads as, the 0 of an OPEN's or CLOSE's argument among it, and the order of the inputs
in section 1 are the model's choice (log entries 14 and 22, DEDUCED). -/
def Obligations.ReadsAnswer : Prop :=
  (∀ (s : State) (p : Progress) (t : BitVec 12), Runs s (.read t) p →
    let answers (v : Word32) : Prop := exec (.read t) s = .next (s.opDone { code := .ok, value := v })
    (t = 0x005 → answers (value s.mgu.part.code)) ∧
    (t = 0x00B → answers s.mono) ∧
    (t = 0x702 → answers (value s.fru.effective.val)) ∧
    (t = 0x200 → (s.cap p.context).addr = none → answers 0xFFFFFFFF) ∧
    (t = 0x200 → ∀ a, (s.cap p.context).addr = some a → answers (value a)) ∧
    (t = 0x00F → exec (.read t) s = .next (s.opDone (refuse .badArg))) ∧
    (∃ a : Answer, a.block = none ∧ exec (.read t) s = .next (s.opDone a))) ∧
  -- table by table: field n k v says that the field at address k of table n has the value v
  (∀ (s : State) (p : Progress) (t : BitVec 12), Runs s (.read t) p →
    let at_ (n k : Nat) : Prop := targetTable t = n ∧ (targetAddr t).toNat = k
    let field (n k : Nat) (v : Word32) : Prop := at_ n k → exec (.read t) s = .next (s.opDone { code := .ok, value := v })
    let unlisted (n k : Nat) : Prop := at_ n k → exec (.read t) s = .next (s.opDone (refuse .badArg))
    let num (v : Nat) : Word32 := BitVec.ofNat 32 v
    let flag (b : Bool) : Word32 := if b then 1 else 0
    let orAbsent (o : Option Nat) : Word32 := (o.map num).getD 0xFFFFFFFF
    let orNone (o : Option Nat) : Word32 := num (o.getD 255)
    let n := p.context
    (field 0 0 (num s.riu.own.toNat) ∧ field 0 1 (flag s.riu.inUp) ∧ field 0 2 (num s.riu.checkFail) ∧
      field 0 3 (num s.riu.overrun) ∧ field 0 4 (num s.riu.fwd.length) ∧ field 0 5 (num s.mgu.part.code) ∧
      field 0 6 (flag s.bcu.backupFlag) ∧ field 0 7 (num s.evu.dest) ∧ field 0 8 (num s.evu.threshold) ∧
      field 0 9 (orAbsent (s.evu.outSlot.map (fun x => x.1.val))) ∧ field 0 10 s.mgu.offset ∧ field 0 11 s.mono ∧
      field 0 12 (num s.recd.count) ∧ field 0 13 (num s.recd.top.val) ∧ field 0 14 (num s.recd.nextSeq.toNat) ∧
      ∀ k, 15 ≤ k → unlisted 0 k) ∧
    ((∀ e : SrcIx, let x := s.src e
        let c := s.ctx e
        let a := e.val * 16
        field 1 a (orAbsent x.addr) ∧ field 1 (a + 1) (orAbsent (x.role.map Role.code)) ∧ field 1 (a + 2) (flag x.inUse) ∧
        field 1 (a + 3) (num c.state.code) ∧ field 1 (a + 4) (orAbsent (c.lastPos.map Fin.val)) ∧
        field 1 (a + 5) (orAbsent (c.lastTag.map Fin.val)) ∧ field 1 (a + 6) (num c.missing) ∧ field 1 (a + 7) (num c.fill)) ∧
      ∀ k, 192 ≤ k ∨ 8 ≤ k % 16 → unlisted 1 k) ∧
    (let c := s.cap n
      let x := s.status n
      let k := s.slot n
      let bayOnly (b : Bool) : Word32 := if n = 8 then 0xFFFFFFFF else flag b
      let flight (g : Flight → Nat) : Word32 := orAbsent (k.state.flight.map g)
      field 2 0 (orAbsent c.addr) ∧ field 2 1 (flag c.inService) ∧ field 2 2 (bayOnly c.recloseCap) ∧
      field 2 3 (bayOnly c.sefCap) ∧ field 2 4 (bayOnly c.hasLocal) ∧ field 2 5 (bayOnly c.hasInterlock) ∧
      field 2 6 (bayOnly c.hasSpring) ∧
      field 2 16 (num x.position.code) ∧ field 2 17 (flag x.localMode) ∧ field 2 18 (flag x.interlock) ∧
      field 2 19 (flag x.spring) ∧ field 2 20 (num x.reported.code) ∧ field 2 21 (num x.indicator.code) ∧
      field 2 22 (flag x.presence) ∧
      field 2 32 (num (match k.state with | .free => 0 | .inFlight _ => 1 | .echoed _ => 2)) ∧
      field 2 33 (num ((k.state.flight.map (fun f => f.cmd.kindCode)).getD 0)) ∧ field 2 34 (flight (fun f => f.tag)) ∧
      field 2 35 (flight (fun f => f.cls.code)) ∧ field 2 36 (flight (fun f => f.cmd.argCode)) ∧
      field 2 37 (flight (fun f => if f.tripAttached then 1 else 0)) ∧ field 2 38 (num k.lastTag) ∧
      (k.lastResult = none → field 2 39 0 ∧ field 2 40 0xFFFFFFFF ∧ field 2 41 0xFFFFFFFF ∧ field 2 42 0xFFFFFFFF) ∧
      (∀ r, k.lastResult = some r →
        field 2 39 (num (r.outcome.code * 65536 + r.cls.code * 256 + r.cmd.kindCode)) ∧ field 2 40 (orAbsent r.tag) ∧
        (∀ q, r.outcome = .refusedAtRequest q → field 2 41 (num q.code)) ∧
        ((∀ q, r.outcome ≠ .refusedAtRequest q) → field 2 41 0xFFFFFFFF) ∧ field 2 42 r.time) ∧
      ∀ k, (7 ≤ k ∧ k < 16) ∨ (23 ≤ k ∧ k < 32) ∨ 43 ≤ k → unlisted 2 k) ∧
    ((∀ g : GroupNo, let x := s.pru.groups.look g
        (∀ (b : Bay) (i : Fin 25), n = bayRec b → field 3 (g.val * 32 + i.val) (orAbsent ((x.bays.look b).look i))) ∧
        (∀ i : Fin 4, n = 8 → field 3 (g.val * 32 + i.val) (orAbsent (x.station.look i))) ∧
        field 3 (g.val * 32 + 30) (orAbsent ((groupFailure s.pru x).map (fun q => q.1 * 256 + q.2))) ∧
        field 3 (g.val * 32 + 31) (flag (s.groupValid g))) ∧
      ∀ k, 192 ≤ k ∨ (25 ≤ k % 32 ∧ k % 32 < 30) ∨ (n = 8 ∧ 4 ≤ k % 32 ∧ k % 32 < 30) → unlisted 3 k) ∧
    (∀ (c : CurveNo) (i : Fin 16), field 4 (c.val * 32 + i.val) (orAbsent ((s.pru.curves.look c).m.look i)) ∧
      field 4 (c.val * 32 + 16 + i.val) (orAbsent ((s.pru.curves.look c).inc.look i))) ∧
    ((∀ c : CurveNo, let x := s.pru.curves.look c
        field 5 (c.val * 32) (orAbsent x.count) ∧ field 5 (c.val * 32 + 1) (flag x.valid) ∧
        field 5 (c.val * 32 + 2) (orAbsent (x.failure.map (fun q => q.1 * 256 + q.2))) ∧
        field 5 (c.val * 32 + 3) (flag (s.curveInUse c))) ∧
      ∀ k, 4 ≤ k % 32 → unlisted 5 k) ∧
    ((∀ b : Bay, n = bayRec b → let x := s.elem b
        let r := s.rcl b
        field 6 0 (num x.ptoc) ∧ field 6 1 (num x.etoc) ∧ field 6 2 (num x.phi) ∧ field 6 3 (num x.sef) ∧
        field 6 4 (num ((x.latch.map TripCause.code).getD 0)) ∧ field 6 5 (num (s.dir b).code) ∧
        field 6 16 (num r.state.code) ∧ field 6 17 (num r.shots) ∧
        field 6 18 (num (match r.state with | .closing q => q.code | _ => 0)) ∧
        field 6 19 (num (match r.state with | .lockout q => q.code | _ => 0)) ∧ field 6 20 (num r.block.code) ∧
        field 6 21 (num ((r.lastDefinite.map Position.code).getD 0)) ∧ field 6 22 (num (r.deadTimer.getD 0)) ∧
        field 6 23 (num (r.springTimer.getD 0)) ∧
        field 6 24 (num (match r.reclaimTimer with | .running m => m | _ => 0)) ∧
        ∀ k, (6 ≤ k ∧ k < 16) ∨ 25 ≤ k → unlisted 6 k) ∧
      (n = 8 → ∀ k, unlisted 6 k)) ∧
    (field 7 0 (num s.fru.commanded.val) ∧ field 7 1 (num s.fru.pinLevel.val) ∧ field 7 2 (num s.fru.effective.val) ∧
      field 7 3 (flag s.fru.seasonLock) ∧ field 7 4 (num s.activeNo.val) ∧ field 7 5 (num s.fru.stack.length) ∧
      (∀ k, k < 4 → (∀ e, s.fru.stack[k]? = some e → field 7 (8 + k) (num (e.origin.code * 256 + e.group.val)) ∧
          field 7 (12 + k) e.placed) ∧
        (s.fru.stack.length ≤ k → field 7 (8 + k) 0 ∧ field 7 (12 + k) 0)) ∧
      (∀ g : GroupNo, field 7 (16 + g.val) (flag (s.groupInUse g))) ∧
      ∀ k, k = 6 ∨ k = 7 ∨ 22 ≤ k → unlisted 7 k) ∧
    ((∀ l : Level, let x := s.fru.fireMap.look l
        let a := l.val * 32
        field 8 a (orNone (x.group.map Fin.val)) ∧ field 8 (a + 1) (num x.mask.toNat) ∧ field 8 (a + 2) (num x.shotCap) ∧
        field 8 (a + 3) (flag x.fastAll) ∧ field 8 (a + 4) (num x.sefCap)) ∧
      ∀ k, 160 ≤ k ∨ 5 ≤ k % 32 → unlisted 8 k) ∧
    (field 9 0 (num s.efu.nvd.state.code) ∧ field 9 1 (num s.efu.nvd.timing) ∧ field 9 2 (num s.efu.nvd.confirm) ∧
      ∀ k, 3 ≤ k → unlisted 9 k) ∧
    (let h := s.hnc.table;
      field 10 0 (flag h.enable) ∧ field 10 1 (orNone (h.group.map Fin.val)) ∧ field 10 2 (num h.startDelay) ∧
      field 10 3 (num h.retestDelay) ∧ field 10 4 (num h.fireLimit) ∧
      (∀ k : Fin 8, field 10 (16 + 2 * k.val) (orNone ((h.plan.look k).bay.map Fin.val)) ∧
        field 10 (17 + 2 * k.val) (num (h.plan.look k).dwell)) ∧
      ∀ k, (5 ≤ k ∧ k < 16) ∨ 32 ≤ k → unlisted 10 k) ∧
    (let h := s.hnc;
      field 11 0 (num h.state.code) ∧ field 11 1 (num (h.timer.getD 0)) ∧ field 11 2 (orAbsent (h.current.map Fin.val)) ∧
      field 11 3 (orAbsent (h.bayOpen.map Fin.val)) ∧ field 11 4 (flag h.rearm) ∧ field 11 5 (flag h.restoreOut) ∧
      (h.last = none → field 11 6 0 ∧ field 11 7 0xFFFFFFFF ∧ field 11 8 0xFFFFFFFF ∧ field 11 9 0xFFFFFFFF) ∧
      (∀ l, h.last = some l → field 11 6 (num l.result.code) ∧ field 11 7 (orAbsent (l.bay.map Fin.val)) ∧
        field 11 8 l.started ∧ field 11 9 l.ended) ∧
      (∀ k, k < 8 → (∀ c, h.cands[k]? = some c → field 11 (64 + 4 * k) (orNone (c.bay.map Fin.val)) ∧
          field 11 (65 + 4 * k) (num c.dwell) ∧ field 11 (66 + 4 * k) (orAbsent (c.snapshot.map Direction.code)) ∧
          field 11 (67 + 4 * k) (num c.outcome.code)) ∧
        (h.cands.length ≤ k → ∀ j, j < 4 → field 11 (64 + 4 * k + j) 0xFFFFFFFF)) ∧
      ∀ k, (10 ≤ k ∧ k < 64) ∨ 96 ≤ k → unlisted 11 k) ∧
    ((∀ i : SegIx, let x := s.recd.segments.look i
        field 12 (i.val * 8) (orNone (x.bay.map Fin.val)) ∧ field 12 (i.val * 8 + 1) (BitVec.ofInt 32 x.xLow) ∧
        field 12 (i.val * 8 + 2) (BitVec.ofInt 32 x.xHigh) ∧ field 12 (i.val * 8 + 3) (num x.segLabel)) ∧
      ∀ k, 4 ≤ k % 8 → unlisted 12 k) ∧
    ((∀ i : Chan, let x := s.chan i
        let a := i.val * 16
        field 13 a (num x.trigger.val) ∧ field 13 (a + 1) (num x.bay.val) ∧ field 13 (a + 2) (num x.pre) ∧
        field 13 (a + 3) (num x.length) ∧ field 13 (a + 4) (flag x.reportAtEnd) ∧ field 13 (a + 8) (num x.state.code) ∧
        field 13 (a + 9) (num x.rows.length) ∧ field 13 (a + 10) (num x.target) ∧ field 13 (a + 11) (flag x.truncated) ∧
        field 13 (a + 12) (orAbsent (x.holding.map Fin.val)) ∧
        field 13 (a + 13) (flag (s.recd.readouts.any (fun r => r.chan == i)))) ∧
      ∀ k, 64 ≤ k ∨ (5 ≤ k % 16 ∧ k % 16 < 8) ∨ 14 ≤ k % 16 → unlisted 13 k) ∧
    ((∀ f : Factor, let x := s.fac f
        let a := f.val * 8
        field 14 a (flag x.flag) ∧ field 14 (a + 1) (flag x.reported) ∧ field 14 (a + 2) (flag x.held) ∧
        field 14 (a + 3) (num x.count) ∧ field 14 (a + 4) (num x.mask.toNat) ∧ field 14 (a + 5) (num x.capMask.toNat) ∧
        field 14 (a + 6) (x.firstTime.getD 0xFFFFFFFF) ∧ (x.lastDetail = none → field 14 (a + 7) 0xFFFFFFFF) ∧
        (∀ b0 b1 b2 b3 rest, x.lastDetail = some (b0 :: b1 :: b2 :: b3 :: rest) → field 14 (a + 7) (b0 ++ b1 ++ b2 ++ b3)) ∧
        field 15 a (flag x.enable) ∧ field 15 (a + 1) (num x.level) ∧ field 15 (a + 2) (flag (s.eligible f))) ∧
      ∀ k, (192 ≤ k → unlisted 14 k) ∧ (192 ≤ k ∨ 3 ≤ k % 8 → unlisted 15 k))) ∧
  (∀ (s : State) (p : Progress) (imm : BitVec 12), Runs s (.readStatus imm) p →
    let v := (valueOf p imm).toNat
    let answers (n : Nat) : Prop := ∃ bytes : List Byte, bytes.length = 4 * n ∧ exec (.readStatus imm) s =
      .next ((consumed s p).opDone { code := .ok, value := BitVec.ofNat 32 n, block := some bytes })
    let holds (l : List Word32) : Prop := exec (.readStatus imm) s = .next ((consumed s p).opDone
      { code := .ok, value := BitVec.ofNat 32 l.length, block := some (l.flatMap bytes32) })
    let num (v : Nat) : Word32 := BitVec.ofNat 32 v
    let flag (b : Bool) : Word32 := if b then 1 else 0
    let orAbsent (o : Option Nat) : Word32 := (o.map num).getD 0xFFFFFFFF
    let entry (k : Nat) : Word32 := num ((s.fru.stack[k]?.map (fun e => e.origin.code * 256 + e.group.val)).getD 0)
    let result (n : Rec) : Word32 := num (((s.slot n).lastResult.map
      (fun r => r.outcome.code * 65536 + r.cls.code * 256 + r.cmd.kindCode)).getD 0)
    (v = 0 → answers 21) ∧ (v = 1 → answers 118) ∧ (v = 2 → answers 40) ∧
    (v = 0 → holds [num s.mgu.part.code, num s.fru.commanded.val, num s.fru.pinLevel.val, num s.fru.effective.val,
      flag s.fru.seasonLock, num s.activeNo.val, num s.fru.stack.length, entry 0, entry 1, entry 2, entry 3,
      flag s.bcu.backupFlag, num s.efu.nvd.state.code, num s.hnc.state.code, orAbsent (s.hnc.current.map Fin.val),
      orAbsent (s.hnc.bayOpen.map Fin.val), num ((s.hnc.last.map (fun l => l.result.code)).getD 0),
      orAbsent (s.hnc.last.bind (fun l => l.bay.map Fin.val)), flag s.riu.inUp, num s.riu.checkFail, num s.riu.overrun]) ∧
    (v = 1 → holds (allRecs.flatMap (fun n =>
        let x := s.status n
        let k := (s.slot n).state;
        [num x.position.code, num ((if x.localMode then 1 else 0) + (if x.interlock then 2 else 0) + (if x.spring then 4 else 0)),
          flag x.presence, num x.indicator.code,
          num ((match k with | .free => 0 | .inFlight _ => 1 | .echoed _ => 2) * 65536 +
            ((k.flight.map (fun f => f.cmd.kindCode)).getD 0) * 256 + (k.flight.map (fun f => f.tag)).getD 0), result n]) ++
      allBays.flatMap (fun b =>
        let x := s.elem b
        let r := s.rcl b;
        [num ((x.latch.map TripCause.code).getD 0), num x.ptoc, num x.etoc, num r.state.code, num r.shots,
          num (match r.state with | .lockout q => q.code | _ => 0), num r.block.code, num (s.dir b).code]))) ∧
    (v = 2 → holds (allSources.map (fun e => num (s.ctx e).state.code) ++
      allChans.map (fun k => num ((s.chan k).state.code * 65536 + (s.chan k).rows.length)) ++
      allFactors.map (fun f => let r := s.fac f;
        num ((if r.flag then 1 else 0) + (if r.reported then 2 else 0) + (if r.held then 4 else 0) + 256 * r.count)))) ∧
    (2 < v → exec (.readStatus imm) s = .next ((consumed s p).opDone (refuse .badArg)))) ∧
  (∀ (s : State) (p : Progress) (imm : BitVec 12), Runs s (.readRecords imm) p →
    let n := (valueOf p imm).toNat
    (n = 0 ∨ 16 < n → exec (.readRecords imm) s = .next ((consumed s p).opDone (refuse .badArg))) ∧
    -- the record at the top index first, then the one before it, and so on
    let m := min n s.recd.count
    let back (k : Nat) : Option FaultRecord := s.recd.ring.look (s.recd.top - Fin.ofNat 16 k)
    (1 ≤ n → n ≤ 16 → ∃ rs : List FaultRecord, rs = (List.range m).filterMap back ∧ rs.length ≤ m ∧
      ((∀ k, k < m → back k ≠ none) → rs.length = m ∧ ∀ k, k < m → rs[k]? = back k) ∧ exec (.readRecords imm) s =
        .next ((consumed s p).opDone
          { code := .ok, value := BitVec.ofNat 32 rs.length, block := some (rs.flatMap FaultRecord.bytes) })) ∧
    (1 ≤ n → n ≤ 16 → s.recd.count = 0 → exec (.readRecords imm) s =
      .next ((consumed s p).opDone { code := .ok, value := 0, block := some [] }))) ∧
  (∀ r : FaultRecord, r.bytes.length = 31)

/-- R163: READ_CAPTURE by its checks in order; an accepted one starts a readout and answers the number of its blocks.  That
READ_CAPTURE itself places the blocks there are free places for, at once, is the model's choice (log entry 9, DEDUCED).
CAPTURE_BLOCK_PLACE places the next block of up to 32 rows of the earliest readout where the queue has a free place. -/
def Obligations.CaptureReadout : Prop :=
  (∀ (s : State) (p : Progress) (imm : BitVec 12), Runs s (.readCapture imm) p →
    let v := (valueOf p imm).toNat
    let count := v % 4096
    let first := v / 4096 % 4096
    let chan := v / 16777216
    let refused (c : ResultCode) : Prop := exec (.readCapture imm) s = .next ((consumed s p).opDone (refuse c))
    (3 < chan ∨ count = 0 → refused .badArg) ∧
    (∀ k : Chan, k.val = chan → 0 < count →
      let c := s.chan k
      let reading : Prop := ∃ r ∈ s.recd.readouts, r.chan = k
      let empty : Prop := c.state = .armed ∨ c.state = .running ∨ c.rows = []
      (reading → refused .busy) ∧
      (¬ reading → empty → refused .state) ∧
      (¬ reading → ¬ empty → c.rows.length < first + count → refused .badArg) ∧
      (¬ reading → ¬ empty → first + count ≤ c.rows.length →
        ∃ t : State, exec (.readCapture imm) s = .next (t.opDone { code := .ok, value := BitVec.ofNat 32 ((count + 31) / 32) }) ∧
          t = { consumed s p with recd := { s.recd with readouts := t.recd.readouts },
                                  riu := { s.riu with capQueue := t.riu.capQueue } } ∧
          (4 ≤ s.riu.capQueue.length → t.riu.capQueue = s.riu.capQueue ∧
            t.recd.readouts = s.recd.readouts ++ [{ chan := k, next := first, left := count, dest := p.src }]) ∧
          (s.recd.readouts = [] → count ≤ 32 → s.riu.capQueue.length < 4 → t.recd.readouts = [] ∧
            t.riu.capQueue = s.riu.capQueue ++ [buildFrame p.src s.ownByte kindCapture
              ([byte k.val] ++ bytes16 first ++ [byte count] ++ ((c.rows.drop first).take count).flatMap rowBytes)]) ∧
          (s.recd.readouts = [] →
            let placed := min (4 - s.riu.capQueue.length) ((count + 31) / 32)
            t.recd.readouts = (if count ≤ 32 * placed then [] else
              [{ chan := k, next := first + 32 * placed, left := count - 32 * placed, dest := p.src }]) ∧
            t.riu.capQueue = s.riu.capQueue ++ (List.range placed).map (fun j => buildFrame p.src s.ownByte kindCapture
              ([byte k.val] ++ bytes16 (first + 32 * j) ++ [byte (min 32 (count - 32 * j))] ++
                ((c.rows.drop (first + 32 * j)).take (min 32 (count - 32 * j))).flatMap rowBytes)))))) ∧
  (∀ s : State, s.pins.resetHeld = false →
    (s.recd.readouts = [] ∨ 4 ≤ s.riu.capQueue.length → exec .captureBlockPlace s = .next s) ∧
    (∀ r rest, s.recd.readouts = r :: rest → s.riu.capQueue.length < 4 →
      let n := min 32 r.left
      exec .captureBlockPlace s = .next { s with
        recd := { s.recd with
          readouts := (if r.left ≤ 32 then [] else [{ r with next := r.next + 32, left := r.left - 32 }]) ++ rest },
        riu := { s.riu with capQueue := s.riu.capQueue ++ [buildFrame r.dest s.ownByte kindCapture
          ([byte r.chan.val] ++ bytes16 r.next ++ [byte n] ++
            (((s.chan r.chan).rows.drop r.next).take n).flatMap rowBytes)] } }))

/-! ### The setting-group stack, the fire level, the season lock (R90 to R108) -/

/-- R95 to R98: SELECT_BASE_GROUP, PUSH_MANUAL and POP_MANUAL by their checks, the stack each leaves, and that a change which leaves
the active group as it was has no further effect. -/
def Obligations.StackOpsAct : Prop :=
  let changed (c : Instr) (s u : State) (l : List StackEntry) : Prop :=
    ∃ t : State, exec c s = .next (t.opDone okAnswer) ∧ t.fru = { s.fru with stack := l } ∧
      OnlySlots { u with fru := { s.fru with stack := l } } t ∧ SameReasons allReasons s t ∧
      (activeOf l = activeOf s.fru.stack → t = { u with fru := { s.fru with stack := l } })
  (∀ (s : State) (p : Progress) (imm : BitVec 12), Runs s (.selectBaseGroup imm) p →
    let v := (valueOf p imm).toNat
    let refused (c : ResultCode) : Prop := exec (.selectBaseGroup imm) s = .next ((consumed s p).opDone (refuse c))
    (5 < v → refused .badArg) ∧
    (∀ g : GroupNo, g.val = v → s.groupValid g = false → refused .invalidTable) ∧
    (∀ g : GroupNo, g.val = v → s.groupValid g = true → changed (.selectBaseGroup imm) s (consumed s p)
      (s.fru.stack.map (fun e => if e.origin = .base then { e with group := g } else e)))) ∧
  (∀ (s : State) (p : Progress) (imm : BitVec 12), Runs s (.pushManual imm) p →
    let v := (valueOf p imm).toNat
    let refused (c : ResultCode) : Prop := exec (.pushManual imm) s = .next ((consumed s p).opDone (refuse c))
    let has (o : Origin) (l : List StackEntry) : Prop := ∃ e ∈ l, e.origin = o
    (5 < v → refused .badArg) ∧
    (∀ g : GroupNo, g.val = v → s.groupValid g = false → refused .invalidTable) ∧
    (∀ g : GroupNo, g.val = v → s.groupValid g = true →
      let new : StackEntry := { origin := .manual, group := g, placed := s.stamp }
      let changed := changed (.pushManual imm) s (consumed s p)
      (has .manual s.fru.stack →
        changed (s.fru.stack.map (fun e => if e.origin = .manual then { e with group := g } else e))) ∧
      (¬ has .manual s.fru.stack → s.fru.seasonLock = true → ∀ l f r, s.fru.stack = l ++ f :: r → f.origin = .fire →
        ¬ has .fire l → changed (l ++ new :: f :: r)) ∧
      (¬ has .manual s.fru.stack → s.fru.seasonLock = false ∨ ¬ has .fire s.fru.stack →
        (¬ has .hunt s.fru.stack → changed (s.fru.stack ++ [new])) ∧
        (∀ l h, s.fru.stack = l ++ [h] → h.origin = .hunt → ¬ has .hunt l → changed (l ++ [new, h]))))) ∧
  (∀ (s : State) (p : Progress), Runs s .popManual p →
    let has : Prop := ∃ e ∈ s.fru.stack, e.origin = .manual
    (¬ has → exec .popManual s = .next (s.opDone (refuse .state))) ∧
    (has → changed .popManual s s (s.fru.stack.filter (fun e => e.origin != .manual))))

/-- R90, R91, R92, R101 and R102: SET_FIRE_LEVEL and the TFB pin form the effective level as the greater of the two levels; where it
changes, each bay carries FIRE as the block mask of the new record in force says; where it does not, nothing follows.  That a
change of the pin is followed while the part is held in reset, with no other effect, is the model's choice (log entry 8,
DEDUCED). -/
def Obligations.FireLevelFormed : Prop :=
  let formed (s u t : State) (commanded pin : Level) : Prop :=
    let new := max commanded pin
    let v : State := { u with fru := { s.fru with commanded := commanded, pinLevel := pin, effective := new } }
    (new = s.fru.effective ∨ s.mgu.part = .bypass → t = v) ∧
    (new ≠ s.fru.effective → s.mgu.part ≠ .bypass →
      OnlyHunt v t ∧ SameReasons [.manual, .localMode, .interlock, .capability] s t ∧
      ∀ b, (t.rcl b).block.fire = (s.runs b && (s.fru.fireMap.look new).mask.getLsbD b.val))
  (∀ (s : State) (p : Progress) (imm : BitVec 12), Runs s (.setFireLevel imm) p →
    (4 < (valueOf p imm).toNat → exec (.setFireLevel imm) s = .next ((consumed s p).opDone (refuse .badArg))) ∧
    (∀ l : Level, l.val = (valueOf p imm).toNat →
      ∃ t : State, exec (.setFireLevel imm) s =
          .next (t.opDone { code := .ok, value := BitVec.ofNat 32 (max l s.fru.pinLevel).val }) ∧
        formed s (consumed s p) t l s.fru.pinLevel)) ∧
  (∀ (s : State) (asserted : Bool),
    let u : State := { s with pins := { s.pins with tfb := asserted } }
    (s.pins.resetHeld = true → exec (.tfbPinChange asserted) s = .next u) ∧
    (s.pins.resetHeld = false → ∃ t : State, exec (.tfbPinChange asserted) s = .next t ∧
      formed s u t s.fru.commanded (if asserted then 4 else 0)))

/-- R106 and R108: SEASON_LOCK engages the lock and moves a MANUAL entry that stands above FIRE to directly below it; SEASON_UNLOCK
disengages it at effective level OFF alone. -/
def Obligations.SeasonLockJudged : Prop :=
  (∀ (s : State) (p : Progress), Runs s .seasonLock p →
    (s.fru.seasonLock = true → exec .seasonLock s = .next (s.opDone okAnswer)) ∧
    (s.fru.seasonLock = false →
      let engaged (l : List StackEntry) : Prop := ∃ t : State, exec .seasonLock s = .next (t.opDone okAnswer) ∧
        t.fru = { s.fru with seasonLock := true, stack := l } ∧
        OnlySlots { s with fru := { s.fru with seasonLock := true, stack := l } } t ∧ SameReasons allReasons s t ∧
        (activeOf l = activeOf s.fru.stack → t = { s with fru := { s.fru with seasonLock := true, stack := l } })
      let none (o : Origin) (l : List StackEntry) : Prop := ∀ e ∈ l, e.origin ≠ o
      (∀ l f m r, s.fru.stack = l ++ f :: m :: r → f.origin = .fire → m.origin = .manual → none .manual (l ++ r) →
        none .fire (l ++ r) → engaged (l ++ m :: f :: r)) ∧
      (none .manual s.fru.stack ∨ none .fire s.fru.stack → engaged s.fru.stack) ∧
      (∀ l m r, s.fru.stack = l ++ m :: r → m.origin = .manual → none .manual l → ¬ none .fire r →
        engaged s.fru.stack))) ∧
  (∀ (s : State) (p : Progress), Runs s .seasonUnlock p →
    (s.fru.seasonLock = false → exec .seasonUnlock s = .next (s.opDone okAnswer)) ∧
    (s.fru.seasonLock = true → s.fru.effective ≠ 0 → exec .seasonUnlock s = .next (s.opDone (refuse .state))) ∧
    (s.fru.seasonLock = true → s.fru.effective = 0 → exec .seasonUnlock s =
      .next (({ s with fru := { s.fru with seasonLock := false } } : State).opDone okAnswer)))

/-! ### Bay switching and blocking (R51, R52, R58, R59, R82, R84 to R86) -/

/-- R51, R52, R58, R59, R84 and R85: the four switching ops.  A refused one changes nothing; an accepted one places a MANAGEMENT request at
the slot of the bay context, issued at once with the next tag and its BAYCMD frame where the slot is FREE with nothing
pending; no other slot and no other bay changes. -/
def Obligations.SwitchingActs : Prop :=
  let pendNone (x : Slot) : Prop := x.pend = Pending.none
  -- what R51 and the chapter's own checks let through
  let open_ (s : State) (n : Rec) (cmd : Command) : Prop :=
    (s.cap n).inService = true ∧ (s.status n).localMode = false ∧ (s.slot n).pend.management = none ∧
    (cmd = .closing → s.mgu.part ≠ .standdown ∧ (s.status n).interlock = false)
  let ms (cmd : Command) : Nat := match cmd with | .opening => 120 | .closing => 250 | _ => 1000
  let placed (c : Instr) (s u : State) (n : Rec) (cmd : Command) : Prop :=
    ∃ t : State, exec c s = .next (t.opDone okAnswer) ∧ OnlySlots u t ∧ OnlyAt n s t ∧ SameReasons allReasons s t ∧
      (cmd ≠ .indicate .noChange → (s.slot n).state.isFree = true → pendNone (s.slot n) →
        let tag := if (s.slot n).lastTag = 255 then 1 else (s.slot n).lastTag + 1
        t.slot n = { s.slot n with
          lastTag := tag,
          state := .inFlight { cmd := cmd, tag := tag, cls := .management, issued := s.mono, tripAttached := false,
                               timer := ms cmd } } ∧
        t.riu.outPlaces.look n = some (buildFrame (byte ((s.cap n).addr.getD 0)) s.ownByte kindBaycmd
          [byte tag, byte cmd.kindCode, byte cmd.argCode])) ∧
      (cmd = .indicate .noChange → (s.slot n).state.isFree = true → pendNone (s.slot n) →
        t.slot n = { s.slot n with lastResult := some { cls := .management, cmd := cmd, tag := none, outcome := .done,
                                                        time := s.stamp } }) ∧
      ((s.slot n).state.isFree = false → cmd ≠ .opening →
        t.slot n = { s.slot n with pend := { (s.slot n).pend with management := some cmd } })
  (∀ (s : State) (p : Progress), Runs s .bayOpen p →
    (open_ s p.context .opening → placed .bayOpen s s p.context .opening) ∧
    ((s.cap p.context).inService = false → exec .bayOpen s = .next (s.opDone (refuse .state))) ∧
    ((s.cap p.context).inService = true → (s.status p.context).localMode = true →
      exec .bayOpen s = .next (s.opDone (refuse .localMode)))) ∧
  (∀ (s : State) (p : Progress) (b : Bay), Runs s .bayOpen p → p.context = bayRec b → open_ s (bayRec b) .opening →
    (s.slot (bayRec b)).state.isFree = true → pendNone (s.slot (bayRec b)) →
    ∃ t : State, exec .bayOpen s = .next (t.opDone okAnswer) ∧
      ((s.rcl b).state = .dead → t.rcl b =
        { s.rcl b with state := .idleOpen, shots := 0, deadTimer := none, springTimer := none }) ∧
      ((s.rcl b).state = .closing .waiting → t.rcl b = { s.rcl b with state := .idleOpen, shots := 0 }) ∧
      ((s.rcl b).state ≠ .dead → (s.rcl b).state ≠ .closing .waiting → t.rcl b = s.rcl b)) ∧
  (∀ (s : State) (p : Progress), Runs s .bayClose p →
    let passes : Prop := ∀ b, p.context = bayRec b → (s.rcl b).state = .idleOpen ∨ ∃ c, (s.rcl b).state = .lockout c
    (¬ passes → exec .bayClose s = .next (s.opDone (refuse .state))) ∧
    (passes → (s.cap p.context).inService = true → s.mgu.part = .standdown →
      exec .bayClose s = .next (s.opDone (refuse .standdown))) ∧
    (passes → open_ s p.context .closing → placed .bayClose s s p.context .closing)) ∧
  (∀ (s : State) (p : Progress) (imm : BitVec 12), Runs s (.bayIndicate imm) p →
    let v := (valueOf p imm).toNat
    let refused (c : ResultCode) : Prop := exec (.bayIndicate imm) s = .next ((consumed s p).opDone (refuse c))
    (p.context = 8 → refused .notCapable) ∧
    (p.context ≠ 8 → 3 < v → refused .badArg) ∧
    (p.context ≠ 8 → ∀ a : LampArg, a.code = v → open_ s p.context (.indicate a) →
      placed (.bayIndicate imm) s (consumed s p) p.context (.indicate a))) ∧
  (∀ (s : State) (p : Progress) (imm : BitVec 12), Runs s (.bayInterlock imm) p →
    let v := (valueOf p imm).toNat
    let refused (c : ResultCode) : Prop := exec (.bayInterlock imm) s = .next ((consumed s p).opDone (refuse c))
    (p.context = 8 ∨ (s.cap p.context).hasInterlock = false → refused .notCapable) ∧
    (p.context ≠ 8 → (s.cap p.context).hasInterlock = true → 1 < v → refused .badArg) ∧
    (p.context ≠ 8 → (s.cap p.context).hasInterlock = true → v ≤ 1 → open_ s p.context (.interlock (v == 1)) →
      placed (.bayInterlock imm) s (consumed s p) p.context (.interlock (v == 1))))

/-- R82: BLOCK_RANGE adds MANUAL to the clipped range of bays and UNBLOCK_RANGE removes it there, each answering the number of bays
in the clipped range, and no other reason changes.  R81: an addition locks out, with PROTECTION_BLOCKED, a bay in DEAD or in
CLOSING with close phase WAITING, and in any other state it is stored and nothing more; a reason held already is not added
again. -/
def Obligations.BlockRangeActs : Prop :=
  (∀ (s : State) (p : Progress) (imm : BitVec 12), Runs s (.blockRange imm) p →
    let base := (valueOf p imm).toNat / 16
    let count := (valueOf p imm).toNat % 16
    (7 < base ∨ count = 0 ∨ 8 < count → exec (.blockRange imm) s = .next ((consumed s p).opDone (refuse .badArg))) ∧
    (base ≤ 7 → 1 ≤ count → count ≤ 8 →
      ∃ t : State, exec (.blockRange imm) s = .next (t.opDone { code := .ok, value := BitVec.ofNat 32 (min count (8 - base)) }) ∧
        OnlySlots (consumed s p) t ∧ SameReasons [.fire, .hunt, .localMode, .interlock, .capability] s t ∧
        ∀ b, (t.rcl b).block.manual = (decide (base ≤ b.val ∧ b.val < base + count) || (s.rcl b).block.manual) ∧
          let q := s.rcl b
          let added : Prop := base ≤ b.val ∧ b.val < base + count ∧ q.block.manual = false
          let cancels : Prop := s.runs b = true ∧ (q.state = .dead ∨ q.state = .closing .waiting)
          (¬ added → t.rcl b = q ∧ t.slot (bayRec b) = s.slot (bayRec b)) ∧
          (added → ¬ cancels → t.rcl b = { q with block := { q.block with manual := true } } ∧
            t.slot (bayRec b) = s.slot (bayRec b)) ∧
          (added → cancels → (t.slot (bayRec b)).pend.reclose = none ∧
            t.rcl b = { q with state := .lockout .protectionBlocked, deadTimer := none, springTimer := none,
                               reclaimTimer := .stopped, block := { q.block with manual := true } }))) ∧
  (∀ (s : State) (p : Progress) (imm : BitVec 12), Runs s (.unblockRange imm) p →
    let base := (valueOf p imm).toNat / 16
    let count := (valueOf p imm).toNat % 16
    (7 < base ∨ count = 0 ∨ 8 < count → exec (.unblockRange imm) s = .next ((consumed s p).opDone (refuse .badArg))) ∧
    (base ≤ 7 → 1 ≤ count → count ≤ 8 →
      ∃ t : State, exec (.unblockRange imm) s = .next (t.opDone { code := .ok, value := BitVec.ofNat 32 (min count (8 - base)) }) ∧
        t = { consumed s p with rcc := t.rcc } ∧
        ∀ b, t.rcl b = { s.rcl b with block := { (s.rcl b).block with
          manual := !decide (base ≤ b.val ∧ b.val < base + count) && (s.rcl b).block.manual } }))

/-- R86: RESET_LOCKOUT takes the context bay out of LOCKOUT to its idle state with shot count 0, and is refused at context 8 and on
a bay not in LOCKOUT. -/
def Obligations.ResetLockoutActs : Prop :=
  ∀ (s : State) (p : Progress), Runs s .resetLockout p →
    (p.context = 8 → exec .resetLockout s = .next (s.opDone (refuse .notCapable))) ∧
    (∀ b, p.context = bayRec b →
      ((∀ c, (s.rcl b).state ≠ .lockout c) → exec .resetLockout s = .next (s.opDone (refuse .state))) ∧
      (∀ c, (s.rcl b).state = .lockout c → ∃ t : State, exec .resetLockout s = .next (t.opDone okAnswer) ∧
        t.rcl b = { s.rcl b with
          state := if (s.rcl b).lastDefinite = some .closed then .idleClosed else .idleOpen, shots := 0 } ∧
        OnlySlots s t ∧ OnlyAt (bayRec b) s t))

/-- R64: ACK_BREAKER_FAIL clears the backup flag, and nothing else, where it is set and slot 8 has no command in flight. -/
def Obligations.BreakerFailAcknowledged : Prop :=
  ∀ (s : State) (p : Progress), Runs s .ackBreakerFail p →
    (s.bcu.backupFlag = false → exec .ackBreakerFail s = .next (s.opDone (refuse .state))) ∧
    (s.bcu.backupFlag = true → (s.slot 8).state ≠ .free → exec .ackBreakerFail s = .next (s.opDone (refuse .busy))) ∧
    (s.bcu.backupFlag = true → (s.slot 8).state = .free → exec .ackBreakerFail s =
      .next (({ s with bcu := { s.bcu with backupFlag := false } } : State).opDone okAnswer))

/-- R65: CLEAR_STANDDOWN returns the part from STANDDOWN to ACTIVE, and changes nothing else, where the backup flag is clear. -/
def Obligations.StanddownCleared : Prop :=
  ∀ (s : State) (p : Progress), Runs s .clearStanddown p →
    (s.mgu.part ≠ .standdown → exec .clearStanddown s = .next (s.opDone (refuse .state))) ∧
    (s.mgu.part = .standdown → s.bcu.backupFlag = true →
      exec .clearStanddown s = .next (s.opDone (refuse .state))) ∧
    (s.mgu.part = .standdown → s.bcu.backupFlag = false → exec .clearStanddown s =
      .next (({ s with mgu := { s.mgu with part := .active } } : State).opDone okAnswer))

/-! ### The hunt's ops (R129 to R131, R142) -/

/-- R130 and R131: START_HUNT by its checks; an accepted one makes the start actions, with the snapshot directions, the HUNT
entry, HUNT in the block set of every bay in service and HUNT_START, and selects the first candidate by the tests of R132
(HuntStarts).  R129 and R142: ABORT_HUNT in each state of the hunt, with what the abort of a running hunt leaves (HuntAborts). -/
def Obligations.HuntOpsAct : Prop :=
  (∀ (s : State) (p : Progress), Runs s .startHunt p →
    (s.mgu.part = .standdown → exec .startHunt s = .next (s.opDone (refuse .standdown))) ∧
    (s.mgu.part ≠ .standdown →
      s.mgu.part ≠ .active ∨ s.hnc.state ≠ .idle ∨ s.efu.nvd.state ≠ .displaced →
      exec .startHunt s = .next (s.opDone (refuse .state))) ∧
    (s.mgu.part = .active → s.hnc.state = .idle → s.efu.nvd.state = .displaced →
      ∃ t : State, exec .startHunt s = .next (t.opDone okAnswer) ∧ HuntStarts s .startHunt t)) ∧
  (∀ (s : State) (p : Progress), Runs s .abortHunt p →
    (s.hnc.state = .idle → exec .abortHunt s = .next (s.opDone (refuse .state))) ∧
    (s.hnc.state = .waiting → exec .abortHunt s =
      .next (({ s with hnc := { s.hnc with state := .idle, timer := none } } : State).opDone okAnswer)) ∧
    (s.hnc.state = .aborting → exec .abortHunt s = .next (s.opDone okAnswer)) ∧
    (s.hnc.state ≠ .idle → s.hnc.state ≠ .waiting → s.hnc.state ≠ .aborting →
      ∃ t : State, exec .abortHunt s = .next (t.opDone okAnswer) ∧ OnlyHunt s t ∧
        SameReasons [.fire, .manual, .localMode, .interlock, .capability] s t ∧
        (t.hnc.state = .aborting ∨ t.hnc.state = .idle) ∧
        (∀ b, s.underTest ≠ some b → (t.rcl b).block.hunt = false) ∧
        ∀ b, s.underTest = some b → HuntAborts s .abortedMgmt b t))

/-! ### Captures, events, time (R157, R158, R167, R168, R173, R197) -/

/-- R157 and R158: ARM_CAPTURE by its checks in order, and DISARM_CAPTURE by the channel's state.  R162: how a RUNNING channel that is
disarmed ends: its CAPTURE_DONE, and the end of a hold.  R160: the rows a completed instant adds, and the end of a channel that
reaches its target. -/
def Obligations.CaptureArmed : Prop :=
  (∀ (s : State) (p : Progress) (imm : BitVec 12), Runs s (.armCapture imm) p →
    let v := (valueOf p imm).toNat
    let answers (a : Answer) : Prop := exec (.armCapture imm) s = .next ((consumed s p).opDone a)
    (3 < v → answers (refuse .badArg)) ∧
    (∀ k : Chan, k.val = v →
      let c := s.chan k
      let busy : Prop := (∃ r ∈ s.recd.readouts, r.chan = k) ∨
        ((c.state = .done ∨ c.state = .disarmed) ∧ c.holding ≠ none)
      (busy → answers (refuse .busy)) ∧
      (¬ busy → c.state = .running → answers (refuse .state)) ∧
      (¬ busy → c.state ≠ .running → c.length < c.pre + 1 → answers (refuse .badArg)) ∧
      (¬ busy → c.state = .armed → c.pre + 1 ≤ c.length → answers okAnswer) ∧
      (¬ busy → c.state = .disarmed ∨ c.state = .done → c.pre + 1 ≤ c.length → exec (.armCapture imm) s =
        .next (({ consumed s p with recd := { s.recd with chans := s.recd.chans.put k {
            c with rows := [], truncated := false, target := c.length * 32, state := .armed } } } : State).opDone
            okAnswer)))) ∧
  (∀ (s : State) (p : Progress) (imm : BitVec 12), Runs s (.disarmCapture imm) p →
    let v := (valueOf p imm).toNat
    (3 < v → exec (.disarmCapture imm) s = .next ((consumed s p).opDone (refuse .badArg))) ∧
    (∀ k : Chan, k.val = v →
      let c := s.chan k
      (c.state = .disarmed → exec (.disarmCapture imm) s = .next ((consumed s p).opDone okAnswer)) ∧
      (c.state = .armed ∨ c.state = .done → exec (.disarmCapture imm) s =
        .next (({ consumed s p with recd := { s.recd with chans := s.recd.chans.put k { c with state := .disarmed } } }
          : State).opDone okAnswer)) ∧
      (c.state = .running → ∃ t : State, exec (.disarmCapture imm) s = .next (t.opDone okAnswer) ∧
        OnlyEvents (consumed s p) t ∧ (c.holding = none → c.reportAtEnd = false →
          t.chan k = { c with state := .done, truncated := true }) ∧
        let ended : Channel := { c with state := .done, truncated := true }
        let u : State := { consumed s p with recd := { s.recd with chans := s.recd.chans.put k ended } }
        let other (j : Chan) (f : Factor) : Prop := j ≠ k ∧ (s.chan j).holding = some f
        (c.holding = none → c.reportAtEnd = true →
          t = u.occur (fCaptureDone k) (1#9 <<< c.bay.val)
            ([byte k.val, byte c.trigger.val] ++ bytes16 c.rows.length ++ [1])) ∧
        (∀ f, c.holding = some f →
          ((∃ j, other j f ∧ (s.chan j).state = .running) → t = u) ∧
          ((∀ j, other j f → (s.chan j).state ≠ .running) →
            (c.reportAtEnd = true → (∀ j, ¬ other j f) → (∀ j, (s.chan j).state ≠ .armed) → f.val ≠ 20 + k.val →
              s.mgu.part ≠ .bypass →
              t.chan k = { ended with holding := none } ∧ (∀ j, j ≠ k → t.chan j = s.chan j) ∧
              t.fac f = { s.fac f with held := false } ∧ (t.fac (fCaptureDone k)).flag = true ∧
              (t.fac (fCaptureDone k)).count = min 255 ((s.fac (fCaptureDone k)).count + 1)) ∧
            (c.reportAtEnd = false → (∀ j, other j f → (s.chan j).reportAtEnd = false) →
              t.chan k = { ended with state := .disarmed, holding := none } ∧
              (∀ j, other j f → t.chan j = { s.chan j with
                holding := none, state := if (s.chan j).state = .done then .disarmed else (s.chan j).state }) ∧
              (∀ j, j ≠ k → ¬ other j f → t.chan j = s.chan j) ∧
              t.fac f = { FactorRecord.cold with enable := (s.fac f).enable, level := (s.fac f).level } ∧
              ∀ g, g ≠ f → t.fac g = s.fac g)))))) ∧
  (∀ (s : State) (b : Bay) (i : Instant),
    let t := s.complete b i
    let ring := s.meu.history.look b
    let on (k : Chan) : Prop := (s.chan k).state = .running ∧ (s.chan k).bay = b
    let kept : State := { s with meu := { s.meu with
      history := s.meu.history.put b ((ring ++ [i]).drop (ring.length + 1 - 128)) } }
    let rows (k : Chan) : List Instant := (s.chan k).rows ++ [i]
    OnlyEvents kept t ∧
    ((∀ k, on k → (rows k).length < (s.chan k).target) →
      t.evu = s.evu ∧ ∀ k, (on k → t.chan k = { s.chan k with rows := rows k }) ∧ (¬ on k → t.chan k = s.chan k)) ∧
    (∀ k, on k → (∀ j, j ≠ k → ¬ on j) → (s.chan k).target ≤ (rows k).length → (s.chan k).holding = none →
      let ended : Channel := { s.chan k with rows := rows k, state := .done, truncated := false }
      let u : State := { kept with recd := { s.recd with chans := s.recd.chans.put k ended } }
      ((s.chan k).reportAtEnd = false → t = u) ∧
      ((s.chan k).reportAtEnd = true →
        t = u.occur (fCaptureDone k) (1#9 <<< b.val)
          ([byte k.val, byte (s.chan k).trigger.val] ++ bytes16 (rows k).length ++ [0]))))

/-- R173: CLEAR_EVENTS clears every factor of its set but for enable and level, ends the holds on it and withdraws its waiting
frame, leaves the other factors alone, and answers how many flags it found set. -/
def Obligations.EventsCleared : Prop :=
  ∀ (s : State) (p : Progress) (imm : BitVec 12), Runs s (.clearEvents imm) p →
    let v := valueOf p imm
    (16777215 < v.toNat → exec (.clearEvents imm) s = .next ((consumed s p).opDone (refuse .badArg))) ∧
    (v.toNat ≤ 16777215 → ∃ t : State,
      exec (.clearEvents imm) s = .next (t.opDone
        { code := .ok,
          value := BitVec.ofNat 32 (allFactors.filter (fun f => v.getLsbD f.val && (s.fac f).flag)).length }) ∧
      OnlyEvents (consumed s p) t ∧
      (∀ f, v.getLsbD f.val = true → t.fac f =
        { flag := false, reported := false, held := false, count := 0, mask := 0, firstTime := none, lastDetail := none,
          capMask := 0, enable := (s.fac f).enable, level := (s.fac f).level } ∧
        ((s.fac f).held = true → ∀ k, (t.chan k).holding ≠ some f) ∧
        (∀ g, t.evu.outSlot = some (f, g) → False)) ∧
      (∀ f, v.getLsbD f.val = false → t.fac f = s.fac f))

/-- R167, R168 and R197: SET_THRESHOLD, SET_REPORT_DEST and SET_TIME store their values, and change nothing else but the event
out-slot, which the first two judge again.  What the out-slot then holds, the frame formed from the records as they stand, is
the model's choice (log entry 17, DEDUCED). -/
def Obligations.ReportSettingsStored : Prop :=
  (∀ (s : State) (p : Progress) (imm : BitVec 12), Runs s (.setThreshold imm) p →
    let v := valueOf p imm
    (7 < v.toNat → exec (.setThreshold imm) s = .next ((consumed s p).opDone (refuse .badArg))) ∧
    (v.toNat ≤ 7 → v.toNat = s.evu.threshold →
      exec (.setThreshold imm) s = .next ((consumed s p).opDone { code := .ok, value := v })) ∧
    (v.toNat ≤ 7 → v.toNat ≠ s.evu.threshold → exec (.setThreshold imm) s = .next (
      let t : State := { consumed s p with evu := { s.evu with threshold := v.toNat } }
      ({ t with evu := { t.evu with outSlot := t.outSlotNow } } : State).opDone { code := .ok, value := v }))) ∧
  (∀ (s : State) (p : Progress) (imm : BitVec 12), Runs s (.setReportDest imm) p →
    let v := (valueOf p imm).toNat
    (63 < v → exec (.setReportDest imm) s = .next ((consumed s p).opDone (refuse .badArg))) ∧
    (v ≤ 63 → v = s.riu.own.toNat → exec (.setReportDest imm) s = .next ((consumed s p).opDone (refuse .conflict))) ∧
    (v ≤ 63 → v ≠ s.riu.own.toNat → exec (.setReportDest imm) s = .next (
      let t : State := { consumed s p with evu := { s.evu with dest := v } }
      ({ t with evu := { t.evu with outSlot := t.outSlotNow } } : State).opDone okAnswer))) ∧
  (∀ (s : State) (p : Progress) (imm : BitVec 12), Runs s (.setTime imm) p →
    exec (.setTime imm) s = .next (({ consumed s p with mgu := { s.mgu with
      cur := some { p with widen := none }, offset := valueOf p imm - s.mono } } : State).opDone
        { code := .ok, value := valueOf p imm - s.mono }))

/-! ### Commissioning and restart (R193 to R195) -/

/-- R193 and R194: COMMISSION moves the part from UNCONFIGURED to ACTIVE with its FIRE reasons and stack in place, or answers the
first of its five checks that fails, with the check's value; DECOMMISSION moves it back and clears sequences, FIRE state, element state and directions. -/
def Obligations.CommissioningActs : Prop :=
  (∀ (s : State) (p : Progress), Runs s .commission p →
    (s.mgu.part ≠ .unconfigured → exec .commission s = .next (s.opDone (refuse .state))) ∧
    (s.mgu.part = .unconfigured → s.roleValid .bus = false →
      exec .commission s = .next (s.opDone { code := .invalidTable, value := 256 })) ∧
    (s.mgu.part = .unconfigured → ∀ v, s.commissionFailure = some v →
      exec .commission s = .next (s.opDone { code := .invalidTable, value := BitVec.ofNat 32 v })) ∧
    (s.mgu.part = .unconfigured → s.commissionFailure = none →
      ∃ t : State, exec .commission s = .next (t.opDone okAnswer) ∧ t.mgu = { s.mgu with part := .active } ∧
        OnlyHunt { s with mgu := { s.mgu with part := .active } } t ∧ t.hnc = s.hnc ∧
        SameReasons [.hunt, .manual, .localMode, .interlock, .capability] s t ∧
        t.fru.stack = ({ s with mgu := { s.mgu with part := .active } } : State).fireStep.1 ∧
        ∀ b, (t.rcl b).block.fire = ((s.cap (bayRec b)).inService && s.fireRecord.mask.getLsbD b.val) ∧
          ((s.cap (bayRec b)).inService = true → (t.rcl b).shots = 0 ∧
            (t.rcl b).state = if (s.rcl b).lastDefinite = some .closed then .idleClosed else .idleOpen))) ∧
  -- the five checks, in order
  (∀ (s : State) (p : Progress), Runs s .commission p → s.mgu.part = .unconfigured →
    let answers (v : Nat) : Prop := exec .commission s = .next (s.opDone { code := .invalidTable, value := BitVec.ofNat 32 v })
    let sourced (r : Role) : Prop := ∃ e, (s.src e).inUse = true ∧ (s.src e).role = some r
    let one : Prop := (∃ e, (s.src e).inUse = true ∧ (s.src e).role = some .bus ∧ (s.ctx e).state = .valid) ∧
      ∃ b, sourced (.bay b)
    let served (b : Bay) : Prop := (s.cap (bayRec b)).inService = true → sourced (.bay b)
    let mapped (l : Level) : Prop := ∀ g, (s.fru.fireMap.look l).group = some g → s.groupValid g = true
    let planned (k : Fin 8) : Prop := ∀ b, (s.hnc.table.plan.look k).bay = some b → (s.cap (bayRec b)).inService = true
    (¬ one → answers 256) ∧
    (one → ∀ b, ¬ served b → (∀ c, c < b → served c) → answers (2 * 256 + b.val)) ∧
    (one → (∀ b, served b) → ∀ e rest, s.fru.stack = e :: rest → e.origin = .base →
      (s.groupValid e.group = false → answers (3 * 256 + e.group.val)) ∧
      (s.groupValid e.group = true →
        (∀ l, ¬ mapped l → (∀ m, m < l → mapped m) → answers (4 * 256 + l.val)) ∧
        ((∀ l, mapped l) →
          (∀ k, ¬ planned k → (∀ j, j < k → planned j) → answers (5 * 256 + k.val)) ∧
          ((∀ k, planned k) → s.commissionFailure = none))))) ∧
  (∀ (s : State) (p : Progress), Runs s .decommission p →
    let refused (c : ResultCode) : Prop := exec .decommission s = .next (s.opDone (refuse c))
    (s.mgu.part = .standdown → refused .state) ∧
    (s.mgu.part ≠ .standdown → s.hnc.state ≠ .idle → refused .busy) ∧
    (s.mgu.part ≠ .standdown → s.hnc.state = .idle → s.fru.seasonLock = true → refused .locked) ∧
    (s.mgu.part ≠ .standdown → s.mgu.part ≠ .active → s.hnc.state = .idle → s.fru.seasonLock = false → refused .state) ∧
    (s.mgu.part = .active → s.hnc.state = .idle → s.fru.seasonLock = false →
      ∃ t : State, exec .decommission s = .next (t.opDone okAnswer) ∧
        OnlyMeasures { s with mgu := { s.mgu with part := .unconfigured } } t ∧ t.mgu.part = .unconfigured ∧
        t.meu = s.meu ∧ t.bcu.status = s.bcu.status ∧ t.bcu.backupFlag = s.bcu.backupFlag ∧
        t.fru.stack = s.fru.stack.filter (fun e => e.origin != .fire) ∧
        t.efu = { direction := Vector.replicate 8 .unavailable, nvd := { state := .normal, timing := 0, confirm := 0 } } ∧
        SameReasons [.localMode, .interlock, .capability] s t ∧
        ∀ b, (t.rcl b).block.fire = false ∧ (t.rcl b).block.hunt = false ∧ (t.rcl b).block.manual = false ∧
          (t.rcl b).shots = 0 ∧
          (t.rcl b).state = (if (s.rcl b).lastDefinite = some .closed then .idleClosed else .idleOpen) ∧
          t.elem b = { ptoc := 0, etoc := 0, phi := 0, sef := 0, latch := (s.elem b).latch }))

/-- R195: RESTART is refused in STANDDOWN and while a hunt is not IDLE; an accepted one ends the request, places its reply
with NOT_ATTEMPTED for every op left, and puts every block to its warm-restart values: the sources and evaluations (R2, R18),
the elements (R39), the directions and the NVD element (R112, R119), the slots, the bay status and the backup flag (R66), the
reclose records with their lamp requests (R88), the fire regime with its stack and its FIRE reasons (R110, R101), the hunt
(R127), the records, the segments and the capture channels (R148, R153, R163, R164), the factors and the event out-slot
(R174), and the ring (R185). -/
def Obligations.RestartActs : Prop :=
  ∀ (s : State) (p : Progress), Runs s .restart p →
    (s.mgu.part = .standdown → exec .restart s = .next (s.opDone (refuse .state))) ∧
    (s.mgu.part ≠ .standdown → s.hnc.state ≠ .idle → exec .restart s = .next (s.opDone (refuse .busy))) ∧
    (s.mgu.part ≠ .standdown → s.hnc.state = .idle →
      let entries := p.entries ++ [({ code := .ok, value := 0 } : ReplyEntry)] ++
        (p.ops.drop 1).map (fun _ => ({ code := .notAttempted, value := 0 } : ReplyEntry))
      let reply := buildFrame p.src s.ownByte kindReply ({ p with entries := entries } : Progress).payload
      let pin : Level := if s.pins.tfb then 4 else 0
      let level := max s.fru.commanded pin
      let base := s.fru.stack.filter (fun e => e.origin != .hunt)
      let lost (b : Bay) : Prop := (s.rcl b).state = .dead ∨ (s.rcl b).state = .reclaim ∨ ∃ c, (s.rcl b).state = .closing c
      ∃ t : State, exec .restart s = .next t ∧ t.mgu = { s.mgu with cur := none } ∧ t.mono = s.mono ∧ t.pins = s.pins ∧
        t.pending = s.pending ∧
        -- R185
        t.riu = { s.riu with inUp := false, inTimer := none, outPlaces := t.riu.outPlaces, replies := s.riu.replies ++ [reply],
                             capQueue := [] } ∧
        -- R2, R18
        t.meu.table = s.meu.table ∧ t.meu.latestBus = none ∧
        (∀ e, t.ctx e = { state := .absent, lastPos := none, missing := 0, fill := 0, lastTag := none, silence := none,
                          window := [] }) ∧
        (∀ b, t.meu.history.look b = [] ∧ t.meu.waiting.look b = [] ∧
          -- R39, R112
          t.elem b = { ptoc := 0, etoc := 0, phi := 0, sef := 0, latch := none } ∧ t.dir b = .unavailable) ∧
        t.pru.groups = s.pru.groups ∧ t.pru.curves = s.pru.curves ∧
        -- R119
        t.efu.nvd = { state := .normal, timing := 0, confirm := 0 } ∧
        -- R66: the slots and the bay status; R88: the lamp request for a lockout the restart has made
        t.bcu.cap = s.bcu.cap ∧ t.bcu.backupFlag = false ∧
        (∀ n, let x := t.status n
          x.position = .unknown ∧ x.localMode = false ∧ x.interlock = false ∧ x.spring = false ∧ x.reported = .unknown ∧
          x.indicator = (s.status n).indicator ∧ x.presence = false ∧ x.silence = none ∧
          let blinks : Prop := (∃ b, n = bayRec b ∧ lost b) ∧ (s.cap n).inService = true
          let last := (s.slot n).lastTag
          let tag := if last = 255 then 1 else last + 1
          (blinks → t.riu.outPlaces.look n =
              some (buildFrame (byte ((s.cap n).addr.getD 0)) s.ownByte 0x22 [byte tag, 3, 2]) ∧
            t.slot n = { pend := Pending.none, lastTag := tag, lastResult := none,
                         state := .inFlight { cmd := .indicate .blink, tag := tag, cls := .annunciate, issued := s.mono,
                                              tripAttached := false, timer := 1000 } }) ∧
          (¬ blinks → t.riu.outPlaces.look n = none ∧
            t.slot n = { state := .free, pend := Pending.none, lastTag := last, lastResult := none })) ∧
        -- R88, and R101 for FIRE
        (∀ b, let r := s.rcl b
          t.rcl b = { state := (t.rcl b).state, shots := 0, lastDefinite := r.lastDefinite, deadTimer := none, springTimer := none,
                      reclaimTimer := .stopped,
                      block := { fire := s.mgu.part == .active && (s.cap (bayRec b)).inService &&
                                   (s.fru.fireMap.look level).mask.getLsbD b.val,
                                 hunt := false, manual := r.block.manual, localMode := false, interlock := false,
                                 capability := r.block.capability } } ∧
          (r.state = .idleClosed ∨ r.state = .idleOpen →
            (r.lastDefinite = some .closed → (t.rcl b).state = .idleClosed) ∧
            (r.lastDefinite ≠ some .closed → (t.rcl b).state = .idleOpen)) ∧
          (lost b → (t.rcl b).state = .lockout .protectionBlocked) ∧
          (∀ c, r.state = .lockout c → (t.rcl b).state = .lockout c)) ∧
        -- R110
        t.fru = { s.fru with pinLevel := pin, effective := level, stack := t.fru.stack } ∧
        (s.mgu.part ≠ .active → t.fru.stack = base) ∧
        (s.mgu.part = .active →
          ((s.fru.fireMap.look level).group = none → t.fru.stack = base.filter (fun e => e.origin != .fire)) ∧
          (∀ g, (s.fru.fireMap.look level).group = some g →
            (s.groupValid g = false → t.fru.stack = base) ∧
            (s.groupValid g = true → (∃ e ∈ base, e.origin = .fire) →
              t.fru.stack = base.map (fun e => if e.origin = .fire then { e with group := g } else e)) ∧
            (s.groupValid g = true → (∀ e ∈ base, e.origin ≠ .fire) →
              t.fru.stack = base ++ [{ origin := .fire, group := g, placed := s.stamp }]))) ∧
        -- R127
        t.hnc = { s.hnc with state := .idle, timer := none, current := none, bayOpen := none, restoreOut := false,
                             rearm := true, pendingResult := none, started := t.hnc.started } ∧
        -- R148, R153, R163, R164
        t.recd = { s.recd with latest := t.recd.latest, chans := t.recd.chans, readouts := [] } ∧
        (∀ b, t.recd.latest.look b = none) ∧
        (∀ k, let c := s.chan k
          (c.state = .running → t.chan k = { c with state := .done, truncated := true, holding := none }) ∧
          (c.state ≠ .running → t.chan k = { c with holding := none })) ∧
        -- R174
        t.evu = { s.evu with factors := t.evu.factors, outSlot := none } ∧
        (∀ f, t.fac f = { flag := false, reported := false, held := false, count := 0, mask := 0, firstTime := none,
                          lastDetail := none, capMask := 0, enable := (s.fac f).enable, level := (s.fac f).level }))

/-! ### Resets and the pins (R181, R185, R196) -/

/-- R196 with the cold-reset values the chapters give: every block after a cold reset, every record of every table among it, with
the part's address and its state by the straps.  The pin's level and the waiting commands stay.  While the reset pin is held every command but the release, the
TFB pin's change and the assertion itself leaves the part as it is (log entry 8). -/
def Obligations.ResetsTake : Prop :=
  (∀ (straps : BitVec 6) (s : State), ∃ t : State, exec (.coldReset straps) s = .next t ∧
    t.riu.own = straps ∧ t.mgu.part = (if straps = 0 ∨ straps = 63 then .bypass else .unconfigured) ∧
    t.pins = { tfb := s.pins.tfb, resetHeld := false, straps := straps } ∧ t.mono = 0 ∧ t.mgu.offset = 0 ∧
    t.pending = s.pending ∧ t.mgu.queue = [] ∧ t.mgu.cur = none ∧
    (∀ e, t.src e = { addr := none, role := none, inUse := false } ∧ (t.ctx e).state = .absent ∧ (t.ctx e).window = [] ∧
      (t.ctx e).lastPos = none ∧ (t.ctx e).lastTag = none ∧ (t.ctx e).silence = none ∧ (t.ctx e).missing = 0 ∧
      (t.ctx e).fill = 0) ∧
    t.meu.latestBus = none ∧ (∀ b, t.meu.history.look b = [] ∧ t.meu.waiting.look b = [] ∧ t.recd.latest.look b = none) ∧
    (∀ g b k, (((t.pru.groups.look g).bays.look b).look k) = none) ∧ (∀ c, (t.pru.curves.look c).count = none) ∧
    (∀ g k, (t.pru.groups.look g).station.look k = none) ∧
    (∀ c k, (t.pru.curves.look c).m.look k = none ∧ (t.pru.curves.look c).inc.look k = none) ∧
    (∀ b, t.elem b = { ptoc := 0, etoc := 0, phi := 0, sef := 0, latch := none } ∧ t.dir b = .unavailable ∧
      t.rcl b = { state := .idleOpen, shots := 0, lastDefinite := none,
                  block := { fire := false, hunt := false, manual := false, localMode := false, interlock := false,
                             capability := true },
                  deadTimer := none, springTimer := none, reclaimTimer := .stopped }) ∧
    t.efu.nvd = { state := .normal, timing := 0, confirm := 0 } ∧
    (∀ n, t.cap n = { addr := none, inService := false, recloseCap := false, sefCap := false, hasLocal := false,
                      hasInterlock := false, hasSpring := false } ∧
      t.slot n = { state := .free, pend := Pending.none, lastTag := 0, lastResult := none } ∧
      (t.status n).position = .unknown ∧ (t.status n).indicator = .unknown ∧ (t.status n).presence = false ∧
      t.riu.outPlaces.look n = none) ∧
    t.bcu.backupFlag = false ∧
    t.fru.commanded = 4 ∧ t.fru.effective = 4 ∧ t.fru.pinLevel = (if s.pins.tfb then 4 else 0) ∧ t.fru.seasonLock = false ∧
    t.fru.stack = [{ origin := .base, group := 0, placed := 0 }] ∧
    t.fru.fireMap.look 0 = { group := none, mask := 0, shotCap := 4, fastAll := false, sefCap := 0 } ∧
    t.fru.fireMap.look 1 = { group := none, mask := 0, shotCap := 2, fastAll := false, sefCap := 0 } ∧
    t.fru.fireMap.look 2 = { group := none, mask := 0, shotCap := 1, fastAll := true, sefCap := 0 } ∧
    t.fru.fireMap.look 3 = { group := none, mask := 255, shotCap := 0, fastAll := true, sefCap := 200 } ∧
    t.fru.fireMap.look 4 = { group := none, mask := 255, shotCap := 0, fastAll := true, sefCap := 100 } ∧
    t.hnc.state = .idle ∧ t.hnc.rearm = true ∧ t.hnc.timer = none ∧ t.hnc.current = none ∧ t.hnc.cands = [] ∧
    t.hnc.bayOpen = none ∧ t.hnc.restoreOut = false ∧ t.hnc.pendingResult = none ∧ t.hnc.last = none ∧
    t.hnc.table = { enable := false, group := none, startDelay := 60000, retestDelay := 60000, fireLimit := 3,
                    plan := Vector.replicate 8 { bay := none, dwell := 5000 } } ∧
    t.recd.count = 0 ∧ t.recd.top = 15 ∧ t.recd.nextSeq = 0 ∧ (∀ i, t.recd.ring.look i = none) ∧ t.recd.readouts = [] ∧
    (∀ i, t.recd.segments.look i = { bay := none, xLow := 0, xHigh := 0, segLabel := 0 }) ∧
    (∀ k, (t.chan k).bay.val = k.val ∧
      t.chan k = { trigger := 0, bay := (t.chan k).bay, pre := 1, length := 4, reportAtEnd := true, state := .disarmed,
                   rows := [], target := 128, truncated := false, holding := none }) ∧
    (∀ f, t.fac f = { flag := false, reported := false, held := false, count := 0, mask := 0, firstTime := none,
                      lastDetail := none, capMask := 0, enable := false, level := 0 }) ∧
    t.evu.threshold = 7 ∧ t.evu.dest = 0 ∧ t.evu.outSlot = none ∧
    t.riu.inUp = false ∧ t.riu.inTimer = none ∧ t.riu.checkFail = 0 ∧ t.riu.overrun = 0 ∧ t.riu.fwd = [] ∧
    t.riu.replies = [] ∧ t.riu.capQueue = [] ∧ t.riu.sending = none) ∧
  (∀ s : State, exec .resetPinAsserted s = .next { s with
    pins := { s.pins with resetHeld := true }, riu := { s.riu with sending := none } }) ∧
  (∀ (c : Instr) (s : State), s.pins.resetHeld = true → (∀ straps, c ≠ .coldReset straps) → (∀ a, c ≠ .tfbPinChange a) →
    c ≠ .resetPinAsserted → exec c s = .next s)

/-! ### Frames on the ring (R3 to R6, R43, R44, R54, R55, R176 to R182, R184) -/

/-- R176, R177, R179 and R181: what becomes of a frame that arrives, from its check, its addresses and its kind.  Every arriving
frame refreshes the IN silence timer; a frame built by R184 carries a good check.  R179: a SAMPLE or
BAYSTAT frame for all nodes is used and then forwarded, and one that is dropped has already been used.  R3 and R4: the MEU
ignores a SAMPLE payload of another length; the first SAMPLE for an ABSENT source sets it FILLING and changes nothing else. -/
def Obligations.FrameArrives : Prop :=
  (∀ (dest src kind : Byte) (payload : List Byte), payload.length ≤ 1024 →
    let f := buildFrame dest src kind payload
    f.dest = dest ∧ f.src = src ∧ f.kind = kind ∧ f.payload = payload ∧ f.length.toNat = payload.length ∧
      crc16 (checkedBytes f) = f.check) ∧
  (∀ (s : State) (f : Frame), s.pins.resetHeld = false →
    let u : State := { s with riu := { s.riu with inUp := true, inTimer := some 10, lastIn := s.mono + s.mgu.offset } }
    let own : Byte := s.riu.own.zeroExtend 8
    let goes (t : State) : Prop := exec (.ringFrameReceive f) s = .next t
    let good : Prop := crc16 (checkedBytes f) = f.check ∧ f.length.toNat ≤ 1024 ∧ f.length.toNat = f.payload.length
    let joined : State := { u with riu := { u.riu with fwd := s.riu.fwd ++ [f] } }
    let dropped : State := { u with riu := { u.riu with overrun := min 65535 (s.riu.overrun + 1) } }
    (s.mgu.part = .bypass → s.riu.fwd.length < 8 → goes joined) ∧
    (s.mgu.part = .bypass → 8 ≤ s.riu.fwd.length → goes dropped) ∧
    (s.mgu.part ≠ .bypass →
      (¬ good → goes { u with riu := { u.riu with checkFail := min 65535 (s.riu.checkFail + 1) } }) ∧
      (good → f.src = own → goes u) ∧
      (good → f.src ≠ own → f.dest = own → f.kind ≠ 0x31 → goes u) ∧
      (good → f.src ≠ own → f.dest ≠ own → ¬ (f.kind = 0x11 ∧ f.dest = 63) → ¬ (f.kind = 0x21 ∧ f.dest = 63) →
        (s.riu.fwd.length < 8 → goes joined) ∧
        (8 ≤ s.riu.fwd.length → ∃ t : State, goes t ∧ OnlyEvents dropped t)) ∧
      (good → f.src ≠ own → f.dest ≠ own → f.dest = 63 →
        (f.kind = 0x11 → goes ((u.meuSample f.src f.payload).forward f)) ∧
        (f.kind = 0x21 → goes ((u.bcuBaystat f.src f.payload).forward f))))) ∧
  -- what the forward queue does with a frame: it joins the tail, or is dropped with RING_OVERRUN and detail FORWARD
  (∀ (s : State) (f : Frame),
    (s.riu.fwd.length < 8 → s.forward f = { s with riu := { s.riu with fwd := s.riu.fwd ++ [f] } }) ∧
    (8 ≤ s.riu.fwd.length →
      let dropped : State := { s with riu := { s.riu with overrun := min 65535 (s.riu.overrun + 1) } }
      s.forward f = dropped.occur fRingOverrun 0 [1] ∧ OnlyEvents dropped (s.forward f))) ∧
  -- a SAMPLE frame for all nodes, at the MEU
  (∀ (s : State) (src : Byte) (payload : List Byte), s.pins.resetHeld = false → s.mgu.part ≠ .bypass → src ≠ s.ownByte →
    s.riu.own ≠ 63 → payload.length ≤ 1024 →
    let u : State := { s with riu := { s.riu with inUp := true, inTimer := some 10, lastIn := s.mono + s.mgu.offset } }
    let goes (t : State) : Prop := exec (.sampleFrame 63 src payload) s = .next (t.forward (buildFrame 63 src 0x11 payload))
    goes (u.meuSample src payload) ∧
    (payload.length ≠ 11 → goes u) ∧
    ∀ (e : SrcIx) (p : Pos) (cycle number quality a1 a0 b1 b0 c1 c0 n1 n0 : Byte),
      payload = [cycle, number, quality, a1, a0, b1, b0, c1, c0, n1, n0] → number.toNat < 32 →
      p.val = cycle.toNat * 32 + number.toNat → (s.src e).inUse = true → (s.src e).addr = some src.toNat →
      (∀ f, f < e → (s.src f).inUse = true → (s.src f).addr ≠ some src.toNat) → (s.ctx e).state = .absent →
      let x : Sample := { pos := p, held := false, vals := { a := int16 a1 a0, b := int16 b1 b0, c := int16 c1 c0,
                                                             n := int16 n1 n0 } }
      let filling (n : Nat) (w : List Sample) : State :=
        let c : SourceCtx := { s.ctx e with state := .filling, lastPos := some p, fill := n, window := w }
        { u with meu := { s.meu with ctx := s.meu.ctx.put e c } }
      (quality = 1 → goes (filling 1 [x])) ∧
      (quality ≠ 1 → goes (filling 0 [])))

/-- R178: a management request addressed to the part joins the request queue with its op words and its src address; one whose
form is bad is discarded, and one that finds four requests waiting is dropped and counted. -/
def Obligations.RequestQueued : Prop :=
  ∀ (s : State) (src : Byte) (payload : List Byte), s.pins.resetHeld = false → s.mgu.part ≠ .bypass → src ≠ s.ownByte →
    payload.length ≤ 1024 →
    let u := s.refreshIn
    let goes (t : State) : Prop := exec (.mgmtReqFrame s.ownByte src payload) s = .next t
    (∀ (t1 t0 flags count : Byte) (ops : List Word32), payload = [t1, t0, flags, count] ++ ops.flatMap bytes32 →
      count.toNat = ops.length → 1 ≤ ops.length → ops.length ≤ 32 →
      (s.mgu.queue.length < 4 → goes { u with mgu := { s.mgu with
        queue := s.mgu.queue ++ [{ tag := t1 ++ t0, stop := flags.getLsbD 0, ops := ops, src := src }] } }) ∧
      (4 ≤ s.mgu.queue.length → ∃ t : State, goes t ∧
        OnlyEvents { u with riu := { u.riu with overrun := min 65535 (s.riu.overrun + 1) } } t)) ∧
    (payload.length < 4 → goes u) ∧
    (∀ (t1 t0 flags count : Byte) (rest : List Byte), payload = [t1, t0, flags, count] ++ rest →
      count.toNat = 0 ∨ 32 < count.toNat ∨ rest.length ≠ 4 * count.toNat → goes u)

/-- R3 to R6: a SAMPLE frame for all nodes is given to the source of its src address, and then forwarded (R179; FrameArrives
says how). By the source's state and the step from its last position, the source's context after the frame; no other source's
context changes. R11: at an evaluation point the windows go to the evaluation. R27, R34 to R36 and R53: what the evaluation
of a bay leaves. The direction is judged, each element takes its new value (ElementsStep says which), and where one operates
with the trip latch clear the bay trips: the latch holds the cause, a fault record is written, TRIP occurs, and the slot has
an OPEN that carries the trip. R136, R139, R142 and R143: what the trip does to a running hunt, its own superseded CLOSE
first, and then the abort with ABORTED_TRIP (HuntAborts). That its instant is formed before its evaluation and the direction
judged before the elements run is the model's choice (log entry 24, DEDUCED), and so is the order within the TRIP request (log
entry 11, DEDUCED). -/
def Obligations.SampleTaken : Prop :=
  (∀ (s : State) (src cycle number quality a1 a0 b1 b0 c1 c0 n1 n0 : Byte), s.pins.resetHeld = false →
    s.mgu.part ≠ .bypass → src ≠ s.ownByte → s.riu.own ≠ 63 →
    let payload := [cycle, number, quality, a1, a0, b1, b0, c1, c0, n1, n0]
    let u := s.refreshIn
    -- t is the state after the use, from which the frame is forwarded
    let goes (t : State) : Prop := exec (.sampleFrame 63 src payload) s = .next (t.forward (buildFrame 63 src 0x11 payload))
    ((∀ e, (s.src e).inUse = true → (s.src e).addr ≠ some src.toNat) → goes u) ∧
    (31 < number.toNat → goes u) ∧
    (∀ (e : SrcIx) (p : Pos), p.val = cycle.toNat * 32 + number.toNat → number.toNat < 32 →
      (s.src e).inUse = true → (s.src e).addr = some src.toNat →
      (∀ f, f < e → (s.src f).inUse = true → (s.src f).addr ≠ some src.toNat) →
      let c := s.ctx e
      let x : Sample := { pos := p, held := false, vals := { a := int16 a1 a0, b := int16 b1 b0, c := int16 c1 c0,
                                                             n := int16 n1 n0 } }
      let good : Prop := quality = 1
      let takes (y : SourceCtx) : Prop := ∃ t : State, goes t ∧ OnlyMeasures u t ∧ (∀ f, f ≠ e → t.ctx f = s.ctx f) ∧
        t.ctx e = y
      -- the evaluation tag after a sample of a VALID source: an evaluation point is sample 7, 15, 23 or 31
      let tag := if number.toNat % 8 = 7 then some p else c.lastTag
      -- R4
      (c.state = .absent →
        (good → takes { c with state := .filling, lastPos := some p, fill := 1, window := [x] }) ∧
        (¬ good → takes { c with state := .filling, lastPos := some p, fill := 0, window := [] })) ∧
      -- R5
      (∀ last, c.lastPos = some last → c.state = .filling ∨ c.state = .stale →
        (p = last → goes u) ∧
        (p ≠ last → ¬ good → takes { c with lastPos := some p, fill := 0, window := [] }) ∧
        (p ≠ last → p - last ≠ 1 → good → takes { c with lastPos := some p, fill := 1, window := [x] }) ∧
        (p - last = 1 → good → c.fill < 31 → c.window.length < 32 →
          takes { c with lastPos := some p, fill := c.fill + 1, window := c.window ++ [x] }) ∧
        (p - last = 1 → good → c.fill = 31 → c.window.length = 31 →
          takes { c with state := .valid, lastPos := some p, missing := 0, fill := 32, silence := some 2,
                         window := c.window ++ [x], lastTag := tag })) ∧
      -- R6
      (∀ last, c.lastPos = some last → c.state = .valid →
        let step := (p - last).val
        let run := c.missing + (step - 1) + (if quality = 1 then 0 else 1)
        (step = 0 ∨ 4096 ≤ step → goes u) ∧
        (1 ≤ step → step < 4096 → 3 ≤ run →
          takes { c with state := .stale, lastPos := some p, missing := 0, silence := none,
                         fill := if quality = 1 then 1 else 0, window := if quality = 1 then [x] else [] }) ∧
        (step = 1 → good → run < 3 →
          takes { c with lastPos := some p, missing := 0, silence := some 2, lastTag := tag,
                         window := (c.window ++ [x]).drop (c.window.length - 31) }) ∧
        (step = 1 → ¬ good → run < 3 → ∀ l y, c.window = l ++ [y] →
          takes { c with lastPos := some p, missing := run, silence := some 2, lastTag := tag,
                         window := (c.window ++ [({ pos := p, held := true, vals := y.vals } : Sample)]).drop
                           (c.window.length - 31) }) ∧
        -- with 0, 1 or 2 skipped samples, each held at the last appended values
        (1 ≤ step → step < 4096 → run < 3 → ∀ l y, c.window = l ++ [y] →
          let held (z : Pos) : Sample := { pos := z, held := true, vals := y.vals }
          let skipped := if step = 1 then [] else if step = 2 then [held (last + 1)] else [held (last + 1), held (last + 2)]
          let new := skipped ++ [if quality = 1 then x else held p]
          takes { c with lastPos := some p, missing := if quality = 1 then 0 else run, silence := some 2,
                         lastTag := (((new.map Sample.pos).filter (fun z => z.val % 8 == 7)).getLast?).or c.lastTag,
                         window := (c.window ++ new).drop (c.window.length + new.length - 32) }) ∧
        -- R11, at an evaluation point: m is the part once the sample stands in the windows and its instant is formed
        (step = 1 → good → run < 3 → number.toNat % 8 = 7 →
          let w := (c.window ++ [x]).drop (c.window.length - 31)
          let evaluates (f : State → State) : Prop := ∃ m : State, goes (f m) ∧ OnlyEvents { u with meu := m.meu } m ∧
            m.meu.table = s.meu.table ∧ m.meu.latestBus = s.meu.latestBus ∧
            m.ctx e = { c with lastPos := some p, missing := 0, silence := some 2, lastTag := some p, window := w }
          (∀ b, (s.src e).role = some (.bay b) → evaluates (fun m => m.takeBayEval b (bayEvalOf p w))) ∧
          ((s.src e).role = some .bus → evaluates (fun m => m.takeBusEval (busEvalOf p w))))))) ∧
  (∀ (s : State) (b : Bay) (e : BayEval),
    let t := s.takeBayEval b e
    let x := s.elem b
    let d := t.dir b
    let set := s.setting b
    let judged : Prop := s.runs b = true ∧ s.groupValid s.activeNo = true
    let paired (v : BusEval) : Prop := s.meu.latestBus = some v ∧ (v.tag = e.tag ∨ v.tag = e.tag - 8)
    let untripped (y : Elements) : State := { s with
      recd := { s.recd with latest := s.recd.latest.put b (some { tag := e.tag, ia := e.ia.mag, ib := e.ib.mag, ic := e.ic.mag,
                                                                  inn := e.inn.mag, i0 := e.i0.mag }) },
      efu := { s.efu with direction := s.efu.direction.put b d }, pru := { s.pru with elem := s.pru.elem.put b y } }
    -- R112 to R114
    (judged → ∀ v, paired v → d = directionOf s.activeGroup.nvdPickup (set fDirThreshold) e.inn v.vn) ∧
    (¬ judged ∨ (∀ v, ¬ paired v) → d = .unavailable) ∧
    (s.runs b = false → t = untripped x) ∧
    (s.runs b = true → s.groupValid s.activeNo = false → t = untripped { x with phi := 0 }) ∧
    (judged →
      let i := max e.ia.mag (max e.ib.mag e.ic.mag)
      let cp := s.curveInForce b fPtocCurve fPtocTms fPtocFast fPtocFastTms
      let ce := s.curveInForce b fEtocCurve fEtocTms fEtocFast fEtocFastTms
      let phi := phiStep (set fPhiPickup) i x.phi
      let ptoc := accStep cp.1 cp.2 (set fDecay) (set fPtocPickup) i x.ptoc
      let etoc := accStep ce.1 ce.2 (set fDecay) (set fEtocPickup) e.i0.mag x.etoc
      -- R116: the SEF condition, with mode NONDIR 1 and fallback NONDIR 0
      let condition : Prop := (s.cap (bayRec b)).sefCap = true ∧ set fSefPickup ≠ 0 ∧ set fSefPickup ≤ e.inn.mag ∧
        (set fSefMode = 1 ∨ d = .forward ∨ (d = .unavailable ∧ set fSefFallback = 0))
      ∀ met : Bool, (met = true ↔ condition) →
        let sef := sefStep met (s.effSefDelay b) x.sef
        let y : Elements := { x with phi := phi.1, ptoc := ptoc.1, etoc := etoc.1, sef := sef.1 }
        let cause : Option TripCause :=
          if phi.2 then some .phi else if ptoc.2 then some .ptoc else if etoc.2 then some .etoc else if sef.2 then some .sef
          else none
        let operated : Nat := (if phi.2 then 1 else 0) + (if ptoc.2 then 2 else 0) + (if etoc.2 then 4 else 0) +
          (if sef.2 then 8 else 0)
        (cause = none ∨ x.latch ≠ none → t = untripped y) ∧
        (∀ c, cause = some c → x.latch = none →
          let k := s.slot (bayRec b)
          let tag := if k.lastTag = 255 then 1 else k.lastTag + 1
          let trip : Flight := { cmd := .opening, tag := tag, cls := .trip, issued := s.mono, tripAttached := true, timer := 120 }
          let r := s.fac fTrip
          t.elem b = { y with latch := some c } ∧ OnlyMeasures s t ∧ t.recd.latest = (untripped y).recd.latest ∧
          -- R150 to R152: the record
          t.recd.top = s.recd.top + 1 ∧ t.recd.nextSeq = s.recd.nextSeq + 1 ∧ t.recd.count = min 16 (s.recd.count + 1) ∧
          (∃ z, t.recd.ring.look t.recd.top = some z ∧ z.seq = s.recd.nextSeq ∧ z.stamp = s.stamp ∧ z.bay = b ∧
            z.cause = c.asRecord ∧ z.shots = (s.rcl b).shots ∧ z.group = s.activeNo ∧ z.level = s.fru.effective ∧
            z.tag = some e.tag ∧ z.ia = e.ia.mag ∧ z.ib = e.ib.mag ∧ z.ic = e.ic.mag ∧ z.inn = e.inn.mag ∧ z.i0 = e.i0.mag ∧
            z.direction = d ∧ (∀ v, paired v → z.vn = some v.vn.mag) ∧ ((∀ v, ¬ paired v) → z.vn = none)) ∧
          -- R53: the TRIP request at the slot, in m
          let m := ((untripped y).setElem b { y with latch := some c }).tripRequest (bayRec b)
          let x := m.slot (bayRec b)
          (k.state = .free → k.pend = Pending.none → x = { k with lastTag := tag, state := .inFlight trip }) ∧
          (∀ f, k.state = .inFlight f → f.cmd = .opening → x.state = .inFlight { f with tripAttached := true }) ∧
          (∀ f, k.state = .echoed f → f.cmd = .opening → x.state = .echoed { f with tripAttached := true }) ∧
          (∀ f, k.state.flight = some f → f.cmd ≠ .opening → x.state = .inFlight trip ∧ x.lastTag = tag) ∧
          (x.pend.hunt ≠ some .closing ∧ x.pend.reclose ≠ some .closing ∧ x.pend.management ≠ some .closing) ∧
          -- then the trip at the hunt (R34, R142): its own superseded CLOSE first (R136, R139, R143), then the abort
          let h := s.hnc
          let hunts : Prop := h.state = .opening ∨ h.state = .dwell ∨ h.state = .restoring ∨ h.state = .retestWait ∨
            h.state = .retestClosing ∨ h.state = .retestDwell
          let restores : Prop := h.state = .restoring ∨ h.state = .retestClosing
          -- the hunt has only an OPEN or a CLOSE in flight here (R133, R135, R138, R143)
          let plain : Prop := ∀ f, k.state.flight = some f → f.cls = .hunt → f.cmd = .opening ∨ f.cmd = .closing
          let taken : Prop := k.pend.hunt = some .closing ∨
            ∃ f, k.state.flight = some f ∧ f.cls = .hunt ∧ f.cmd = .closing ∧ k.pend.hunt = none
          let ends (u : State) : Prop := t.hnc = u.hnc ∧ t.fru = u.fru ∧ t.bcu = u.bcu ∧ t.rcc = u.rcc ∧ t.riu = u.riu
          (s.underTest ≠ some b ∨ h.state = .idle ∨ h.state = .waiting → m.hnc = h ∧ m.fru = s.fru ∧ OnlyAt (bayRec b) s m) ∧
          (hunts → plain → m.hnc = { h with restoreOut := m.hnc.restoreOut }) ∧
          (s.underTest = some b → restores → taken → m.hnc.restoreOut = true) ∧
          (s.underTest = some b → h.state = .aborting → taken → ∀ w, h.pendingResult = some w →
            m.hnc.state = .idle ∧ m.hnc.bayOpen = none ∧
            m.hnc.last = some { result := w, bay := none, started := h.started, ended := s.stamp } ∧
            ∀ q, s.curCandidate = some q → ∀ j, h.current = some j → (m.hnc.cands[j.val]?).map (fun y => y.outcome) =
              some (if q.outcome = .pending ∨ q.outcome = .healthy then .failedRestore else q.outcome)) ∧
          (¬ hunts → ends m) ∧
          (hunts → plain → ∀ a, s.underTest = some a → ∃ u : State, HuntAborts m .abortedTrip a u ∧ ends u) ∧
          -- R35, R165: the occurrence, with its detail, and no other where no hunt is running
          ((∀ j, (s.chan j).state ≠ .armed) →
            t.fac fTrip = { r with
              flag := true, count := min 255 (r.count + 1), mask := r.mask ||| (1#9 <<< b.val),
              firstTime := if r.flag then r.firstTime else some s.stamp,
              lastDetail := some (detail [byte c.code, byte operated, byte (e.tag.val / 32), byte (e.tag.val % 32)]) } ∧
            (h.state = .idle ∨ h.state = .waiting → ∀ g, g ≠ fTrip → t.fac g = s.fac g)))))

/-- R43, R44, R54 and R55: a BAYSTAT frame for all nodes is applied to the record of its src address, and then forwarded
(R179; FrameArrives says how): the record's status is as the payload spells it, gated by what the record has. Where it
changes nothing of the status but the lamp, the echo acts on the slot alone: the command stays, becomes ECHOED, or ends with
DONE or REFUSED. R68, R77 and R78: what a change of the position does to the bay's reclose record, and R135 and R138 to the
hunt. R45, R46, R71 and R81: what a change of the local-mode, interlock or spring input does: the LOCAL and INTERLOCK
reasons, a cancelled sequence, the withdrawn requests with the last result they leave, the occurrence, and the end of a spring
wait. That a closing seen in IDLE_CLOSED or RECLAIM changes the last definite position alone is the model's choice (log entry
35, DEDUCED). So are the last result a withdrawn request leaves for a class other than MANAGEMENT, which is none (log entry
10, DEDUCED), the spring bit last reported (log entry 12, DEDUCED), and that bits 3 to 7 of the inputs byte are ignored (log
entry 20, DEDUCED). -/
def Obligations.BaystatApplied : Prop :=
  ∀ (s : State) (src p i l tag r : Byte) (n : Rec), s.pins.resetHeld = false → s.mgu.part ≠ .bypass → src ≠ s.ownByte →
    s.riu.own ≠ 63 →
    let payload := [p, i, l, tag, r]
    let u := s.refreshIn
    -- t is the state after the use, from which the frame is forwarded
    let goes (t : State) : Prop := exec (.baystatFrame 63 src payload) s = .next (t.forward (buildFrame 63 src 0x21 payload))
    let position : Position := if p = 1 then .opened else if p = 2 then .closed else if p = 3 then .travel else .faulty
    let lamp : Lamp := if l = 0 then .off else if l = 1 then .on else if l = 2 then .blink else .unknown
    let c := s.cap n
    let local_ := n != 8 && c.hasLocal && i.getLsbD 0
    let interlock := n != 8 && c.hasInterlock && i.getLsbD 1
    let spring := n == 8 || !c.hasSpring || i.getLsbD 2
    let x := s.status n
    ((∀ m, (s.cap m).addr ≠ some src.toNat) → goes u) ∧
    ((s.cap n).addr = some src.toNat → (∀ m, m < n → (s.cap m).addr ≠ some src.toNat) →
      (∃ t : State, goes t ∧ OnlyControl u t ∧ (∀ m, m ≠ n → t.status m = s.status m) ∧
        (t.status n).position = position ∧ (t.status n).localMode = local_ ∧ (t.status n).interlock = interlock ∧
        (t.status n).spring = spring ∧ (t.status n).reported = lamp ∧ (t.status n).presence = true ∧
        (t.status n).silence = some 1000) ∧
      (x.presence = true → x.position = position → x.localMode = local_ → x.interlock = interlock → x.spring = spring →
        let v := u.setStatus n { x with silence := some 1000, springReported := i.getLsbD 2, reported := lamp }
        let k := s.slot n
        let arrived (cmd : Command) : Prop := (cmd = .opening → position = .opened) ∧ (cmd = .closing → position = .closed)
        let ends (f : Flight) (o : CmdOutcome) : Prop := ∃ t : State, goes t ∧
          t.slot n = { k with state := .free, lastResult := some { cls := f.cls, cmd := f.cmd, tag := some f.tag, outcome := o,
                                                                   time := s.stamp } } ∧
          t.riu.outPlaces.look n = none ∧
          (∀ a w, f.cmd = .indicate a → a.lamp = some w → o = .done → (t.status n).indicator = w) ∧
          OnlyAt n u t
        (k.state = .free → goes v) ∧
        (∀ f, k.state = .inFlight f → tag = 0 ∨ tag.toNat ≠ f.tag → goes v) ∧
        (∀ f, k.state = .inFlight f → tag ≠ 0 → tag.toNat = f.tag → r = 1 → ¬ arrived f.cmd →
          goes (v.setSlot n { k with state := .echoed f })) ∧
        (∀ f, k.state = .echoed f → ¬ arrived f.cmd → goes v) ∧
        (∀ f, k.state = .inFlight f → tag ≠ 0 → tag.toNat = f.tag → f.cls = .management → f.tripAttached = false →
          k.pend = Pending.none → (r = 1 → arrived f.cmd → ends f .done) ∧ (r ≠ 1 → ends f .refused)) ∧
        (∀ f, k.state = .echoed f → f.cmd = .opening ∨ f.cmd = .closing → arrived f.cmd → f.cls = .management →
          f.tripAttached = false → k.pend = Pending.none → ends f .done) ∧
        -- the end of an OPEN or a CLOSE of any class, with or without a trip: commandEnd is what CommandTimesOut says
        (∀ f, k.state = .inFlight f → tag ≠ 0 → tag.toNat = f.tag → r ≠ 1 → goes (v.commandEnd n f .refused)) ∧
        (∀ f, (k.state = .inFlight f ∧ tag ≠ 0 ∧ tag.toNat = f.tag ∧ r = 1) ∨ k.state = .echoed f →
          f.cmd = .opening ∨ f.cmd = .closing → arrived f.cmd → goes (v.commandEnd n f .done))) ∧
      -- a change of the position alone, at a bay the hunt is not testing
      (∀ b, n = bayRec b → x.presence = true → x.position ≠ position → x.localMode = local_ → x.interlock = interlock →
        x.spring = spring → tag = 0 → (∀ f, (s.slot n).state ≠ .echoed f) → s.underTest ≠ some b →
        let q := s.rcl b
        let q' : RecloseRecord := { q with lastDefinite := some position }
        let definite : Prop := position = .opened ∨ position = .closed
        ∃ t : State, goes t ∧ OnlyControl u t ∧ OnlyAt n u t ∧ t.hnc = s.hnc ∧ t.fru = s.fru ∧ t.pru = s.pru ∧
          (¬ definite ∨ q.lastDefinite = some position → t.rcl b = q) ∧
          (definite → q.lastDefinite ≠ some position →
            (s.runs b = false → t.rcl b = { q' with state := if position = .closed then .idleClosed else .idleOpen }) ∧
            (s.runs b = true → q.lastDefinite = none →
              (q.state = .idleOpen → position = .closed → t.rcl b = { q' with state := .idleClosed }) ∧
              (q.state ≠ .idleOpen ∨ position = .opened → t.rcl b = q')) ∧
            (s.runs b = true → q.lastDefinite ≠ none → position = .opened →
              ((s.elem b).latch = none → q.state = .idleClosed ∨ q.state = .reclaim →
                t.rcl b = { q' with state := .idleOpen, shots := 0, reclaimTimer := .stopped }) ∧
              ((s.elem b).latch ≠ none ∨ (q.state ≠ .idleClosed ∧ q.state ≠ .reclaim) → t.rcl b = q')) ∧
            (s.runs b = true → q.lastDefinite ≠ none → position = .closed →
              let taken : Prop := q.state = .idleOpen ∨ q.state = .dead ∨ q.state = .closing .waiting ∨
                ∃ c, q.state = .lockout c
              (taken → t.rcl b = { q' with state := .reclaim, shots := s.effShots b, deadTimer := none, springTimer := none,
                                           reclaimTimer := .running (s.setting b fReclaim) }) ∧
              (¬ taken → t.rcl b = q')))) ∧
      -- a bay the hunt is testing is reported CLOSED (R135, R138)
      (∀ b j, n = bayRec b → x.presence = true → x.position ≠ position → x.localMode = local_ → x.interlock = interlock →
        x.spring = spring → tag = 0 → (∀ f, (s.slot n).state ≠ .echoed f) → s.underTest = some b → s.hnc.current = some j →
        position = .closed →
        ∃ t : State, goes t ∧ OnlyControl u t ∧
          (s.hnc.state = .dwell → t.hnc.bayOpen = none ∧
            (t.hnc.cands[j.val]?).map (fun y => y.outcome) = some .failedOpen ∧
            (t.hnc.state = .opening ∨ (t.hnc.state = .idle ∧ t.hnc.last.map (fun l => l.result) = some .exhausted))) ∧
          (s.hnc.state = .retestWait → s.efu.nvd.state ≠ .displaced →
            t.hnc = { s.hnc with state := .retestDwell, timer := some s.curDwell, bayOpen := none })) ∧
      -- a change of one input alone (R45, R46, R71), at a bay the hunt is not testing
      (∀ b, n = bayRec b → x.presence = true → x.position = position → tag = 0 → (∀ f, (s.slot n).state ≠ .echoed f) →
        (s.slot n).state ≠ .free ∨ (s.slot n).pend = Pending.none → s.underTest ≠ some b →
        let k := s.slot n
        let q := s.rcl b
        let cancels : Prop := s.runs b = true ∧ (q.state = .dead ∨ q.state = .closing .waiting)
        let waits : Prop := s.runs b = true ∧ q.state = .dead ∧ q.springTimer ≠ none
        let locked (c : LockoutCause) : RecloseRecord :=
          { q with state := .lockout c, deadTimer := none, springTimer := none, reclaimTimer := .stopped }
        let said (t : State) (f : Factor) (v : Byte) : Prop := (∀ j, (s.chan j).state ≠ .armed) →
          let r := s.fac f
          t.fac f = { r with
            flag := true, count := min 255 (r.count + 1), mask := r.mask ||| (1#9 <<< b.val),
            firstTime := if r.flag then r.firstTime else some s.stamp, lastDetail := some (detail [v]) }
        let withdrawn (t : State) (gone : Command → Prop) (code : ResultCode) : Prop :=
          (∀ cmd, k.pend.management = some cmd → gone cmd → (t.slot n).lastResult =
            some { cls := .management, cmd := cmd, tag := none, outcome := .refusedAtRequest code, time := s.stamp }) ∧
          ((∀ cmd, k.pend.management = some cmd → ¬ gone cmd) → (t.slot n).lastResult = k.lastResult)
        let changes (p : State → Prop) : Prop :=
          ∃ t : State, goes t ∧ OnlyControl u t ∧ OnlyAt n u t ∧ t.hnc = s.hnc ∧ t.fru = s.fru ∧ t.pru = s.pru ∧ p t
        (x.localMode = false → local_ = true → x.interlock = interlock → x.spring = spring → changes (fun t =>
          said t fBayLocal 1 ∧ (t.slot n).state = k.state ∧ (t.slot n).lastTag = k.lastTag ∧
          (t.slot n).pend = { Pending.none with trip := k.pend.trip } ∧ withdrawn t (fun _ => True) .localMode ∧
          (¬ cancels → t.rcl b = { q with block := { q.block with localMode := true } }) ∧
          (cancels → q.block.localMode = false →
            t.rcl b = { locked .protectionBlocked with block := { q.block with localMode := true } }))) ∧
        (x.localMode = true → local_ = false → x.interlock = interlock → x.spring = spring → changes (fun t =>
          said t fBayLocal 0 ∧ t.slot n = k ∧ t.rcl b = { q with block := { q.block with localMode := false } })) ∧
        (x.interlock = false → interlock = true → x.localMode = local_ → x.spring = spring → changes (fun t =>
          let keep (o : Option Command) : Option Command := if o = some .closing then none else o
          said t fBayInterlock 1 ∧ withdrawn t (fun cmd => cmd = .closing) .interlock ∧
          (¬ cancels → t.rcl b = { q with block := { q.block with interlock := true } } ∧
            (t.slot n).state = k.state ∧ (t.slot n).lastTag = k.lastTag ∧
            (t.slot n).pend = { trip := k.pend.trip, hunt := keep k.pend.hunt, reclose := keep k.pend.reclose,
                                management := keep k.pend.management, annunciate := keep k.pend.annunciate }) ∧
          (cancels → q.block.interlock = false →
            t.rcl b = { locked .protectionBlocked with block := { q.block with interlock := true } } ∧
            (t.slot n).pend.hunt ≠ some .closing ∧ (t.slot n).pend.reclose = none ∧
            (t.slot n).pend.management ≠ some .closing))) ∧
        (x.interlock = true → interlock = false → x.localMode = local_ → x.spring = spring → changes (fun t =>
          said t fBayInterlock 0 ∧ t.slot n = k ∧ t.rcl b = { q with block := { q.block with interlock := false } })) ∧
        (x.spring = true → spring = false → x.localMode = local_ → x.interlock = interlock → changes (fun t =>
          t.slot n = k ∧ t.rcl b = q)) ∧
        (x.spring = false → spring = true → x.localMode = local_ → x.interlock = interlock → changes (fun t =>
          let blocked : Prop := local_ = true ∨ interlock = true
          let enough : Prop := q.shots < s.effShots b
          (¬ waits → t.slot n = k ∧ t.rcl b = q) ∧
          (waits → ¬ enough → t.rcl b = locked .shotsExhausted) ∧
          (waits → enough → s.mgu.part = .standdown → t.rcl b = locked .standdown) ∧
          (waits → enough → s.mgu.part ≠ .standdown → blocked → t.rcl b = locked .protectionBlocked) ∧
          (waits → enough → s.mgu.part ≠ .standdown → ¬ blocked → k.state = .free →
            let tag := if k.lastTag = 255 then 1 else k.lastTag + 1
            t.rcl b = { q with state := .closing .issued, shots := min 4 (q.shots + 1), deadTimer := none, springTimer := none } ∧
            t.slot n = { k with
              lastTag := tag,
              state := .inFlight { cmd := .closing, tag := tag, cls := .reclose, issued := s.mono, tripAttached := false,
                                   timer := 250 } }) ∧
          (waits → enough → s.mgu.part ≠ .standdown → ¬ blocked → k.state ≠ .free →
            t.rcl b = { q with state := .closing .waiting, deadTimer := none, springTimer := none } ∧
            t.slot n = { k with pend := { k.pend with reclose := some .closing } })))) ∧
      -- a HUNT command that waits at the bay under test is withdrawn (R45, R46 with R133, R136)
      (∀ b j, n = bayRec b → x.presence = true → x.position = position → tag = 0 → (∀ f, (s.slot n).state ≠ .echoed f) →
        (s.slot n).state ≠ .free → s.underTest = some b → s.hnc.current = some j → x.spring = spring →
        let failed (o : CandOutcome) (t : State) : Prop := (t.hnc.cands[j.val]?).map (fun y => y.outcome) = some o ∧
          (t.hnc.state = .opening ∨ (t.hnc.state = .idle ∧ t.hnc.last.map (fun l => l.result) = some .exhausted))
        (x.localMode = false → local_ = true → x.interlock = interlock → s.hnc.state = .opening →
          (s.slot n).pend.hunt = some .opening → ∃ t : State, goes t ∧ failed .failedOpen t) ∧
        (x.interlock = false → interlock = true → x.localMode = local_ → s.hnc.state = .restoring →
          (s.slot n).pend.hunt = some .closing → ∃ t : State, goes t ∧ failed .failedRestore t ∧ t.hnc.bayOpen = none)))

/-- R182: OUT takes the frame of the lowest command out-place, else the head of the forward queue, else the reply placed
earlier, else the event frame, whose factor it marks reported, else the head of the capture-block queue; with none of
these it stays free. -/
def Obligations.OutTakes : Prop :=
  ∀ s : State, s.pins.resetHeld = false →
    let goes (t : State) : Prop := exec .outTake s = .next t
    let noCommand : Prop := ∀ n, s.riu.outPlaces.look n = none
    (∀ n f, s.riu.outPlaces.look n = some f → (∀ m, m < n → s.riu.outPlaces.look m = none) →
      goes { s with riu := { s.riu with outPlaces := s.riu.outPlaces.put n none, sending := some f } }) ∧
    (noCommand → ∀ f rest, s.riu.fwd = f :: rest → goes { s with riu := { s.riu with fwd := rest, sending := some f } }) ∧
    (noCommand → s.riu.fwd = [] →
      (∀ f rest, s.riu.replies = f :: rest → goes { s with riu := { s.riu with replies := rest, sending := some f } }) ∧
      (s.riu.replies = [] →
        (∀ g f, s.evu.outSlot = some (g, f) → ∃ t : State, goes t ∧ t.riu = { s.riu with sending := some f } ∧
          t.fac g = { s.fac g with reported := true } ∧ (∀ h, h ≠ g → t.fac h = s.fac h) ∧
          (∀ h w, t.evu.outSlot = some (h, w) → h ≠ g) ∧
          OnlyEvents { s with riu := { s.riu with sending := some f } } t ∧ t.recd = s.recd) ∧
        (s.evu.outSlot = none →
          (∀ f rest, s.riu.capQueue = f :: rest → s.recd.readouts = [] →
            goes { s with riu := { s.riu with capQueue := rest, sending := some f } }) ∧
          (∀ f rest, s.riu.capQueue = f :: rest → s.riu.capQueue.length ≤ 4 → s.recd.readouts ≠ [] →
            ∃ t : State, goes t ∧ t.riu.sending = some f ∧ t.riu.capQueue.length = s.riu.capQueue.length ∧
              t = { s with recd := { s.recd with readouts := t.recd.readouts },
                           riu := { s.riu with capQueue := t.riu.capQueue, sending := some f } }) ∧
          (s.riu.capQueue = [] → goes { s with riu := { s.riu with sending := none } }))))

/-! ### Expiries (R7, R48, R56, R57, R60, R61, R70, R71, R76, R129, R135, R138, R140, R180) -/

/-- R180, R7, R48 and R72: what the expiry of IN's silence, of a source's and of a record's BAYSTAT leaves.  R122, R129 and
R142: the loss of the bus puts the NVD element to UNKNOWN, which ends a start delay and aborts a running hunt with
ABORTED_STALE (HuntAborts).  An expiry whose timer has not run out changes nothing (log entry 4).  That the spring input of
every record becomes no is the model's choice (log entry 26, DEDUCED). -/
def Obligations.SilenceExpiries : Prop :=
  (∀ s : State, s.pins.resetHeld = false →
    (s.riu.inUp = true → s.riu.inTimer = some 0 → ∃ t : State, exec .inSilenceExpiry s = .next t ∧
      OnlyEvents { s with riu := { s.riu with inUp := false, inTimer := none } } t ∧
      (s.mgu.part = .bypass → t = { s with riu := { s.riu with inUp := false, inTimer := none } })) ∧
    (s.riu.inUp = false ∨ s.riu.inTimer ≠ some 0 → exec .inSilenceExpiry s = .next s)) ∧
  (∀ (s : State) (e : SrcIx), s.pins.resetHeld = false →
    let c := s.ctx e
    (c.state = .valid → c.silence = some 0 → ∃ t : State, exec (.sourceSilenceExpiry e) s = .next t ∧ OnlyMeasures s t ∧
      t.ctx e = { c with state := .stale, window := [], missing := 0, fill := 0, silence := none } ∧
      (∀ f, f ≠ e → t.ctx f = s.ctx f) ∧
      (∀ b, (s.src e).role = some (.bay b) →
        t.meu.history.look b = [] ∧ t.meu.waiting.look b = [] ∧ t.elem b = { s.elem b with phi := 0 } ∧
        t.dir b = .unavailable ∧ t.recd.latest.look b = none ∧ t.efu.nvd = s.efu.nvd ∧ t.meu.latestBus = s.meu.latestBus) ∧
      ((s.src e).role = some .bus →
        t.meu.latestBus = none ∧ (∀ b, t.dir b = .unavailable ∧ t.meu.waiting.look b = []) ∧
        (s.protecting = true → t.efu.nvd = { state := .unknown, timing := 0, confirm := 0 } ∧
          -- the change into UNKNOWN and the hunt (R122, R129, R142)
          let h := s.hnc
          let old := s.efu.nvd.state
          let m : State := { s with
            meu := { s.meu with ctx := s.meu.ctx.put e { c with state := .stale, window := [], missing := 0, fill := 0,
                                                                silence := none }, latestBus := none },
            efu := { direction := t.efu.direction, nvd := t.efu.nvd } }
          let still : Prop := t.fru = s.fru ∧ t.bcu = s.bcu ∧ t.rcc = s.rcc ∧ t.riu = s.riu
          (h.state = .idle ∨ h.state = .aborting ∨ old = .unknown → t.hnc = h ∧ still) ∧
          (h.state = .waiting → old ≠ .displaced → t.hnc = h ∧ still) ∧
          (h.state = .waiting → old = .displaced → t.hnc = { h with state := .idle, timer := none } ∧ still) ∧
          (h.state ≠ .idle → h.state ≠ .waiting → h.state ≠ .aborting → old ≠ .unknown → ∀ b, s.underTest = some b →
            ∃ u : State, HuntAborts m .abortedStale b u ∧ t.hnc = u.hnc ∧ t.fru = u.fru ∧ t.bcu = u.bcu ∧ t.rcc = u.rcc ∧
              t.riu = u.riu)) ∧
        (s.protecting = false → t.efu.nvd = s.efu.nvd))) ∧
    (c.state ≠ .valid ∨ c.silence ≠ some 0 → exec (.sourceSilenceExpiry e) s = .next s)) ∧
  (∀ (s : State) (n : Rec), s.pins.resetHeld = false →
    let x := s.status n
    (x.silence = some 0 → ∃ t : State, exec (.baystatSilenceExpiry n) s = .next t ∧ OnlyControl s t ∧
      (∀ m, m ≠ n → t.status m = s.status m) ∧
      t.status n = { x with position := .unknown, spring := false, reported := .unknown, silence := none,
                            presence := (t.status n).presence } ∧
      (n = 8 → (t.status n).presence = false) ∧
      (∀ b, n = bayRec b → (t.status n).presence = s.roleValid (.bay b) ∧
        let r := s.rcl b
        (x.position ≠ .unknown → r.state = .dead → s.runs b = true → t.rcl b = { r with
          state := .lockout .statusLost, deadTimer := none, springTimer := none, reclaimTimer := .stopped }) ∧
        (x.position = .unknown ∨ r.state ≠ .dead ∨ s.runs b = false → (s.slot n).pend.reclose = none → t.rcl b = r))) ∧
    (x.silence ≠ some 0 → exec (.baystatSilenceExpiry n) s = .next s))

/-- R56, R57, R60, R61 and R74: a command's timeout.  The command fails, its frame still unsent is withdrawn and its requester is told;
where it carried a trip, the backup flag is set or the part goes to STANDDOWN.  Where no command at the slot has run out
nothing changes (log entry 4).

The second half is the end of a command at a slot where nothing else waits, by its class and how it ended, for a timeout and for
the echoes of BaystatApplied alike: a trip confirmed (R37, R69), a breaker fail (R60), the RCC's CLOSE (R74), and the HNC's
commands (R133, R136, R139, R140, R143). -/
def Obligations.CommandTimesOut : Prop :=
  (∀ (s : State) (n : Rec), s.pins.resetHeld = false →
    let k := s.slot n
    ((∀ f, k.state.flight = some f → f.timer ≠ 0) → exec (.commandTimeout n) s = .next s) ∧
    (∀ f, k.state.flight = some f → f.timer = 0 → ∃ t : State, exec (.commandTimeout n) s = .next t ∧ OnlyControl s t ∧
      t.bcu.status = s.bcu.status ∧
      (f.tripAttached = false → k.pend = Pending.none →
        let freed : Prop :=
          t.slot n = { k with state := .free, lastResult := some { cls := f.cls, cmd := f.cmd, tag := some f.tag,
                                                                   outcome := .timeout, time := s.stamp } } ∧
          t.riu.outPlaces.look n = none ∧ OnlySlots s t ∧ OnlyAt n s t ∧ SameReasons allReasons s t
        (f.cls = .management ∨ f.cls = .annunciate → freed ∧ t.rcc = s.rcc) ∧
        (∀ b, f.cls = .reclose → n = bayRec b → s.runs b = true → (s.rcl b).state = .closing .issued →
          t.rcl b = { s.rcl b with state := .lockout .closeFailed, deadTimer := none, springTimer := none,
                                   reclaimTimer := .stopped } ∧ OnlySlots s t ∧ OnlyAt n s t)) ∧
      (f.tripAttached = true → s.bcu.backupFlag = false → s.backupConfigured = true → n ≠ 8 → t.bcu.backupFlag = true) ∧
      (f.tripAttached = true → s.mgu.part = .active → (s.bcu.backupFlag = true ∨ s.backupConfigured = false ∨ n = 8) →
        t.mgu.part = .standdown ∧ t.bcu.backupFlag = s.bcu.backupFlag) ∧
      t = s.commandEnd n f .timeout)) ∧
  (∀ (s : State) (n : Rec) (f : Flight) (o : Told), (s.slot n).state.flight = some f → (s.slot n).pend = Pending.none →
    o ≠ .superseded →
    let k := s.slot n
    let t := s.commandEnd n f o
    let failed : Prop := o = .refused ∨ o = .timeout
    let result : LastResult := { cls := f.cls, cmd := f.cmd, tag := some f.tag, outcome := o.outcome, time := s.stamp }
    let freed : Prop := t.slot n = { k with state := .free, lastResult := some result } ∧ t.riu.outPlaces.look n = none
    let issued (m : Rec) (x : Slot) (cmd : Command) (cls : ReqClass) (ms : Nat) : Prop :=
      let tag := if x.lastTag = 255 then 1 else x.lastTag + 1
      t.slot m = { x with
        lastTag := tag,
        state := .inFlight { cmd := cmd, tag := tag, cls := cls, issued := s.mono, tripAttached := cls == .trip, timer := ms } }
    OnlyControl s t ∧ t.bcu.status = s.bcu.status ∧
    (f.cls = .management ∨ f.cls = .annunciate → f.tripAttached = false →
      freed ∧ OnlySlots s t ∧ OnlyAt n s t ∧ t.rcc = s.rcc) ∧
    (f.tripAttached = true → n = 8 → failed → s.mgu.part = .active → t.mgu.part = .standdown) ∧
    ∀ b, n = bayRec b →
      let r := s.rcl b
      let sequenced : Prop := s.runs b = true ∧ ∀ c, r.state ≠ .lockout c
      let locked (c : LockoutCause) : RecloseRecord :=
        { r with state := .lockout c, deadTimer := none, springTimer := none, reclaimTimer := .stopped }
      -- a trip confirmed: the latch clears, and the reclose decision follows
      (∀ cause, f.tripAttached = true → f.cls = .trip ∨ f.cls = .management → o = .done → (s.elem b).latch = some cause →
        let blocked : Prop := r.block.code ≠ 0 ∨ (cause = .sef ∧ s.setting b fSefReclose = 0)
        t.elem b = { s.elem b with latch := none } ∧ (∀ c, c ≠ b → t.elem c = s.elem c) ∧ OnlyAt n s t ∧ t.hnc = s.hnc ∧
        t.fru = s.fru ∧ (t.slot n).lastResult = some result ∧
        (¬ sequenced → t.rcl b = r) ∧
        (sequenced → blocked → t.rcl b = locked .protectionBlocked) ∧
        (sequenced → ¬ blocked → s.effShots b ≤ r.shots → t.rcl b = locked .shotsExhausted) ∧
        (sequenced → ¬ blocked → r.shots < s.effShots b → s.mgu.part = .standdown → t.rcl b = locked .standdown) ∧
        (sequenced → ¬ blocked → r.shots < s.effShots b → s.mgu.part ≠ .standdown → freed ∧
          t.rcl b = { r with state := .dead, deadTimer := some (s.setting b (fDead r.shots)), springTimer := none,
                             reclaimTimer := .stopped })) ∧
      -- a breaker fail: LOCKOUT, a fault record, and the backup or STANDDOWN
      (f.tripAttached = true → f.cls = .trip ∨ f.cls = .management → failed →
        (t.elem b).latch = none ∧ (t.rcl b).shots = r.shots ∧
        (sequenced → (t.rcl b).state = .lockout .breakerFail) ∧ (¬ sequenced → (t.rcl b).state = r.state) ∧
        t.recd.top = s.recd.top + 1 ∧ t.recd.nextSeq = s.recd.nextSeq + 1 ∧ t.recd.count = min 16 (s.recd.count + 1) ∧
        (∃ x, t.recd.ring.look t.recd.top = some x ∧ x.seq = s.recd.nextSeq ∧ x.stamp = s.stamp ∧ x.bay = b ∧
          x.cause = .breakerFail ∧ x.shots = r.shots ∧ x.level = s.fru.effective ∧ x.reactance = none ∧ x.segLabel = none) ∧
        (s.bcu.backupFlag = false → s.backupConfigured = true → t.bcu.backupFlag = true ∧ t.mgu.part = s.mgu.part ∧
          ((s.slot 8).state = .free → (s.slot 8).pend = Pending.none → issued 8 (s.slot 8) .opening .trip 120)) ∧
        (s.bcu.backupFlag = true ∨ s.backupConfigured = false → t.bcu.backupFlag = s.bcu.backupFlag ∧
          (s.mgu.part = .active → t.mgu.part = .standdown))) ∧
      -- the RCC's CLOSE
      (f.cls = .reclose → f.tripAttached = false → OnlySlots s t ∧ OnlyAt n s t ∧
        (o = .done → r.state = .closing .issued → freed ∧
          t.rcl b = { r with state := .reclaim, deadTimer := none, springTimer := none,
                             reclaimTimer := .running (s.setting b fReclaim) }) ∧
        (failed → r.state = .closing .issued → s.runs b = true → t.rcl b = locked .closeFailed) ∧
        (r.state ≠ .closing .issued → freed ∧ t.rcl b = r)) ∧
      -- the HNC's command at the bay under test
      (f.cls = .hunt → f.tripAttached = false → s.underTest = some b →
        let h := s.hnc
        let outcome (c : CandOutcome) : Prop :=
          ∀ j, h.current = some j → (t.hnc.cands[j.val]?).map (fun y => y.outcome) = some c
        let next : Prop := t.hnc.state = .opening ∨ (t.hnc.state = .idle ∧ t.hnc.last.map (fun l => l.result) = some .exhausted)
        let ended (w : HuntResult) (named : Option Bay) : Prop :=
          t.hnc.state = .idle ∧ t.hnc.last = some { result := w, bay := named, started := h.started, ended := s.stamp } ∧
          t.hnc.current = none ∧ t.hnc.timer = none ∧ t.fru.stack = s.fru.stack.filter (fun e => e.origin != .hunt) ∧
          ∀ c, (t.rcl c).block.hunt = false
        let lockedOut (c : LockoutCause) : Prop := sequenced → (t.rcl b).state = .lockout c
        OnlyHunt s t ∧ (t.slot n).lastResult = some result ∧
        (h.state = .opening → f.cmd = .opening →
          (o = .done → freed ∧ t.hnc = { h with state := .dwell, timer := some s.curDwell, bayOpen := some b }) ∧
          (failed → outcome .failedOpen ∧ next)) ∧
        (h.state = .restoring → f.cmd = .closing →
          (o = .done → t.hnc.bayOpen = none ∧ next) ∧
          (failed → outcome .failedRestore ∧ t.hnc.bayOpen = none ∧ lockedOut .closeFailed ∧ next)) ∧
        (h.state = .retestClosing → f.cmd = .closing →
          (o = .done → s.efu.nvd.state ≠ .displaced →
            freed ∧ t.hnc = { h with state := .retestDwell, timer := some s.curDwell, bayOpen := none }) ∧
          (o = .done → s.efu.nvd.state = .displaced → ended .foundPersistent (some b) ∧ lockedOut .huntFound) ∧
          (failed → ended .foundLocked (some b) ∧ lockedOut .closeFailed)) ∧
        (h.state = .aborting → ∀ w, h.pendingResult = some w →
          (f.cmd = .opening → failed → outcome .failedOpen ∧ ended w none) ∧
          (f.cmd = .opening → o = .done → (s.cap n).inService = true → s.mgu.part ≠ .standdown →
            (s.status n).localMode = false → (s.status n).interlock = false →
            t.hnc = { h with bayOpen := some b } ∧ issued n { k with lastResult := some result } .closing .hunt 250) ∧
          (f.cmd = .closing → o = .done → t.hnc.bayOpen = none ∧ ended w none) ∧
          (f.cmd = .closing → failed → t.hnc.bayOpen = none ∧ ended w none ∧ lockedOut .closeFailed ∧
            ∀ y, s.curCandidate = some y →
              outcome (if y.outcome = .pending ∨ y.outcome = .healthy then .failedRestore else y.outcome)))))

/-- R70, R71 and R76: the end of a dead time, of a spring wait and of a reclaim time.  An expiry whose timer has not run out in its
state changes nothing (log entry 4). -/
def Obligations.RecloseTimersExpire : Prop :=
  ∀ (s : State) (b : Bay), s.pins.resetHeld = false →
    let r := s.rcl b
    let n := bayRec b
    let locked (c : Instr) (cause : LockoutCause) : Prop := ∃ t : State, exec c s = .next t ∧ OnlySlots s t ∧ OnlyAt n s t ∧
      t.rcl b = { r with state := .lockout cause, deadTimer := none, springTimer := none, reclaimTimer := .stopped }
    (r.state = .dead → r.deadTimer = some 0 →
      (s.runs b = true → (s.status n).position ≠ .opened → locked (.deadTimerExpiry b) .statusLost) ∧
      (s.runs b = true → (s.status n).position = .opened → s.effShots b ≤ r.shots →
        locked (.deadTimerExpiry b) .shotsExhausted) ∧
      ((s.status n).position = .opened → r.shots < s.effShots b → (s.cap n).hasSpring = true → (s.status n).spring = false →
        exec (.deadTimerExpiry b) s = .next { s with
          rcc := s.rcc.put b { r with deadTimer := none, springTimer := some 2000 } }) ∧
      ((s.status n).position = .opened → r.shots < s.effShots b → (s.cap n).hasSpring = false ∨ (s.status n).spring = true →
        ((s.cap n).inService = true → s.mgu.part ≠ .standdown → (s.status n).localMode = false →
          (s.status n).interlock = false → (s.slot n).state = .free → (s.slot n).pend = Pending.none →
          let tag := if (s.slot n).lastTag = 255 then 1 else (s.slot n).lastTag + 1
          ∃ t : State, exec (.deadTimerExpiry b) s = .next t ∧ OnlySlots s t ∧ OnlyAt n s t ∧
            t.rcl b = { r with state := .closing .issued, shots := min 4 (r.shots + 1), deadTimer := none,
                               springTimer := none } ∧
            t.slot n = { s.slot n with
              lastTag := tag,
              state := .inFlight { cmd := .closing, tag := tag, cls := .reclose, issued := s.mono, tripAttached := false,
                                   timer := 250 } }) ∧
        (s.runs b = true → s.mgu.part ≠ .standdown → (s.status n).localMode = true ∨ (s.status n).interlock = true →
          locked (.deadTimerExpiry b) .protectionBlocked))) ∧
    (r.state ≠ .dead ∨ r.deadTimer ≠ some 0 → exec (.deadTimerExpiry b) s = .next s) ∧
    (r.state = .dead → r.springTimer = some 0 → s.runs b = true → locked (.springWaitExpiry b) .spring) ∧
    (r.state ≠ .dead ∨ r.springTimer ≠ some 0 → exec (.springWaitExpiry b) s = .next s) ∧
    (r.state = .reclaim → r.reclaimTimer = .running 0 →
      ((s.elem b).latch = none → exec (.reclaimExpiry b) s = .next { s with
        rcc := s.rcc.put b { r with state := .idleClosed, shots := 0, reclaimTimer := .stopped } }) ∧
      ((s.elem b).latch ≠ none → exec (.reclaimExpiry b) s = .next { s with
        rcc := s.rcc.put b { r with reclaimTimer := .runOut } })) ∧
    (r.state ≠ .reclaim ∨ r.reclaimTimer ≠ .running 0 → exec (.reclaimExpiry b) s = .next s)

/-- R129, R131, R135, R138, R140 and R145: the ends of the hunt's four times.  The end of the start delay makes the start
actions and selects the first candidate (HuntStarts).  An expiry whose timer has not run out in its state changes nothing (log
entry 4). -/
def Obligations.HuntTimersExpire : Prop :=
  ∀ s : State, s.pins.resetHeld = false →
    let h := s.hnc
    let ended (t : State) (r : HuntResult) (b : Bay) : Prop :=
      t.hnc.state = .idle ∧ t.hnc.last = some { result := r, bay := some b, started := h.started, ended := s.stamp } ∧
      t.hnc.current = none ∧ t.hnc.timer = none ∧ t.fru.stack = s.fru.stack.filter (fun e => e.origin != .hunt) ∧
      ∀ c, (t.rcl c).block.hunt = false
    -- the HUNT CLOSE placed at a slot that can take it is issued at once
    let issued (t : State) (n : Rec) : Prop :=
      let tag := if (s.slot n).lastTag = 255 then 1 else (s.slot n).lastTag + 1
      t.slot n = { s.slot n with
        lastTag := tag,
        state := .inFlight { cmd := .closing, tag := tag, cls := .hunt, issued := s.mono, tripAttached := false,
                             timer := 250 } }
    let takes (n : Rec) : Prop := (s.cap n).inService = true ∧ s.mgu.part ≠ .standdown ∧ (s.status n).localMode = false ∧
      (s.status n).interlock = false ∧ (s.slot n).state = .free ∧ (s.slot n).pend = Pending.none
    (h.state = .waiting → h.timer = some 0 →
      ∃ t : State, exec .huntStartDelayExpiry s = .next t ∧ HuntStarts s .startDelay t) ∧
    (h.state ≠ .waiting ∨ h.timer ≠ some 0 → exec .huntStartDelayExpiry s = .next s) ∧
    (h.state = .dwell → h.timer = some 0 → ∀ b k, s.underTest = some b → h.current = some k → takes (bayRec b) →
      ∃ t : State, exec .dwellExpiry s = .next t ∧ OnlySlots { s with hnc := t.hnc } t ∧ OnlyAt (bayRec b) s t ∧
        t.rcc = s.rcc ∧ issued t (bayRec b) ∧
        t.hnc = { h with state := .restoring, timer := none,
                         cands := h.cands.modify k.val (fun c => { c with outcome := .healthy }) }) ∧
    (h.state ≠ .dwell ∨ h.timer ≠ some 0 → exec .dwellExpiry s = .next s) ∧
    (h.state = .retestWait → h.timer = some 0 → ∀ b, s.underTest = some b →
      (h.table.fireLimit ≤ s.fru.effective.val ∨ s.efu.nvd.state = .displaced → ∃ t : State,
        exec .retestDelayExpiry s = .next t ∧ OnlyHunt s t ∧ ended t .foundLocked b ∧
        (s.runs b = true → ∃ c, (t.rcl b).state = .lockout c)) ∧
      (s.fru.effective.val < h.table.fireLimit → s.efu.nvd.state ≠ .displaced → takes (bayRec b) → ∃ t : State,
        exec .retestDelayExpiry s = .next t ∧ OnlySlots { s with hnc := t.hnc } t ∧ OnlyAt (bayRec b) s t ∧ t.rcc = s.rcc ∧
        issued t (bayRec b) ∧ t.hnc = { h with state := .retestClosing, timer := none })) ∧
    (h.state ≠ .retestWait ∨ h.timer ≠ some 0 → exec .retestDelayExpiry s = .next s) ∧
    (h.state = .retestDwell → h.timer = some 0 → ∀ b, s.underTest = some b → ∃ t : State,
      exec .retestDwellExpiry s = .next t ∧ OnlyHunt s t ∧ ended t .foundTransient b) ∧
    (h.state ≠ .retestDwell ∨ h.timer ≠ some 0 → exec .retestDwellExpiry s = .next s)

/-- R165, R169 to R171: an occurrence of a factor on which no channel is armed is entered in its factor record, leaves every other
record alone, and the event out-slot then holds the frame of the most eligible factor.  In BYPASS there is none.  That the out-slot
holds the frame as it is built now, formed anew from the records, is the model's choice (log entry 17, DEDUCED).

R159, R161 and R162: the channels an occurrence triggers, with the hold it makes, and the end at once of a channel whose source is not
VALID.  R149 to R154: a fault record goes to the next slot of the ring with the next sequence number; what a trip's record and
a bay's record hold. -/
def Obligations.OccurrenceRecorded : Prop :=
  (∀ (s : State) (f : Factor) (m : BitVec 9) (d : List Byte),
    let r := s.fac f
    let t := s.occur f m d
    (s.mgu.part = .bypass → t = s) ∧
    (s.mgu.part ≠ .bypass → (∀ k, (s.chan k).state = .armed → (s.chan k).trigger ≠ f) →
      OnlyEvents s t ∧ t.recd = s.recd ∧ (∀ g, g ≠ f → t.fac g = s.fac g) ∧
      t.fac f = { r with flag := true, count := min 255 (r.count + 1), mask := r.mask ||| m, lastDetail := some (detail d),
                         firstTime := if r.flag then r.firstTime else some s.stamp } ∧
      (∀ g w, t.evu.outSlot = some (g, w) → s.evu.dest ≠ 0 ∧ w = t.eventFrame g ∧
        let rank (h : Factor) : Prop := (t.fac h).flag = true ∧ (t.fac h).enable = true ∧
          s.evu.threshold < (t.fac h).level ∧ (t.fac h).reported = false ∧ (t.fac h).held = false
        rank g ∧ ∀ h, rank h → (t.fac h).level < (t.fac g).level ∨ ((t.fac h).level = (t.fac g).level ∧ g ≤ h)) ∧
      (t.evu.outSlot = none → s.evu.dest = 0 ∨ ∀ h, t.eligible h = false))) ∧
  (∀ (s : State) (f : Factor) (m : BitVec 9) (d : List Byte), s.mgu.part ≠ .bypass →
    let r := s.fac f
    let t := s.occur f m d
    let on (k : Chan) : Prop := (s.chan k).state = .armed ∧ (s.chan k).trigger = f ∧
      (m = 0 ∨ m &&& (1#9 <<< (s.chan k).bay.val) ≠ 0)
    let measured (k : Chan) : Prop := s.roleValid (.bay (s.chan k).bay) = true
    ((∃ k, on k) → (∀ k, on k → measured k) →
      OnlyEvents s t ∧ (∀ g, g ≠ f → t.fac g = s.fac g) ∧
      (t.fac f).flag = true ∧ (t.fac f).count = min 255 (r.count + 1) ∧ (t.fac f).mask = r.mask ||| m ∧
      (t.fac f).lastDetail = some (detail d) ∧ (t.fac f).held = (r.held || !r.flag) ∧
      (∀ k : Chan, (t.fac f).capMask.getLsbD k.val = true ↔ r.capMask.getLsbD k.val = true ∨ on k) ∧
      ∀ k, let c := s.chan k
        let rows := s.meu.history.look c.bay
        (on k → t.chan k = { c with state := .running, rows := rows.drop (rows.length - c.pre * 32),
                                    holding := if r.flag then c.holding else some f }) ∧
        (¬ on k → t.chan k = c)) ∧
    (∀ k, on k → ¬ measured k → (∀ j, j ≠ k → (s.chan j).state ≠ .armed) → (∀ j, (s.chan j).holding ≠ some f) →
      (s.chan k).holding = none → f.val ≠ 20 + k.val →
      let c : Channel := { s.chan k with state := .done, rows := [], truncated := true }
      let ended : Prop := (t.fac (fCaptureDone k)).flag = true ∧
        (t.fac (fCaptureDone k)).count = min 255 ((s.fac (fCaptureDone k)).count + 1)
      (∀ j, j ≠ k → t.chan j = s.chan j) ∧
      (c.reportAtEnd = true → t.chan k = c ∧ ended ∧ (t.fac f).flag = true ∧ (t.fac f).held = (r.held && r.flag)) ∧
      (c.reportAtEnd = false → r.flag = true → t.chan k = c ∧ (t.fac f).flag = true) ∧
      (c.reportAtEnd = false → r.flag = false → t.chan k = { c with state := .disarmed } ∧
        t.fac f = { FactorRecord.cold with enable := r.enable, level := r.level }))) ∧
  (∀ (s : State) (r : FaultRecord),
    let t := s.storeRecord r
    let top := s.recd.top + 1
    t.recd.ring.look top = some { r with seq := s.recd.nextSeq } ∧ (∀ j, j ≠ top → t.recd.ring.look j = s.recd.ring.look j) ∧
    t = { s with recd := { s.recd with top := top, ring := t.recd.ring, nextSeq := s.recd.nextSeq + 1,
                                       count := min 16 (s.recd.count + 1) } }) ∧
  (∀ (s : State) (b : Bay) (c : TripCause) (e : BayEval) (d : Direction) (a : AtEval), ∃ r : FaultRecord,
    s.tripRecord b c e d a = s.storeRecord r ∧
    r.stamp = s.stamp ∧ r.bay = b ∧ r.cause = c.asRecord ∧ r.shots = a.shots ∧ r.group = a.group ∧ r.level = a.level ∧
    r.tag = some e.tag ∧ r.ia = e.ia.mag ∧ r.ib = e.ib.mag ∧ r.ic = e.ic.mag ∧ r.inn = e.inn.mag ∧ r.i0 = e.i0.mag ∧
    r.direction = d ∧ r.chans = 0 ∧
    let paired (v : BusEval) : Prop := s.meu.latestBus = some v ∧ (v.tag = e.tag ∨ v.tag = e.tag - 8)
    (∀ v, paired v → r.vn = some v.vn.mag ∧ (c = .phi ∨ c = .ptoc →
      let estimate (i u : Meas) : Prop := r.reactance = some (max (-32768) (min 32767
        (((u.im * i.re - u.re * i.im) * 1000).tdiv (i.re * i.re + i.im * i.im))))
      (e.ib.mag ≤ e.ia.mag → e.ic.mag ≤ e.ia.mag → estimate e.ia v.va) ∧
      (e.ia.mag < e.ib.mag → e.ic.mag ≤ e.ib.mag → estimate e.ib v.vb) ∧
      (e.ia.mag < e.ic.mag → e.ib.mag < e.ic.mag → estimate e.ic v.vc))) ∧
    ((∀ v, ¬ paired v) → r.vn = none ∧ r.reactance = none) ∧
    (c = .etoc ∨ c = .sef → r.reactance = none) ∧ (r.reactance = none → r.segLabel = none) ∧
    ∀ x, r.reactance = some x →
      let hit (k : Fin 32) : Prop := let g := s.recd.segments.look k
        g.bay = some b ∧ g.xLow ≤ x ∧ x ≤ g.xHigh
      (∀ k, hit k → (∀ j, j < k → ¬ hit j) → r.segLabel = some (s.recd.segments.look k).segLabel) ∧
      ((∀ k, ¬ hit k) → r.segLabel = none)) ∧
  (∀ (s : State) (b : Bay) (c : RecordCause), ∃ r : FaultRecord, s.bayRecord b c = s.storeRecord r ∧
    r.stamp = s.stamp ∧ r.bay = b ∧ r.cause = c ∧ r.shots = (s.rcl b).shots ∧ r.group = s.activeNo ∧
    r.level = s.fru.effective ∧ r.direction = s.dir b ∧ r.reactance = none ∧ r.segLabel = none ∧ r.chans = 0 ∧
    (s.recd.latest.look b = none → r.tag = none ∧ r.ia = 0 ∧ r.ib = 0 ∧ r.ic = 0 ∧ r.inn = 0 ∧ r.i0 = 0 ∧
      r.vn = s.meu.latestBus.map (fun v => v.vn.mag)) ∧
    (∀ l, s.recd.latest.look b = some l → r.tag = some l.tag ∧ r.ia = l.ia ∧ r.ib = l.ib ∧ r.ic = l.ic ∧ r.inn = l.inn ∧
      r.i0 = l.i0 ∧
      (∀ v, s.meu.latestBus = some v → (v.tag = l.tag ∨ v.tag = l.tag - 8 → r.vn = some v.vn.mag) ∧
        (v.tag ≠ l.tag → v.tag ≠ l.tag - 8 → r.vn = none)) ∧
      (s.meu.latestBus = none → r.vn = none)))

/-! ### The arithmetic of the elements (R13, R28 to R31, R114, R117) -/

/-- R30: the multiple of pickup, and the increment interpolated between the points of a curve whose multiples rise from 64 and
whose increments do not fall. -/
def Obligations.CurveInterpolated : Prop :=
  (∀ i p : Nat, 0 < p → p ≤ i → multiple i p = min 2560 (i * 64 / p) ∧ 64 ≤ multiple i p) ∧
  (∀ (l : List (Nat × Nat)) (m : Nat), l ≠ [] → (l.map Prod.fst).Pairwise (· < ·) → (l.map Prod.fst).head? = some 64 →
    64 ≤ m →
    ∃ i, ∃ h : i < l.length, l[i].1 ≤ m ∧ (∀ j, ∀ k : j < l.length, l[j].1 ≤ m → j ≤ i) ∧
      (i + 1 = l.length → increment l m = l[i].2) ∧
      (∀ k : i + 1 < l.length,
        increment l m = l[i].2 + (l[i + 1].2 - l[i].2) * (m - l[i].1) / (l[i + 1].1 - l[i].1))) ∧
  (∀ (l : List (Nat × Nat)) (m : Nat), (l.map Prod.fst).Pairwise (· < ·) → (l.map Prod.snd).Pairwise (· ≤ ·) →
    (l.map Prod.fst).head? = some 64 → 64 ≤ m →
    ∀ a z, (l.map Prod.snd).head? = some a → (l.map Prod.snd).getLast? = some z →
      a ≤ increment l m ∧ increment l m ≤ z)

/-- R28, R29, R31, R114 and R117: one evaluation of PHI, of an accumulator, of the SEF counter, and of the direction.  R119 to
R121, R123 and R129: one bus evaluation of the NVD element, its occurrences, and that each change goes to the hunt controller
before its occurrence is made.  R128, R137, R138, R140, R141 and R142: what a change of the NVD element does to a running
hunt: the find in DWELL, the displacement in RETEST_DWELL, CLEARED_UNATTRIBUTED, the abort by UNKNOWN (HuntAborts), and no
effect in every other case.  That a change into NORMAL from DISPLACED in RETEST_CLOSING aborts, as R141 says, is the model's
choice (log entry 6, DEDUCED), and so is that the occurrence carries the active group at the evaluation (log entry 23,
DEDUCED). -/
def Obligations.ElementsStep : Prop :=
  (∀ pickup i count : Nat,
    (pickup = 0 ∨ i < pickup → phiStep pickup i count = (0, false)) ∧
    (0 < pickup → pickup ≤ i → (phiStep pickup i count).1 = min 2 (count + 1) ∧
      ((phiStep pickup i count).2 = true ↔ count = 1))) ∧
  (∀ (l : List (Nat × Nat)) (t d p i a : Nat),
    let r := accStep l t d p i a
    let inc := max 1 (increment l (multiple i p) * 100 / t)
    (i < p → d = 0 → r = (0, false)) ∧ (i < p → 0 < d → r = (a - d, false)) ∧
    (p ≤ i → r.1 = min 16777216 (a + inc) ∧ (r.2 = true ↔ a < 16777216 ∧ 16777216 ≤ a + inc)) ∧
    (a ≤ 16777216 → r.1 ≤ 16777216) ∧ (r.2 = true → a < r.1)) ∧
  (∀ delay count : Nat,
    sefStep false delay count = (0, false) ∧
    (count < delay → count + 1 = delay → sefStep true delay count = (delay, true)) ∧
    (count + 1 < delay → sefStep true delay count = (count + 1, false)) ∧
    (count = delay → sefStep true delay count = (delay, false)) ∧
    (delay < count → sefStep true delay count = (delay, true))) ∧
  (∀ (pickup threshold : Nat) (i v : Meas),
    let w := (i.re * v.re + i.im * v.im).tdiv v.mag
    (v.mag < pickup → directionOf pickup threshold i v = .undecided) ∧
    (pickup ≤ v.mag → w ≤ -threshold → directionOf pickup threshold i v = .forward) ∧
    (pickup ≤ v.mag → -threshold < w → threshold ≤ w → directionOf pickup threshold i v = .reverse) ∧
    (pickup ≤ v.mag → -threshold < w → w < threshold → directionOf pickup threshold i v = .undecided)) ∧
  (∀ (s : State) (e : BusEval),
    let t := s.takeBusEval e
    let g := s.activeGroup
    let v := s.efu.nvd
    let h := s.hnc
    let vn := e.vn.mag
    let judged : Prop := s.protecting = true ∧ s.groupValid s.activeNo = true
    let taken : State := { s with meu := { s.meu with latestBus := some e } }
    let moves (x : Nvd) : Prop := t.efu.nvd = x
    let timed (count confirm : Nat) : Prop :=
      (g.nvdDelay ≤ count → moves { state := .displaced, timing := count, confirm := 0 }) ∧
      (count < g.nvdDelay → moves { state := .timing, timing := count, confirm := confirm })
    let confirmed := min 200 (v.confirm + 1)
    OnlyHunt { taken with efu := { s.efu with nvd := t.efu.nvd } } t ∧
    (¬ judged ∨ v.state = .unknown → t = taken) ∧
    (judged →
      (v.state = .normal → (vn < g.nvdPickup → t = taken) ∧ (g.nvdPickup ≤ vn → timed 1 0)) ∧
      (v.state = .timing → (vn < g.nvdPickup → moves { state := .normal, timing := 0, confirm := 0 }) ∧
        (g.nvdPickup ≤ vn → timed (min 2000 (v.timing + 1)) v.confirm)) ∧
      (v.state = .displaced →
        (g.nvdDropout ≤ vn → moves { v with confirm := 0 }) ∧
        (vn < g.nvdDropout → confirmed < g.nvdConfirm → moves { v with confirm := confirmed }) ∧
        (vn < g.nvdDropout → g.nvdConfirm ≤ confirmed → moves { state := .normal, timing := 0, confirm := 0 })) ∧
      (h.state = .idle ∨ h.state = .waiting →
        let occurred (f : Factor) (count : Nat) : Prop := (∀ j, (s.chan j).state ≠ .armed) →
          let r := s.fac f
          t.fac f = { r with
            flag := true, count := min 255 (r.count + 1), firstTime := if r.flag then r.firstTime else some s.stamp,
            lastDetail := some (detail ([byte (e.tag.val / 32), byte (e.tag.val % 32)] ++ bytes16 vn ++ bytes16 count ++
              [byte s.activeNo.val])) } ∧
          ∀ k, k ≠ f → t.fac k = s.fac k
        (v.state = .normal ∨ v.state = .timing → t.efu.nvd.state = .displaced →
          let starts : Prop := h.table.enable = true ∧ s.mgu.part = .active ∧ h.state = .idle ∧ h.rearm = true
          occurred fNvdDisplaced t.efu.nvd.timing ∧
          (starts → t.hnc = { h with state := .waiting, timer := some h.table.startDelay }) ∧ (¬ starts → t.hnc = h)) ∧
        (v.state = .displaced → t.efu.nvd.state = .normal →
          occurred fNvdNormal confirmed ∧
          (h.state = .idle → t.hnc = { h with rearm := true }) ∧
          (h.state = .waiting → t.hnc = { h with state := .idle, timer := none, rearm := true })) ∧
        (v.state = .timing → t.efu.nvd.state = .normal → t.hnc = { h with rearm := true })) ∧
      -- a change goes to the hunt controller, in every state of the hunt, before its occurrence is made (R123)
      let changed : State := { taken with efu := { s.efu with nvd := t.efu.nvd } }
      let fields (count : Nat) : List Byte :=
        [byte (e.tag.val / 32), byte (e.tag.val % 32)] ++ bytes16 vn ++ bytes16 count ++ [byte s.activeNo.val]
      (v.state = .normal ∨ v.state = .timing → t.efu.nvd.state = .displaced →
        t = (changed.hncNvd .timing .displaced).occur fNvdDisplaced 0 (fields t.efu.nvd.timing)) ∧
      (v.state = .displaced → t.efu.nvd.state = .normal →
        t = (changed.hncNvd .displaced .normal).occur fNvdNormal 0 (fields confirmed)) ∧
      (v.state = .timing → t.efu.nvd.state = .normal → t = changed.hncNvd .timing .normal))) ∧
  -- a change of the NVD element and a running hunt
  (∀ (s : State) (old new : NvdState),
    let t := s.hncNvd old new
    let h : Hnc := if new = .normal then { s.hnc with rearm := true } else s.hnc
    let u : State := { s with hnc := h }
    let cleared : Prop := old = .displaced ∧ new = .normal
    let between : Prop := h.state = .opening ∨ h.state = .restoring ∨ h.state = .retestClosing
    (new = .normal → t.hnc.rearm = true) ∧
    -- no effect beyond re-arm (R128, R138 to R142)
    (h.state = .aborting → t = u) ∧
    (between ∨ h.state = .dwell → ¬ cleared → new ≠ .unknown → t = u) ∧
    (h.state = .retestWait → new ≠ .unknown → t = u) ∧
    (h.state = .retestDwell → new ≠ .unknown → new ≠ .displaced → t = u) ∧
    ∀ b k, s.underTest = some b → h.current = some k →
      let r := s.rcl b
      let locks : Prop := s.runs b = true → (∀ c, r.state ≠ .lockout c) → (t.rcl b).state = .lockout .huntFound
      let outcome (o : CandOutcome) : Prop := (t.hnc.cands[k.val]?).map (fun y => y.outcome) = some o
      let ended (w : HuntResult) (reason : Byte) : Prop :=
        t.hnc.state = .idle ∧ t.hnc.current = none ∧ t.hnc.timer = none ∧
        t.hnc.last = some { result := w, bay := some b, started := h.started, ended := s.stamp } ∧
        t.fru.stack = s.fru.stack.filter (fun e => e.origin != .hunt) ∧ (∀ c, (t.rcl c).block.hunt = false) ∧
        (s.mgu.part ≠ .bypass → (∀ j, (s.chan j).state ≠ .armed) → (t.fac fHuntEnd).lastDetail =
          some (detail ([byte w.code, byte b.val, byte b.val, reason] ++ bytes32 h.started ++ bytes32 s.stamp)))
      -- R142 and R141
      ((between ∨ h.state = .dwell ∨ h.state = .retestWait ∨ h.state = .retestDwell) → new = .unknown →
        HuntAborts u .abortedStale b t) ∧
      (between → cleared → HuntAborts u .clearedUnattributed b t) ∧
      -- R137
      (h.state = .dwell → cleared → OnlyHunt s t ∧ outcome .found ∧
        t.recd.top = s.recd.top + 1 ∧ t.recd.nextSeq = s.recd.nextSeq + 1 ∧ t.recd.count = min 16 (s.recd.count + 1) ∧
        (∃ x, t.recd.ring.look t.recd.top = some x ∧ x.seq = s.recd.nextSeq ∧ x.stamp = s.stamp ∧ x.bay = b ∧
          x.cause = .huntFound ∧ x.shots = r.shots ∧ x.group = s.activeNo ∧ x.level = s.fru.effective) ∧
        (s.fru.effective.val < h.table.fireLimit →
          t.hnc = { h with state := .retestWait, timer := some h.table.retestDelay,
                           cands := h.cands.modify k.val (fun c => { c with outcome := .found }) } ∧
          t.bcu = s.bcu ∧ t.rcc = s.rcc ∧ t.fru = s.fru ∧ t.evu = s.evu) ∧
        (h.table.fireLimit ≤ s.fru.effective.val → ended .foundLocked 1 ∧ t.hnc.bayOpen = none ∧ locks)) ∧
      -- R140
      (h.state = .retestDwell → new = .displaced → OnlyHunt s t ∧ ended .foundPersistent 0 ∧ locks ∧
        (t.hnc.cands[k.val]?).map (fun y => y.outcome) = (h.cands[k.val]?).map (fun y => y.outcome) ∧
        ((s.cap (bayRec b)).inService = true → (s.status (bayRec b)).localMode = false →
          let x := s.slot (bayRec b)
          (x.state = .free → x.pend = Pending.none →
            let tag := if x.lastTag = 255 then 1 else x.lastTag + 1
            (t.slot (bayRec b)).state = .inFlight { cmd := .opening, tag := tag, cls := .hunt, issued := s.mono,
                                                    tripAttached := false, timer := 120 }) ∧
          (x.state ≠ .free → (t.slot (bayRec b)).state = x.state ∧ (t.slot (bayRec b)).pend.hunt = some .opening))))

/-- R13: a magnitude is the square root rounded down and limited to 65535, a limit that phasors within the bounds of R12 do not
reach. -/
def Obligations.RootIsFloor : Prop :=
  ∀ re im : Int, (measOf re im).re = re ∧ (measOf re im).im = im ∧
    ((measOf re im).mag : Int) ^ 2 ≤ re ^ 2 + im ^ 2 ∧ (measOf re im).mag ≤ 65535 ∧
    ((measOf re im).mag < 65535 → re ^ 2 + im ^ 2 < ((measOf re im).mag + 1 : Int) ^ 2) ∧
    (-41585 ≤ re → re ≤ 41585 → -41585 ≤ im → im ≤ 41585 → (measOf re im).mag < 65535)

/-! ### Rules of the whole machine -/

/-- R94, R96 and R106: the stack stands in one of its orders through every step: BASE at the bottom, each origin at most once, HUNT
only at the top, and MANUAL above FIRE only while the season lock is not engaged. -/
def Obligations.StackShapeKept : Prop := ∀ s t : State, StackOk s → step s = .next t → StackOk t

/-- R52 and R63: while the part is in STANDDOWN no CLOSE is issued: a CLOSE in flight after a command was in flight before it,
with the same tag.  CLEAR_STANDDOWN and a cold reset leave STANDDOWN. -/
def Obligations.NoCloseInStanddown : Prop :=
  ∀ (c : Instr) (s t : State), s.mgu.part = .standdown → c ≠ .clearStanddown → isColdReset c = false → exec c s = .next t →
    t.mgu.part = .standdown ∧
    ∀ n tag, closeInFlight (t.slot n) = some tag → closeInFlight (s.slot n) = some tag

/-- R107 and R108: the season lock is disengaged only by SEASON_UNLOCK at effective level OFF, or by a cold reset; while it stands
the fire map keeps every record, and DECOMMISSION leaves the part state as it is. -/
def Obligations.SeasonLockHolds : Prop :=
  ∀ (c : Instr) (s t : State), s.fru.seasonLock = true → isColdReset c = false → exec c s = .next t →
    (t.fru.seasonLock = true ∨ (c = .seasonUnlock ∧ s.fru.effective = 0)) ∧ t.fru.fireMap = s.fru.fireMap ∧
    (c = .decommission → t.mgu.part = s.mgu.part)

/-- R192: the part state changes by the events of its table alone, each in the command in which it comes about. -/
def Obligations.PartStateChanges : Prop :=
  (∀ (c : Instr) (s t : State), exec c s = .next t → PartChange c s.mgu.part t.mgu.part) ∧
  (∀ s t : State, s.pending = [] → step s = .next t → t.mgu.part = s.mgu.part)

/-- R186 and R191 with the tables' own rules: each table changes by the writes to it alone, and by a cold reset; the capability
table by SET_BACKUP_ADDR too.  The part's address changes by a cold reset alone (R181), and no command moves the
monotonic count (R197). -/
def Obligations.TablesKept : Prop :=
  ∀ (c : Instr) (s t : State), isColdReset c = false → exec c s = .next t →
    (writesTable c 1 = false → t.meu.table = s.meu.table) ∧
    (writesTable c 2 = false → (∀ imm, c ≠ .setBackupAddr imm) → t.bcu.cap = s.bcu.cap) ∧
    (writesTable c 3 = false → t.pru.groups = s.pru.groups) ∧
    (writesTable c 4 = false → writesTable c 5 = false → t.pru.curves = s.pru.curves) ∧
    (writesTable c 8 = false → t.fru.fireMap = s.fru.fireMap) ∧
    (writesTable c 10 = false → t.hnc.table = s.hnc.table) ∧
    (writesTable c 12 = false → t.recd.segments = s.recd.segments) ∧
    (writesTable c 13 = false → ∀ k, (t.chan k).trigger = (s.chan k).trigger ∧ (t.chan k).bay = (s.chan k).bay ∧
      (t.chan k).pre = (s.chan k).pre ∧ (t.chan k).length = (s.chan k).length ∧
      (t.chan k).reportAtEnd = (s.chan k).reportAtEnd) ∧
    (writesTable c 15 = false → ∀ f, (t.fac f).enable = (s.fac f).enable ∧ (t.fac f).level = (s.fac f).level) ∧
    t.riu.own = s.riu.own ∧ t.pins.straps = s.pins.straps ∧ t.mono = s.mono

/-- R101: each in-service bay carries FIRE exactly when it is in the block mask of the effective level, in ACTIVE and STANDDOWN, and
no bay carries it otherwise, through every step. -/
def Obligations.FireReasonsKept : Prop := ∀ s t : State, FireOk s → step s = .next t → FireOk t

/-- R28, R31, R73 and R93: every accumulator stays within full scale, every PHI count within 2, and every shot count and shot cap
within 4, through every step. -/
def Obligations.CountsKept : Prop :=
  ∀ s t : State, step s = .next t → (ElementsOk s → ElementsOk t) ∧ (ShotsOk s → ShotsOk t)

/-- R149, R163, R178, R179, R184 and R187: every queue, window and list stays within its size, every request in hand keeps its
account of ops and entries, and no reply passes 1024 bytes, through every step. -/
def Obligations.QueuesKept : Prop :=
  ∀ s t : State, step s = .next t → (QueuesOk s → QueuesOk t) ∧ (RequestsOk s → RequestsOk t)

/-- R50, R52 and R53: through every step no TRIP request waits at a slot, the command in flight has the slot's last tag, from 1 to
255, and only an OPEN carries a trip. -/
def Obligations.SlotsKept : Prop := ∀ s t : State, SlotsOk s → step s = .next t → SlotsOk t

/-- The state after reset meets every invariant above.  State.reset, the part after a cold reset with strap address 1 and the TFB pin
released, is the model's choice (log entry 1, DESIGN CHOICE). -/
def Obligations.ResetIsWellKept : Prop :=
  StackOk State.reset ∧ ElementsOk State.reset ∧ ShotsOk State.reset ∧ QueuesOk State.reset ∧ SlotsOk State.reset ∧
    FireOk State.reset ∧ RequestsOk State.reset
end

