-- ==== Sys2Proof/Laws/State.lean ====
section
/-! SUPPORT. One lemma per field for every update of one record of the state, and the reading of one entry of a table
after an entry is replaced, so that no later proof unfolds a record update. -/

@[simp] theorem Vector.look_put_same {α : Type} {n : Nat} (v : Vector α n) (i : Fin n) (x : α) :
    (v.put i x).look i = x := by
  simp [Vector.look, Vector.put]

theorem Vector.look_put_other {α : Type} {n : Nat} (v : Vector α n) {i j : Fin n} (x : α) (h : i ≠ j) :
    (v.put i x).look j = v.look j := by
  have : i.val ≠ j.val := fun e => h (Fin.ext e)
  simp [Vector.look, Vector.put, this]

theorem Vector.look_put {α : Type} {n : Nat} (v : Vector α n) (i j : Fin n) (x : α) :
    (v.put i x).look j = if i = j then x else v.look j := by
  split
  · next h => subst h; simp
  · next h => exact look_put_other v x h

@[simp] theorem Vector.look_each {α β : Type} {n : Nat} (v : Vector α n) (f : α → β) (i : Fin n) :
    (v.each f).look i = f (v.look i) := by
  simp [Vector.look, Vector.each]

@[simp] theorem Vector.look_replicate {α : Type} {n : Nat} (x : α) (i : Fin n) : (Vector.replicate n x).look i = x := by
  simp [Vector.look]

/-- Two tables with the same entries are equal. -/
theorem Vector.ext_look {α : Type} {n : Nat} {v w : Vector α n} (h : ∀ i, v.look i = w.look i) : v = w := by
  apply Vector.ext
  intro i hi
  exact h ⟨i, hi⟩

/-- A view of the entries that does not see a replacement. -/
theorem Vector.each_put_of_eq {α β : Type} {n : Nat} (v : Vector α n) (f : α → β) (i : Fin n) (x : α)
    (h : f x = f (v.look i)) : (v.put i x).each f = v.each f := by
  apply ext_look
  intro j
  simp only [look_each, look_put]
  split
  · next e => subst e; exact h
  · rfl

theorem Vector.each_each_of_eq {α β : Type} {n : Nat} (v : Vector α n) (g : α → α) (f : α → β) (h : ∀ x, f (g x) = f x) :
    (v.each g).each f = v.each f := by
  apply ext_look
  intro j
  simp [h]

namespace Sys2Proof.Machine

variable (s : State)

@[simp] theorem State.setSlot_meu (n : Rec) (x : Slot) : (s.setSlot n x).meu = s.meu := rfl
@[simp] theorem State.setSlot_pru (n : Rec) (x : Slot) : (s.setSlot n x).pru = s.pru := rfl
@[simp] theorem State.setSlot_efu (n : Rec) (x : Slot) : (s.setSlot n x).efu = s.efu := rfl
@[simp] theorem State.setSlot_rcc (n : Rec) (x : Slot) : (s.setSlot n x).rcc = s.rcc := rfl
@[simp] theorem State.setSlot_fru (n : Rec) (x : Slot) : (s.setSlot n x).fru = s.fru := rfl
@[simp] theorem State.setSlot_hnc (n : Rec) (x : Slot) : (s.setSlot n x).hnc = s.hnc := rfl
@[simp] theorem State.setSlot_recd (n : Rec) (x : Slot) : (s.setSlot n x).recd = s.recd := rfl
@[simp] theorem State.setSlot_evu (n : Rec) (x : Slot) : (s.setSlot n x).evu = s.evu := rfl
@[simp] theorem State.setSlot_mgu (n : Rec) (x : Slot) : (s.setSlot n x).mgu = s.mgu := rfl
@[simp] theorem State.setSlot_riu (n : Rec) (x : Slot) : (s.setSlot n x).riu = s.riu := rfl
@[simp] theorem State.setSlot_pins (n : Rec) (x : Slot) : (s.setSlot n x).pins = s.pins := rfl
@[simp] theorem State.setSlot_mono (n : Rec) (x : Slot) : (s.setSlot n x).mono = s.mono := rfl
@[simp] theorem State.setSlot_pending (n : Rec) (x : Slot) : (s.setSlot n x).pending = s.pending := rfl
@[simp] theorem State.setSlot_bcu_cap (n : Rec) (x : Slot) : (s.setSlot n x).bcu.cap = s.bcu.cap := rfl
@[simp] theorem State.setSlot_bcu_status (n : Rec) (x : Slot) : (s.setSlot n x).bcu.status = s.bcu.status := rfl
@[simp] theorem State.setSlot_bcu_backupFlag (n : Rec) (x : Slot) : (s.setSlot n x).bcu.backupFlag = s.bcu.backupFlag := rfl

@[simp] theorem State.setStatus_meu (n : Rec) (x : BayStatus) : (s.setStatus n x).meu = s.meu := rfl
@[simp] theorem State.setStatus_pru (n : Rec) (x : BayStatus) : (s.setStatus n x).pru = s.pru := rfl
@[simp] theorem State.setStatus_efu (n : Rec) (x : BayStatus) : (s.setStatus n x).efu = s.efu := rfl
@[simp] theorem State.setStatus_rcc (n : Rec) (x : BayStatus) : (s.setStatus n x).rcc = s.rcc := rfl
@[simp] theorem State.setStatus_fru (n : Rec) (x : BayStatus) : (s.setStatus n x).fru = s.fru := rfl
@[simp] theorem State.setStatus_hnc (n : Rec) (x : BayStatus) : (s.setStatus n x).hnc = s.hnc := rfl
@[simp] theorem State.setStatus_recd (n : Rec) (x : BayStatus) : (s.setStatus n x).recd = s.recd := rfl
@[simp] theorem State.setStatus_evu (n : Rec) (x : BayStatus) : (s.setStatus n x).evu = s.evu := rfl
@[simp] theorem State.setStatus_mgu (n : Rec) (x : BayStatus) : (s.setStatus n x).mgu = s.mgu := rfl
@[simp] theorem State.setStatus_riu (n : Rec) (x : BayStatus) : (s.setStatus n x).riu = s.riu := rfl
@[simp] theorem State.setStatus_pins (n : Rec) (x : BayStatus) : (s.setStatus n x).pins = s.pins := rfl
@[simp] theorem State.setStatus_mono (n : Rec) (x : BayStatus) : (s.setStatus n x).mono = s.mono := rfl
@[simp] theorem State.setStatus_pending (n : Rec) (x : BayStatus) : (s.setStatus n x).pending = s.pending := rfl
@[simp] theorem State.setStatus_bcu_cap (n : Rec) (x : BayStatus) : (s.setStatus n x).bcu.cap = s.bcu.cap := rfl
@[simp] theorem State.setStatus_bcu_slots (n : Rec) (x : BayStatus) : (s.setStatus n x).bcu.slots = s.bcu.slots := rfl
@[simp] theorem State.setStatus_bcu_backupFlag (n : Rec) (x : BayStatus) : (s.setStatus n x).bcu.backupFlag = s.bcu.backupFlag := rfl

@[simp] theorem State.setCap_meu (n : Rec) (x : Capability) : (s.setCap n x).meu = s.meu := rfl
@[simp] theorem State.setCap_pru (n : Rec) (x : Capability) : (s.setCap n x).pru = s.pru := rfl
@[simp] theorem State.setCap_efu (n : Rec) (x : Capability) : (s.setCap n x).efu = s.efu := rfl
@[simp] theorem State.setCap_rcc (n : Rec) (x : Capability) : (s.setCap n x).rcc = s.rcc := rfl
@[simp] theorem State.setCap_fru (n : Rec) (x : Capability) : (s.setCap n x).fru = s.fru := rfl
@[simp] theorem State.setCap_hnc (n : Rec) (x : Capability) : (s.setCap n x).hnc = s.hnc := rfl
@[simp] theorem State.setCap_recd (n : Rec) (x : Capability) : (s.setCap n x).recd = s.recd := rfl
@[simp] theorem State.setCap_evu (n : Rec) (x : Capability) : (s.setCap n x).evu = s.evu := rfl
@[simp] theorem State.setCap_mgu (n : Rec) (x : Capability) : (s.setCap n x).mgu = s.mgu := rfl
@[simp] theorem State.setCap_riu (n : Rec) (x : Capability) : (s.setCap n x).riu = s.riu := rfl
@[simp] theorem State.setCap_pins (n : Rec) (x : Capability) : (s.setCap n x).pins = s.pins := rfl
@[simp] theorem State.setCap_mono (n : Rec) (x : Capability) : (s.setCap n x).mono = s.mono := rfl
@[simp] theorem State.setCap_pending (n : Rec) (x : Capability) : (s.setCap n x).pending = s.pending := rfl
@[simp] theorem State.setCap_bcu_status (n : Rec) (x : Capability) : (s.setCap n x).bcu.status = s.bcu.status := rfl
@[simp] theorem State.setCap_bcu_slots (n : Rec) (x : Capability) : (s.setCap n x).bcu.slots = s.bcu.slots := rfl
@[simp] theorem State.setCap_bcu_backupFlag (n : Rec) (x : Capability) : (s.setCap n x).bcu.backupFlag = s.bcu.backupFlag := rfl

@[simp] theorem State.setRcl_meu (b : Bay) (x : RecloseRecord) : (s.setRcl b x).meu = s.meu := rfl
@[simp] theorem State.setRcl_pru (b : Bay) (x : RecloseRecord) : (s.setRcl b x).pru = s.pru := rfl
@[simp] theorem State.setRcl_efu (b : Bay) (x : RecloseRecord) : (s.setRcl b x).efu = s.efu := rfl
@[simp] theorem State.setRcl_bcu (b : Bay) (x : RecloseRecord) : (s.setRcl b x).bcu = s.bcu := rfl
@[simp] theorem State.setRcl_fru (b : Bay) (x : RecloseRecord) : (s.setRcl b x).fru = s.fru := rfl
@[simp] theorem State.setRcl_hnc (b : Bay) (x : RecloseRecord) : (s.setRcl b x).hnc = s.hnc := rfl
@[simp] theorem State.setRcl_recd (b : Bay) (x : RecloseRecord) : (s.setRcl b x).recd = s.recd := rfl
@[simp] theorem State.setRcl_evu (b : Bay) (x : RecloseRecord) : (s.setRcl b x).evu = s.evu := rfl
@[simp] theorem State.setRcl_mgu (b : Bay) (x : RecloseRecord) : (s.setRcl b x).mgu = s.mgu := rfl
@[simp] theorem State.setRcl_riu (b : Bay) (x : RecloseRecord) : (s.setRcl b x).riu = s.riu := rfl
@[simp] theorem State.setRcl_pins (b : Bay) (x : RecloseRecord) : (s.setRcl b x).pins = s.pins := rfl
@[simp] theorem State.setRcl_mono (b : Bay) (x : RecloseRecord) : (s.setRcl b x).mono = s.mono := rfl
@[simp] theorem State.setRcl_pending (b : Bay) (x : RecloseRecord) : (s.setRcl b x).pending = s.pending := rfl

@[simp] theorem State.setElem_meu (b : Bay) (x : Elements) : (s.setElem b x).meu = s.meu := rfl
@[simp] theorem State.setElem_efu (b : Bay) (x : Elements) : (s.setElem b x).efu = s.efu := rfl
@[simp] theorem State.setElem_bcu (b : Bay) (x : Elements) : (s.setElem b x).bcu = s.bcu := rfl
@[simp] theorem State.setElem_rcc (b : Bay) (x : Elements) : (s.setElem b x).rcc = s.rcc := rfl
@[simp] theorem State.setElem_fru (b : Bay) (x : Elements) : (s.setElem b x).fru = s.fru := rfl
@[simp] theorem State.setElem_hnc (b : Bay) (x : Elements) : (s.setElem b x).hnc = s.hnc := rfl
@[simp] theorem State.setElem_recd (b : Bay) (x : Elements) : (s.setElem b x).recd = s.recd := rfl
@[simp] theorem State.setElem_evu (b : Bay) (x : Elements) : (s.setElem b x).evu = s.evu := rfl
@[simp] theorem State.setElem_mgu (b : Bay) (x : Elements) : (s.setElem b x).mgu = s.mgu := rfl
@[simp] theorem State.setElem_riu (b : Bay) (x : Elements) : (s.setElem b x).riu = s.riu := rfl
@[simp] theorem State.setElem_pins (b : Bay) (x : Elements) : (s.setElem b x).pins = s.pins := rfl
@[simp] theorem State.setElem_mono (b : Bay) (x : Elements) : (s.setElem b x).mono = s.mono := rfl
@[simp] theorem State.setElem_pending (b : Bay) (x : Elements) : (s.setElem b x).pending = s.pending := rfl
@[simp] theorem State.setElem_pru_groups (b : Bay) (x : Elements) : (s.setElem b x).pru.groups = s.pru.groups := rfl
@[simp] theorem State.setElem_pru_curves (b : Bay) (x : Elements) : (s.setElem b x).pru.curves = s.pru.curves := rfl

@[simp] theorem State.setCtx_pru (e : SrcIx) (x : SourceCtx) : (s.setCtx e x).pru = s.pru := rfl
@[simp] theorem State.setCtx_efu (e : SrcIx) (x : SourceCtx) : (s.setCtx e x).efu = s.efu := rfl
@[simp] theorem State.setCtx_bcu (e : SrcIx) (x : SourceCtx) : (s.setCtx e x).bcu = s.bcu := rfl
@[simp] theorem State.setCtx_rcc (e : SrcIx) (x : SourceCtx) : (s.setCtx e x).rcc = s.rcc := rfl
@[simp] theorem State.setCtx_fru (e : SrcIx) (x : SourceCtx) : (s.setCtx e x).fru = s.fru := rfl
@[simp] theorem State.setCtx_hnc (e : SrcIx) (x : SourceCtx) : (s.setCtx e x).hnc = s.hnc := rfl
@[simp] theorem State.setCtx_recd (e : SrcIx) (x : SourceCtx) : (s.setCtx e x).recd = s.recd := rfl
@[simp] theorem State.setCtx_evu (e : SrcIx) (x : SourceCtx) : (s.setCtx e x).evu = s.evu := rfl
@[simp] theorem State.setCtx_mgu (e : SrcIx) (x : SourceCtx) : (s.setCtx e x).mgu = s.mgu := rfl
@[simp] theorem State.setCtx_riu (e : SrcIx) (x : SourceCtx) : (s.setCtx e x).riu = s.riu := rfl
@[simp] theorem State.setCtx_pins (e : SrcIx) (x : SourceCtx) : (s.setCtx e x).pins = s.pins := rfl
@[simp] theorem State.setCtx_mono (e : SrcIx) (x : SourceCtx) : (s.setCtx e x).mono = s.mono := rfl
@[simp] theorem State.setCtx_pending (e : SrcIx) (x : SourceCtx) : (s.setCtx e x).pending = s.pending := rfl
@[simp] theorem State.setCtx_meu_table (e : SrcIx) (x : SourceCtx) : (s.setCtx e x).meu.table = s.meu.table := rfl
@[simp] theorem State.setCtx_meu_latestBus (e : SrcIx) (x : SourceCtx) : (s.setCtx e x).meu.latestBus = s.meu.latestBus := rfl
@[simp] theorem State.setCtx_meu_history (e : SrcIx) (x : SourceCtx) : (s.setCtx e x).meu.history = s.meu.history := rfl
@[simp] theorem State.setCtx_meu_waiting (e : SrcIx) (x : SourceCtx) : (s.setCtx e x).meu.waiting = s.meu.waiting := rfl

@[simp] theorem State.setFac_meu (f : Factor) (x : FactorRecord) : (s.setFac f x).meu = s.meu := rfl
@[simp] theorem State.setFac_pru (f : Factor) (x : FactorRecord) : (s.setFac f x).pru = s.pru := rfl
@[simp] theorem State.setFac_efu (f : Factor) (x : FactorRecord) : (s.setFac f x).efu = s.efu := rfl
@[simp] theorem State.setFac_bcu (f : Factor) (x : FactorRecord) : (s.setFac f x).bcu = s.bcu := rfl
@[simp] theorem State.setFac_rcc (f : Factor) (x : FactorRecord) : (s.setFac f x).rcc = s.rcc := rfl
@[simp] theorem State.setFac_fru (f : Factor) (x : FactorRecord) : (s.setFac f x).fru = s.fru := rfl
@[simp] theorem State.setFac_hnc (f : Factor) (x : FactorRecord) : (s.setFac f x).hnc = s.hnc := rfl
@[simp] theorem State.setFac_recd (f : Factor) (x : FactorRecord) : (s.setFac f x).recd = s.recd := rfl
@[simp] theorem State.setFac_mgu (f : Factor) (x : FactorRecord) : (s.setFac f x).mgu = s.mgu := rfl
@[simp] theorem State.setFac_riu (f : Factor) (x : FactorRecord) : (s.setFac f x).riu = s.riu := rfl
@[simp] theorem State.setFac_pins (f : Factor) (x : FactorRecord) : (s.setFac f x).pins = s.pins := rfl
@[simp] theorem State.setFac_mono (f : Factor) (x : FactorRecord) : (s.setFac f x).mono = s.mono := rfl
@[simp] theorem State.setFac_pending (f : Factor) (x : FactorRecord) : (s.setFac f x).pending = s.pending := rfl
@[simp] theorem State.setFac_evu_threshold (f : Factor) (x : FactorRecord) : (s.setFac f x).evu.threshold = s.evu.threshold := rfl
@[simp] theorem State.setFac_evu_dest (f : Factor) (x : FactorRecord) : (s.setFac f x).evu.dest = s.evu.dest := rfl
@[simp] theorem State.setFac_evu_outSlot (f : Factor) (x : FactorRecord) : (s.setFac f x).evu.outSlot = s.evu.outSlot := rfl

@[simp] theorem State.setChan_meu (k : Chan) (x : Channel) : (s.setChan k x).meu = s.meu := rfl
@[simp] theorem State.setChan_pru (k : Chan) (x : Channel) : (s.setChan k x).pru = s.pru := rfl
@[simp] theorem State.setChan_efu (k : Chan) (x : Channel) : (s.setChan k x).efu = s.efu := rfl
@[simp] theorem State.setChan_bcu (k : Chan) (x : Channel) : (s.setChan k x).bcu = s.bcu := rfl
@[simp] theorem State.setChan_rcc (k : Chan) (x : Channel) : (s.setChan k x).rcc = s.rcc := rfl
@[simp] theorem State.setChan_fru (k : Chan) (x : Channel) : (s.setChan k x).fru = s.fru := rfl
@[simp] theorem State.setChan_hnc (k : Chan) (x : Channel) : (s.setChan k x).hnc = s.hnc := rfl
@[simp] theorem State.setChan_evu (k : Chan) (x : Channel) : (s.setChan k x).evu = s.evu := rfl
@[simp] theorem State.setChan_mgu (k : Chan) (x : Channel) : (s.setChan k x).mgu = s.mgu := rfl
@[simp] theorem State.setChan_riu (k : Chan) (x : Channel) : (s.setChan k x).riu = s.riu := rfl
@[simp] theorem State.setChan_pins (k : Chan) (x : Channel) : (s.setChan k x).pins = s.pins := rfl
@[simp] theorem State.setChan_mono (k : Chan) (x : Channel) : (s.setChan k x).mono = s.mono := rfl
@[simp] theorem State.setChan_pending (k : Chan) (x : Channel) : (s.setChan k x).pending = s.pending := rfl
@[simp] theorem State.setChan_recd_ring (k : Chan) (x : Channel) : (s.setChan k x).recd.ring = s.recd.ring := rfl
@[simp] theorem State.setChan_recd_top (k : Chan) (x : Channel) : (s.setChan k x).recd.top = s.recd.top := rfl
@[simp] theorem State.setChan_recd_count (k : Chan) (x : Channel) : (s.setChan k x).recd.count = s.recd.count := rfl
@[simp] theorem State.setChan_recd_nextSeq (k : Chan) (x : Channel) : (s.setChan k x).recd.nextSeq = s.recd.nextSeq := rfl
@[simp] theorem State.setChan_recd_latest (k : Chan) (x : Channel) : (s.setChan k x).recd.latest = s.recd.latest := rfl
@[simp] theorem State.setChan_recd_segments (k : Chan) (x : Channel) : (s.setChan k x).recd.segments = s.recd.segments := rfl
@[simp] theorem State.setChan_recd_readouts (k : Chan) (x : Channel) : (s.setChan k x).recd.readouts = s.recd.readouts := rfl

@[simp] theorem State.setDir_meu (b : Bay) (d : Direction) : (s.setDir b d).meu = s.meu := rfl
@[simp] theorem State.setDir_pru (b : Bay) (d : Direction) : (s.setDir b d).pru = s.pru := rfl
@[simp] theorem State.setDir_bcu (b : Bay) (d : Direction) : (s.setDir b d).bcu = s.bcu := rfl
@[simp] theorem State.setDir_rcc (b : Bay) (d : Direction) : (s.setDir b d).rcc = s.rcc := rfl
@[simp] theorem State.setDir_fru (b : Bay) (d : Direction) : (s.setDir b d).fru = s.fru := rfl
@[simp] theorem State.setDir_hnc (b : Bay) (d : Direction) : (s.setDir b d).hnc = s.hnc := rfl
@[simp] theorem State.setDir_recd (b : Bay) (d : Direction) : (s.setDir b d).recd = s.recd := rfl
@[simp] theorem State.setDir_evu (b : Bay) (d : Direction) : (s.setDir b d).evu = s.evu := rfl
@[simp] theorem State.setDir_mgu (b : Bay) (d : Direction) : (s.setDir b d).mgu = s.mgu := rfl
@[simp] theorem State.setDir_riu (b : Bay) (d : Direction) : (s.setDir b d).riu = s.riu := rfl
@[simp] theorem State.setDir_pins (b : Bay) (d : Direction) : (s.setDir b d).pins = s.pins := rfl
@[simp] theorem State.setDir_mono (b : Bay) (d : Direction) : (s.setDir b d).mono = s.mono := rfl
@[simp] theorem State.setDir_pending (b : Bay) (d : Direction) : (s.setDir b d).pending = s.pending := rfl
@[simp] theorem State.setDir_efu_nvd (b : Bay) (d : Direction) : (s.setDir b d).efu.nvd = s.efu.nvd := rfl

@[simp] theorem State.setHnc_meu (h : Hnc) : (s.setHnc h).meu = s.meu := rfl
@[simp] theorem State.setHnc_pru (h : Hnc) : (s.setHnc h).pru = s.pru := rfl
@[simp] theorem State.setHnc_efu (h : Hnc) : (s.setHnc h).efu = s.efu := rfl
@[simp] theorem State.setHnc_bcu (h : Hnc) : (s.setHnc h).bcu = s.bcu := rfl
@[simp] theorem State.setHnc_rcc (h : Hnc) : (s.setHnc h).rcc = s.rcc := rfl
@[simp] theorem State.setHnc_fru (h : Hnc) : (s.setHnc h).fru = s.fru := rfl
@[simp] theorem State.setHnc_recd (h : Hnc) : (s.setHnc h).recd = s.recd := rfl
@[simp] theorem State.setHnc_evu (h : Hnc) : (s.setHnc h).evu = s.evu := rfl
@[simp] theorem State.setHnc_mgu (h : Hnc) : (s.setHnc h).mgu = s.mgu := rfl
@[simp] theorem State.setHnc_riu (h : Hnc) : (s.setHnc h).riu = s.riu := rfl
@[simp] theorem State.setHnc_pins (h : Hnc) : (s.setHnc h).pins = s.pins := rfl
@[simp] theorem State.setHnc_mono (h : Hnc) : (s.setHnc h).mono = s.mono := rfl
@[simp] theorem State.setHnc_pending (h : Hnc) : (s.setHnc h).pending = s.pending := rfl
@[simp] theorem State.setHnc_value (h : Hnc) : (s.setHnc h).hnc = h := rfl

@[simp] theorem State.setNvd_meu (v : Nvd) : (s.setNvd v).meu = s.meu := rfl
@[simp] theorem State.setNvd_pru (v : Nvd) : (s.setNvd v).pru = s.pru := rfl
@[simp] theorem State.setNvd_bcu (v : Nvd) : (s.setNvd v).bcu = s.bcu := rfl
@[simp] theorem State.setNvd_rcc (v : Nvd) : (s.setNvd v).rcc = s.rcc := rfl
@[simp] theorem State.setNvd_fru (v : Nvd) : (s.setNvd v).fru = s.fru := rfl
@[simp] theorem State.setNvd_hnc (v : Nvd) : (s.setNvd v).hnc = s.hnc := rfl
@[simp] theorem State.setNvd_recd (v : Nvd) : (s.setNvd v).recd = s.recd := rfl
@[simp] theorem State.setNvd_evu (v : Nvd) : (s.setNvd v).evu = s.evu := rfl
@[simp] theorem State.setNvd_mgu (v : Nvd) : (s.setNvd v).mgu = s.mgu := rfl
@[simp] theorem State.setNvd_riu (v : Nvd) : (s.setNvd v).riu = s.riu := rfl
@[simp] theorem State.setNvd_pins (v : Nvd) : (s.setNvd v).pins = s.pins := rfl
@[simp] theorem State.setNvd_mono (v : Nvd) : (s.setNvd v).mono = s.mono := rfl
@[simp] theorem State.setNvd_pending (v : Nvd) : (s.setNvd v).pending = s.pending := rfl
@[simp] theorem State.setNvd_efu_direction (v : Nvd) : (s.setNvd v).efu.direction = s.efu.direction := rfl
@[simp] theorem State.setNvd_value (v : Nvd) : (s.setNvd v).efu.nvd = v := rfl

@[simp] theorem State.setPart_meu (p : PartState) : (s.setPart p).meu = s.meu := rfl
@[simp] theorem State.setPart_pru (p : PartState) : (s.setPart p).pru = s.pru := rfl
@[simp] theorem State.setPart_efu (p : PartState) : (s.setPart p).efu = s.efu := rfl
@[simp] theorem State.setPart_bcu (p : PartState) : (s.setPart p).bcu = s.bcu := rfl
@[simp] theorem State.setPart_rcc (p : PartState) : (s.setPart p).rcc = s.rcc := rfl
@[simp] theorem State.setPart_fru (p : PartState) : (s.setPart p).fru = s.fru := rfl
@[simp] theorem State.setPart_hnc (p : PartState) : (s.setPart p).hnc = s.hnc := rfl
@[simp] theorem State.setPart_recd (p : PartState) : (s.setPart p).recd = s.recd := rfl
@[simp] theorem State.setPart_evu (p : PartState) : (s.setPart p).evu = s.evu := rfl
@[simp] theorem State.setPart_riu (p : PartState) : (s.setPart p).riu = s.riu := rfl
@[simp] theorem State.setPart_pins (p : PartState) : (s.setPart p).pins = s.pins := rfl
@[simp] theorem State.setPart_mono (p : PartState) : (s.setPart p).mono = s.mono := rfl
@[simp] theorem State.setPart_pending (p : PartState) : (s.setPart p).pending = s.pending := rfl
@[simp] theorem State.setPart_mgu_queue (p : PartState) : (s.setPart p).mgu.queue = s.mgu.queue := rfl
@[simp] theorem State.setPart_mgu_cur (p : PartState) : (s.setPart p).mgu.cur = s.mgu.cur := rfl
@[simp] theorem State.setPart_mgu_offset (p : PartState) : (s.setPart p).mgu.offset = s.mgu.offset := rfl
@[simp] theorem State.setPart_value (p : PartState) : (s.setPart p).mgu.part = p := rfl

@[simp] theorem State.setBackup_meu (b : Bool) : (s.setBackup b).meu = s.meu := rfl
@[simp] theorem State.setBackup_pru (b : Bool) : (s.setBackup b).pru = s.pru := rfl
@[simp] theorem State.setBackup_efu (b : Bool) : (s.setBackup b).efu = s.efu := rfl
@[simp] theorem State.setBackup_rcc (b : Bool) : (s.setBackup b).rcc = s.rcc := rfl
@[simp] theorem State.setBackup_fru (b : Bool) : (s.setBackup b).fru = s.fru := rfl
@[simp] theorem State.setBackup_hnc (b : Bool) : (s.setBackup b).hnc = s.hnc := rfl
@[simp] theorem State.setBackup_recd (b : Bool) : (s.setBackup b).recd = s.recd := rfl
@[simp] theorem State.setBackup_evu (b : Bool) : (s.setBackup b).evu = s.evu := rfl
@[simp] theorem State.setBackup_mgu (b : Bool) : (s.setBackup b).mgu = s.mgu := rfl
@[simp] theorem State.setBackup_riu (b : Bool) : (s.setBackup b).riu = s.riu := rfl
@[simp] theorem State.setBackup_pins (b : Bool) : (s.setBackup b).pins = s.pins := rfl
@[simp] theorem State.setBackup_mono (b : Bool) : (s.setBackup b).mono = s.mono := rfl
@[simp] theorem State.setBackup_pending (b : Bool) : (s.setBackup b).pending = s.pending := rfl
@[simp] theorem State.setBackup_bcu_cap (b : Bool) : (s.setBackup b).bcu.cap = s.bcu.cap := rfl
@[simp] theorem State.setBackup_bcu_status (b : Bool) : (s.setBackup b).bcu.status = s.bcu.status := rfl
@[simp] theorem State.setBackup_bcu_slots (b : Bool) : (s.setBackup b).bcu.slots = s.bcu.slots := rfl
@[simp] theorem State.setBackup_value (b : Bool) : (s.setBackup b).bcu.backupFlag = b := rfl

@[simp] theorem State.setStack_meu (l : List StackEntry) : (s.setStack l).meu = s.meu := rfl
@[simp] theorem State.setStack_pru (l : List StackEntry) : (s.setStack l).pru = s.pru := rfl
@[simp] theorem State.setStack_efu (l : List StackEntry) : (s.setStack l).efu = s.efu := rfl
@[simp] theorem State.setStack_bcu (l : List StackEntry) : (s.setStack l).bcu = s.bcu := rfl
@[simp] theorem State.setStack_rcc (l : List StackEntry) : (s.setStack l).rcc = s.rcc := rfl
@[simp] theorem State.setStack_hnc (l : List StackEntry) : (s.setStack l).hnc = s.hnc := rfl
@[simp] theorem State.setStack_recd (l : List StackEntry) : (s.setStack l).recd = s.recd := rfl
@[simp] theorem State.setStack_evu (l : List StackEntry) : (s.setStack l).evu = s.evu := rfl
@[simp] theorem State.setStack_mgu (l : List StackEntry) : (s.setStack l).mgu = s.mgu := rfl
@[simp] theorem State.setStack_riu (l : List StackEntry) : (s.setStack l).riu = s.riu := rfl
@[simp] theorem State.setStack_pins (l : List StackEntry) : (s.setStack l).pins = s.pins := rfl
@[simp] theorem State.setStack_mono (l : List StackEntry) : (s.setStack l).mono = s.mono := rfl
@[simp] theorem State.setStack_pending (l : List StackEntry) : (s.setStack l).pending = s.pending := rfl
@[simp] theorem State.setStack_fru_commanded (l : List StackEntry) : (s.setStack l).fru.commanded = s.fru.commanded := rfl
@[simp] theorem State.setStack_fru_pinLevel (l : List StackEntry) : (s.setStack l).fru.pinLevel = s.fru.pinLevel := rfl
@[simp] theorem State.setStack_fru_effective (l : List StackEntry) : (s.setStack l).fru.effective = s.fru.effective := rfl
@[simp] theorem State.setStack_fru_fireMap (l : List StackEntry) : (s.setStack l).fru.fireMap = s.fru.fireMap := rfl
@[simp] theorem State.setStack_fru_seasonLock (l : List StackEntry) : (s.setStack l).fru.seasonLock = s.fru.seasonLock := rfl
@[simp] theorem State.setStack_value (l : List StackEntry) : (s.setStack l).fru.stack = l := rfl

@[simp] theorem State.setOutPlace_meu (n : Rec) (f : Option Frame) : (s.setOutPlace n f).meu = s.meu := rfl
@[simp] theorem State.setOutPlace_pru (n : Rec) (f : Option Frame) : (s.setOutPlace n f).pru = s.pru := rfl
@[simp] theorem State.setOutPlace_efu (n : Rec) (f : Option Frame) : (s.setOutPlace n f).efu = s.efu := rfl
@[simp] theorem State.setOutPlace_bcu (n : Rec) (f : Option Frame) : (s.setOutPlace n f).bcu = s.bcu := rfl
@[simp] theorem State.setOutPlace_rcc (n : Rec) (f : Option Frame) : (s.setOutPlace n f).rcc = s.rcc := rfl
@[simp] theorem State.setOutPlace_fru (n : Rec) (f : Option Frame) : (s.setOutPlace n f).fru = s.fru := rfl
@[simp] theorem State.setOutPlace_hnc (n : Rec) (f : Option Frame) : (s.setOutPlace n f).hnc = s.hnc := rfl
@[simp] theorem State.setOutPlace_recd (n : Rec) (f : Option Frame) : (s.setOutPlace n f).recd = s.recd := rfl
@[simp] theorem State.setOutPlace_evu (n : Rec) (f : Option Frame) : (s.setOutPlace n f).evu = s.evu := rfl
@[simp] theorem State.setOutPlace_mgu (n : Rec) (f : Option Frame) : (s.setOutPlace n f).mgu = s.mgu := rfl
@[simp] theorem State.setOutPlace_pins (n : Rec) (f : Option Frame) : (s.setOutPlace n f).pins = s.pins := rfl
@[simp] theorem State.setOutPlace_mono (n : Rec) (f : Option Frame) : (s.setOutPlace n f).mono = s.mono := rfl
@[simp] theorem State.setOutPlace_pending (n : Rec) (f : Option Frame) : (s.setOutPlace n f).pending = s.pending := rfl
@[simp] theorem State.setOutPlace_riu_own (n : Rec) (f : Option Frame) : (s.setOutPlace n f).riu.own = s.riu.own := rfl
@[simp] theorem State.setOutPlace_riu_inUp (n : Rec) (f : Option Frame) : (s.setOutPlace n f).riu.inUp = s.riu.inUp := rfl
@[simp] theorem State.setOutPlace_riu_inTimer (n : Rec) (f : Option Frame) : (s.setOutPlace n f).riu.inTimer = s.riu.inTimer := rfl
@[simp] theorem State.setOutPlace_riu_checkFail (n : Rec) (f : Option Frame) : (s.setOutPlace n f).riu.checkFail = s.riu.checkFail := rfl
@[simp] theorem State.setOutPlace_riu_overrun (n : Rec) (f : Option Frame) : (s.setOutPlace n f).riu.overrun = s.riu.overrun := rfl
@[simp] theorem State.setOutPlace_riu_fwd (n : Rec) (f : Option Frame) : (s.setOutPlace n f).riu.fwd = s.riu.fwd := rfl
@[simp] theorem State.setOutPlace_riu_replies (n : Rec) (f : Option Frame) : (s.setOutPlace n f).riu.replies = s.riu.replies := rfl
@[simp] theorem State.setOutPlace_riu_capQueue (n : Rec) (f : Option Frame) : (s.setOutPlace n f).riu.capQueue = s.riu.capQueue := rfl
@[simp] theorem State.setOutPlace_riu_lastIn (n : Rec) (f : Option Frame) : (s.setOutPlace n f).riu.lastIn = s.riu.lastIn := rfl
@[simp] theorem State.setOutPlace_riu_sending (n : Rec) (f : Option Frame) : (s.setOutPlace n f).riu.sending = s.riu.sending := rfl

@[simp] theorem State.setCur_meu (p : Option Progress) : (s.setCur p).meu = s.meu := rfl
@[simp] theorem State.setCur_pru (p : Option Progress) : (s.setCur p).pru = s.pru := rfl
@[simp] theorem State.setCur_efu (p : Option Progress) : (s.setCur p).efu = s.efu := rfl
@[simp] theorem State.setCur_bcu (p : Option Progress) : (s.setCur p).bcu = s.bcu := rfl
@[simp] theorem State.setCur_rcc (p : Option Progress) : (s.setCur p).rcc = s.rcc := rfl
@[simp] theorem State.setCur_fru (p : Option Progress) : (s.setCur p).fru = s.fru := rfl
@[simp] theorem State.setCur_hnc (p : Option Progress) : (s.setCur p).hnc = s.hnc := rfl
@[simp] theorem State.setCur_recd (p : Option Progress) : (s.setCur p).recd = s.recd := rfl
@[simp] theorem State.setCur_evu (p : Option Progress) : (s.setCur p).evu = s.evu := rfl
@[simp] theorem State.setCur_riu (p : Option Progress) : (s.setCur p).riu = s.riu := rfl
@[simp] theorem State.setCur_pins (p : Option Progress) : (s.setCur p).pins = s.pins := rfl
@[simp] theorem State.setCur_mono (p : Option Progress) : (s.setCur p).mono = s.mono := rfl
@[simp] theorem State.setCur_pending (p : Option Progress) : (s.setCur p).pending = s.pending := rfl
@[simp] theorem State.setCur_mgu_queue (p : Option Progress) : (s.setCur p).mgu.queue = s.mgu.queue := rfl
@[simp] theorem State.setCur_mgu_part (p : Option Progress) : (s.setCur p).mgu.part = s.mgu.part := rfl
@[simp] theorem State.setCur_mgu_offset (p : Option Progress) : (s.setCur p).mgu.offset = s.mgu.offset := rfl
@[simp] theorem State.setCur_value (p : Option Progress) : (s.setCur p).mgu.cur = p := rfl

@[simp] theorem State.setSlot_slot (n : Rec) (x : Slot) : (s.setSlot n x).slot n = x := by
  simp [State.setSlot, State.slot]

theorem State.setSlot_slot_at (n : Rec) (x : Slot) (m : Rec) :
    (s.setSlot n x).slot m = if n = m then x else s.slot m := by
  simp [State.setSlot, State.slot, Vector.look_put]

@[simp] theorem State.setStatus_status (n : Rec) (x : BayStatus) : (s.setStatus n x).status n = x := by
  simp [State.setStatus, State.status]

theorem State.setStatus_status_at (n : Rec) (x : BayStatus) (m : Rec) :
    (s.setStatus n x).status m = if n = m then x else s.status m := by
  simp [State.setStatus, State.status, Vector.look_put]

@[simp] theorem State.setCap_cap (n : Rec) (x : Capability) : (s.setCap n x).cap n = x := by
  simp [State.setCap, State.cap]

theorem State.setCap_cap_at (n : Rec) (x : Capability) (m : Rec) :
    (s.setCap n x).cap m = if n = m then x else s.cap m := by
  simp [State.setCap, State.cap, Vector.look_put]

@[simp] theorem State.setRcl_rcl (b : Bay) (x : RecloseRecord) : (s.setRcl b x).rcl b = x := by
  simp [State.setRcl, State.rcl]

theorem State.setRcl_rcl_at (b : Bay) (x : RecloseRecord) (c : Bay) :
    (s.setRcl b x).rcl c = if b = c then x else s.rcl c := by
  simp [State.setRcl, State.rcl, Vector.look_put]

@[simp] theorem State.setElem_elem (b : Bay) (x : Elements) : (s.setElem b x).elem b = x := by
  simp [State.setElem, State.elem]

theorem State.setElem_elem_at (b : Bay) (x : Elements) (c : Bay) :
    (s.setElem b x).elem c = if b = c then x else s.elem c := by
  simp [State.setElem, State.elem, Vector.look_put]

@[simp] theorem State.setCtx_ctx (e : SrcIx) (x : SourceCtx) : (s.setCtx e x).ctx e = x := by
  simp [State.setCtx, State.ctx]

theorem State.setCtx_ctx_at (e : SrcIx) (x : SourceCtx) (f : SrcIx) :
    (s.setCtx e x).ctx f = if e = f then x else s.ctx f := by
  simp [State.setCtx, State.ctx, Vector.look_put]

@[simp] theorem State.setFac_fac (f : Factor) (x : FactorRecord) : (s.setFac f x).fac f = x := by
  simp [State.setFac, State.fac]

theorem State.setFac_fac_at (f : Factor) (x : FactorRecord) (g : Factor) :
    (s.setFac f x).fac g = if f = g then x else s.fac g := by
  simp [State.setFac, State.fac, Vector.look_put]

@[simp] theorem State.setChan_chan (k : Chan) (x : Channel) : (s.setChan k x).chan k = x := by
  simp [State.setChan, State.chan]

theorem State.setChan_chan_at (k : Chan) (x : Channel) (j : Chan) :
    (s.setChan k x).chan j = if k = j then x else s.chan j := by
  simp [State.setChan, State.chan, Vector.look_put]

@[simp] theorem State.setDir_dir (b : Bay) (d : Direction) : (s.setDir b d).dir b = d := by
  simp [State.setDir, State.dir]

theorem State.setDir_dir_at (b : Bay) (d : Direction) (c : Bay) :
    (s.setDir b d).dir c = if b = c then d else s.dir c := by
  simp [State.setDir, State.dir, Vector.look_put]

@[simp] theorem State.setSlot_reads_status (n : Rec) (x : Slot) (m : Rec) : (s.setSlot n x).status m = s.status m := rfl
@[simp] theorem State.setSlot_reads_cap (n : Rec) (x : Slot) (m : Rec) : (s.setSlot n x).cap m = s.cap m := rfl
@[simp] theorem State.setSlot_reads_rcl (n : Rec) (x : Slot) (c : Bay) : (s.setSlot n x).rcl c = s.rcl c := rfl
@[simp] theorem State.setSlot_reads_elem (n : Rec) (x : Slot) (c : Bay) : (s.setSlot n x).elem c = s.elem c := rfl
@[simp] theorem State.setSlot_reads_ctx (n : Rec) (x : Slot) (f' : SrcIx) : (s.setSlot n x).ctx f' = s.ctx f' := rfl
@[simp] theorem State.setSlot_reads_src (n : Rec) (x : Slot) (f' : SrcIx) : (s.setSlot n x).src f' = s.src f' := rfl
@[simp] theorem State.setSlot_reads_fac (n : Rec) (x : Slot) (g : Factor) : (s.setSlot n x).fac g = s.fac g := rfl
@[simp] theorem State.setSlot_reads_chan (n : Rec) (x : Slot) (j : Chan) : (s.setSlot n x).chan j = s.chan j := rfl
@[simp] theorem State.setSlot_reads_dir (n : Rec) (x : Slot) (c : Bay) : (s.setSlot n x).dir c = s.dir c := rfl
@[simp] theorem State.setStatus_reads_slot (n : Rec) (x : BayStatus) (m : Rec) : (s.setStatus n x).slot m = s.slot m := rfl
@[simp] theorem State.setStatus_reads_cap (n : Rec) (x : BayStatus) (m : Rec) : (s.setStatus n x).cap m = s.cap m := rfl
@[simp] theorem State.setStatus_reads_rcl (n : Rec) (x : BayStatus) (c : Bay) : (s.setStatus n x).rcl c = s.rcl c := rfl
@[simp] theorem State.setStatus_reads_elem (n : Rec) (x : BayStatus) (c : Bay) : (s.setStatus n x).elem c = s.elem c := rfl
@[simp] theorem State.setStatus_reads_ctx (n : Rec) (x : BayStatus) (f' : SrcIx) : (s.setStatus n x).ctx f' = s.ctx f' := rfl
@[simp] theorem State.setStatus_reads_src (n : Rec) (x : BayStatus) (f' : SrcIx) : (s.setStatus n x).src f' = s.src f' := rfl
@[simp] theorem State.setStatus_reads_fac (n : Rec) (x : BayStatus) (g : Factor) : (s.setStatus n x).fac g = s.fac g := rfl
@[simp] theorem State.setStatus_reads_chan (n : Rec) (x : BayStatus) (j : Chan) : (s.setStatus n x).chan j = s.chan j := rfl
@[simp] theorem State.setStatus_reads_dir (n : Rec) (x : BayStatus) (c : Bay) : (s.setStatus n x).dir c = s.dir c := rfl
@[simp] theorem State.setCap_reads_slot (n : Rec) (x : Capability) (m : Rec) : (s.setCap n x).slot m = s.slot m := rfl
@[simp] theorem State.setCap_reads_status (n : Rec) (x : Capability) (m : Rec) : (s.setCap n x).status m = s.status m := rfl
@[simp] theorem State.setCap_reads_rcl (n : Rec) (x : Capability) (c : Bay) : (s.setCap n x).rcl c = s.rcl c := rfl
@[simp] theorem State.setCap_reads_elem (n : Rec) (x : Capability) (c : Bay) : (s.setCap n x).elem c = s.elem c := rfl
@[simp] theorem State.setCap_reads_ctx (n : Rec) (x : Capability) (f' : SrcIx) : (s.setCap n x).ctx f' = s.ctx f' := rfl
@[simp] theorem State.setCap_reads_src (n : Rec) (x : Capability) (f' : SrcIx) : (s.setCap n x).src f' = s.src f' := rfl
@[simp] theorem State.setCap_reads_fac (n : Rec) (x : Capability) (g : Factor) : (s.setCap n x).fac g = s.fac g := rfl
@[simp] theorem State.setCap_reads_chan (n : Rec) (x : Capability) (j : Chan) : (s.setCap n x).chan j = s.chan j := rfl
@[simp] theorem State.setCap_reads_dir (n : Rec) (x : Capability) (c : Bay) : (s.setCap n x).dir c = s.dir c := rfl
@[simp] theorem State.setRcl_reads_slot (b : Bay) (x : RecloseRecord) (m : Rec) : (s.setRcl b x).slot m = s.slot m := rfl
@[simp] theorem State.setRcl_reads_status (b : Bay) (x : RecloseRecord) (m : Rec) : (s.setRcl b x).status m = s.status m := rfl
@[simp] theorem State.setRcl_reads_cap (b : Bay) (x : RecloseRecord) (m : Rec) : (s.setRcl b x).cap m = s.cap m := rfl
@[simp] theorem State.setRcl_reads_elem (b : Bay) (x : RecloseRecord) (c : Bay) : (s.setRcl b x).elem c = s.elem c := rfl
@[simp] theorem State.setRcl_reads_ctx (b : Bay) (x : RecloseRecord) (f' : SrcIx) : (s.setRcl b x).ctx f' = s.ctx f' := rfl
@[simp] theorem State.setRcl_reads_src (b : Bay) (x : RecloseRecord) (f' : SrcIx) : (s.setRcl b x).src f' = s.src f' := rfl
@[simp] theorem State.setRcl_reads_fac (b : Bay) (x : RecloseRecord) (g : Factor) : (s.setRcl b x).fac g = s.fac g := rfl
@[simp] theorem State.setRcl_reads_chan (b : Bay) (x : RecloseRecord) (j : Chan) : (s.setRcl b x).chan j = s.chan j := rfl
@[simp] theorem State.setRcl_reads_dir (b : Bay) (x : RecloseRecord) (c : Bay) : (s.setRcl b x).dir c = s.dir c := rfl
@[simp] theorem State.setElem_reads_slot (b : Bay) (x : Elements) (m : Rec) : (s.setElem b x).slot m = s.slot m := rfl
@[simp] theorem State.setElem_reads_status (b : Bay) (x : Elements) (m : Rec) : (s.setElem b x).status m = s.status m := rfl
@[simp] theorem State.setElem_reads_cap (b : Bay) (x : Elements) (m : Rec) : (s.setElem b x).cap m = s.cap m := rfl
@[simp] theorem State.setElem_reads_rcl (b : Bay) (x : Elements) (c : Bay) : (s.setElem b x).rcl c = s.rcl c := rfl
@[simp] theorem State.setElem_reads_ctx (b : Bay) (x : Elements) (f' : SrcIx) : (s.setElem b x).ctx f' = s.ctx f' := rfl
@[simp] theorem State.setElem_reads_src (b : Bay) (x : Elements) (f' : SrcIx) : (s.setElem b x).src f' = s.src f' := rfl
@[simp] theorem State.setElem_reads_fac (b : Bay) (x : Elements) (g : Factor) : (s.setElem b x).fac g = s.fac g := rfl
@[simp] theorem State.setElem_reads_chan (b : Bay) (x : Elements) (j : Chan) : (s.setElem b x).chan j = s.chan j := rfl
@[simp] theorem State.setElem_reads_dir (b : Bay) (x : Elements) (c : Bay) : (s.setElem b x).dir c = s.dir c := rfl
@[simp] theorem State.setCtx_reads_slot (e : SrcIx) (x : SourceCtx) (m : Rec) : (s.setCtx e x).slot m = s.slot m := rfl
@[simp] theorem State.setCtx_reads_status (e : SrcIx) (x : SourceCtx) (m : Rec) : (s.setCtx e x).status m = s.status m := rfl
@[simp] theorem State.setCtx_reads_cap (e : SrcIx) (x : SourceCtx) (m : Rec) : (s.setCtx e x).cap m = s.cap m := rfl
@[simp] theorem State.setCtx_reads_rcl (e : SrcIx) (x : SourceCtx) (c : Bay) : (s.setCtx e x).rcl c = s.rcl c := rfl
@[simp] theorem State.setCtx_reads_elem (e : SrcIx) (x : SourceCtx) (c : Bay) : (s.setCtx e x).elem c = s.elem c := rfl
@[simp] theorem State.setCtx_reads_src (e : SrcIx) (x : SourceCtx) (f' : SrcIx) : (s.setCtx e x).src f' = s.src f' := rfl
@[simp] theorem State.setCtx_reads_fac (e : SrcIx) (x : SourceCtx) (g : Factor) : (s.setCtx e x).fac g = s.fac g := rfl
@[simp] theorem State.setCtx_reads_chan (e : SrcIx) (x : SourceCtx) (j : Chan) : (s.setCtx e x).chan j = s.chan j := rfl
@[simp] theorem State.setCtx_reads_dir (e : SrcIx) (x : SourceCtx) (c : Bay) : (s.setCtx e x).dir c = s.dir c := rfl
@[simp] theorem State.setFac_reads_slot (f : Factor) (x : FactorRecord) (m : Rec) : (s.setFac f x).slot m = s.slot m := rfl
@[simp] theorem State.setFac_reads_status (f : Factor) (x : FactorRecord) (m : Rec) : (s.setFac f x).status m = s.status m := rfl
@[simp] theorem State.setFac_reads_cap (f : Factor) (x : FactorRecord) (m : Rec) : (s.setFac f x).cap m = s.cap m := rfl
@[simp] theorem State.setFac_reads_rcl (f : Factor) (x : FactorRecord) (c : Bay) : (s.setFac f x).rcl c = s.rcl c := rfl
@[simp] theorem State.setFac_reads_elem (f : Factor) (x : FactorRecord) (c : Bay) : (s.setFac f x).elem c = s.elem c := rfl
@[simp] theorem State.setFac_reads_ctx (f : Factor) (x : FactorRecord) (f' : SrcIx) : (s.setFac f x).ctx f' = s.ctx f' := rfl
@[simp] theorem State.setFac_reads_src (f : Factor) (x : FactorRecord) (f' : SrcIx) : (s.setFac f x).src f' = s.src f' := rfl
@[simp] theorem State.setFac_reads_chan (f : Factor) (x : FactorRecord) (j : Chan) : (s.setFac f x).chan j = s.chan j := rfl
@[simp] theorem State.setFac_reads_dir (f : Factor) (x : FactorRecord) (c : Bay) : (s.setFac f x).dir c = s.dir c := rfl
@[simp] theorem State.setChan_reads_slot (k : Chan) (x : Channel) (m : Rec) : (s.setChan k x).slot m = s.slot m := rfl
@[simp] theorem State.setChan_reads_status (k : Chan) (x : Channel) (m : Rec) : (s.setChan k x).status m = s.status m := rfl
@[simp] theorem State.setChan_reads_cap (k : Chan) (x : Channel) (m : Rec) : (s.setChan k x).cap m = s.cap m := rfl
@[simp] theorem State.setChan_reads_rcl (k : Chan) (x : Channel) (c : Bay) : (s.setChan k x).rcl c = s.rcl c := rfl
@[simp] theorem State.setChan_reads_elem (k : Chan) (x : Channel) (c : Bay) : (s.setChan k x).elem c = s.elem c := rfl
@[simp] theorem State.setChan_reads_ctx (k : Chan) (x : Channel) (f' : SrcIx) : (s.setChan k x).ctx f' = s.ctx f' := rfl
@[simp] theorem State.setChan_reads_src (k : Chan) (x : Channel) (f' : SrcIx) : (s.setChan k x).src f' = s.src f' := rfl
@[simp] theorem State.setChan_reads_fac (k : Chan) (x : Channel) (g : Factor) : (s.setChan k x).fac g = s.fac g := rfl
@[simp] theorem State.setChan_reads_dir (k : Chan) (x : Channel) (c : Bay) : (s.setChan k x).dir c = s.dir c := rfl
@[simp] theorem State.setDir_reads_slot (b : Bay) (d : Direction) (m : Rec) : (s.setDir b d).slot m = s.slot m := rfl
@[simp] theorem State.setDir_reads_status (b : Bay) (d : Direction) (m : Rec) : (s.setDir b d).status m = s.status m := rfl
@[simp] theorem State.setDir_reads_cap (b : Bay) (d : Direction) (m : Rec) : (s.setDir b d).cap m = s.cap m := rfl
@[simp] theorem State.setDir_reads_rcl (b : Bay) (d : Direction) (c : Bay) : (s.setDir b d).rcl c = s.rcl c := rfl
@[simp] theorem State.setDir_reads_elem (b : Bay) (d : Direction) (c : Bay) : (s.setDir b d).elem c = s.elem c := rfl
@[simp] theorem State.setDir_reads_ctx (b : Bay) (d : Direction) (f' : SrcIx) : (s.setDir b d).ctx f' = s.ctx f' := rfl
@[simp] theorem State.setDir_reads_src (b : Bay) (d : Direction) (f' : SrcIx) : (s.setDir b d).src f' = s.src f' := rfl
@[simp] theorem State.setDir_reads_fac (b : Bay) (d : Direction) (g : Factor) : (s.setDir b d).fac g = s.fac g := rfl
@[simp] theorem State.setDir_reads_chan (b : Bay) (d : Direction) (j : Chan) : (s.setDir b d).chan j = s.chan j := rfl
@[simp] theorem State.setHnc_reads_slot (h : Hnc) (m : Rec) : (s.setHnc h).slot m = s.slot m := rfl
@[simp] theorem State.setHnc_reads_status (h : Hnc) (m : Rec) : (s.setHnc h).status m = s.status m := rfl
@[simp] theorem State.setHnc_reads_cap (h : Hnc) (m : Rec) : (s.setHnc h).cap m = s.cap m := rfl
@[simp] theorem State.setHnc_reads_rcl (h : Hnc) (c : Bay) : (s.setHnc h).rcl c = s.rcl c := rfl
@[simp] theorem State.setHnc_reads_elem (h : Hnc) (c : Bay) : (s.setHnc h).elem c = s.elem c := rfl
@[simp] theorem State.setHnc_reads_ctx (h : Hnc) (f' : SrcIx) : (s.setHnc h).ctx f' = s.ctx f' := rfl
@[simp] theorem State.setHnc_reads_src (h : Hnc) (f' : SrcIx) : (s.setHnc h).src f' = s.src f' := rfl
@[simp] theorem State.setHnc_reads_fac (h : Hnc) (g : Factor) : (s.setHnc h).fac g = s.fac g := rfl
@[simp] theorem State.setHnc_reads_chan (h : Hnc) (j : Chan) : (s.setHnc h).chan j = s.chan j := rfl
@[simp] theorem State.setHnc_reads_dir (h : Hnc) (c : Bay) : (s.setHnc h).dir c = s.dir c := rfl
@[simp] theorem State.setNvd_reads_slot (v : Nvd) (m : Rec) : (s.setNvd v).slot m = s.slot m := rfl
@[simp] theorem State.setNvd_reads_status (v : Nvd) (m : Rec) : (s.setNvd v).status m = s.status m := rfl
@[simp] theorem State.setNvd_reads_cap (v : Nvd) (m : Rec) : (s.setNvd v).cap m = s.cap m := rfl
@[simp] theorem State.setNvd_reads_rcl (v : Nvd) (c : Bay) : (s.setNvd v).rcl c = s.rcl c := rfl
@[simp] theorem State.setNvd_reads_elem (v : Nvd) (c : Bay) : (s.setNvd v).elem c = s.elem c := rfl
@[simp] theorem State.setNvd_reads_ctx (v : Nvd) (f' : SrcIx) : (s.setNvd v).ctx f' = s.ctx f' := rfl
@[simp] theorem State.setNvd_reads_src (v : Nvd) (f' : SrcIx) : (s.setNvd v).src f' = s.src f' := rfl
@[simp] theorem State.setNvd_reads_fac (v : Nvd) (g : Factor) : (s.setNvd v).fac g = s.fac g := rfl
@[simp] theorem State.setNvd_reads_chan (v : Nvd) (j : Chan) : (s.setNvd v).chan j = s.chan j := rfl
@[simp] theorem State.setNvd_reads_dir (v : Nvd) (c : Bay) : (s.setNvd v).dir c = s.dir c := rfl
@[simp] theorem State.setPart_reads_slot (p : PartState) (m : Rec) : (s.setPart p).slot m = s.slot m := rfl
@[simp] theorem State.setPart_reads_status (p : PartState) (m : Rec) : (s.setPart p).status m = s.status m := rfl
@[simp] theorem State.setPart_reads_cap (p : PartState) (m : Rec) : (s.setPart p).cap m = s.cap m := rfl
@[simp] theorem State.setPart_reads_rcl (p : PartState) (c : Bay) : (s.setPart p).rcl c = s.rcl c := rfl
@[simp] theorem State.setPart_reads_elem (p : PartState) (c : Bay) : (s.setPart p).elem c = s.elem c := rfl
@[simp] theorem State.setPart_reads_ctx (p : PartState) (f' : SrcIx) : (s.setPart p).ctx f' = s.ctx f' := rfl
@[simp] theorem State.setPart_reads_src (p : PartState) (f' : SrcIx) : (s.setPart p).src f' = s.src f' := rfl
@[simp] theorem State.setPart_reads_fac (p : PartState) (g : Factor) : (s.setPart p).fac g = s.fac g := rfl
@[simp] theorem State.setPart_reads_chan (p : PartState) (j : Chan) : (s.setPart p).chan j = s.chan j := rfl
@[simp] theorem State.setPart_reads_dir (p : PartState) (c : Bay) : (s.setPart p).dir c = s.dir c := rfl
@[simp] theorem State.setBackup_reads_slot (b : Bool) (m : Rec) : (s.setBackup b).slot m = s.slot m := rfl
@[simp] theorem State.setBackup_reads_status (b : Bool) (m : Rec) : (s.setBackup b).status m = s.status m := rfl
@[simp] theorem State.setBackup_reads_cap (b : Bool) (m : Rec) : (s.setBackup b).cap m = s.cap m := rfl
@[simp] theorem State.setBackup_reads_rcl (b : Bool) (c : Bay) : (s.setBackup b).rcl c = s.rcl c := rfl
@[simp] theorem State.setBackup_reads_elem (b : Bool) (c : Bay) : (s.setBackup b).elem c = s.elem c := rfl
@[simp] theorem State.setBackup_reads_ctx (b : Bool) (f' : SrcIx) : (s.setBackup b).ctx f' = s.ctx f' := rfl
@[simp] theorem State.setBackup_reads_src (b : Bool) (f' : SrcIx) : (s.setBackup b).src f' = s.src f' := rfl
@[simp] theorem State.setBackup_reads_fac (b : Bool) (g : Factor) : (s.setBackup b).fac g = s.fac g := rfl
@[simp] theorem State.setBackup_reads_chan (b : Bool) (j : Chan) : (s.setBackup b).chan j = s.chan j := rfl
@[simp] theorem State.setBackup_reads_dir (b : Bool) (c : Bay) : (s.setBackup b).dir c = s.dir c := rfl
@[simp] theorem State.setStack_reads_slot (l : List StackEntry) (m : Rec) : (s.setStack l).slot m = s.slot m := rfl
@[simp] theorem State.setStack_reads_status (l : List StackEntry) (m : Rec) : (s.setStack l).status m = s.status m := rfl
@[simp] theorem State.setStack_reads_cap (l : List StackEntry) (m : Rec) : (s.setStack l).cap m = s.cap m := rfl
@[simp] theorem State.setStack_reads_rcl (l : List StackEntry) (c : Bay) : (s.setStack l).rcl c = s.rcl c := rfl
@[simp] theorem State.setStack_reads_elem (l : List StackEntry) (c : Bay) : (s.setStack l).elem c = s.elem c := rfl
@[simp] theorem State.setStack_reads_ctx (l : List StackEntry) (f' : SrcIx) : (s.setStack l).ctx f' = s.ctx f' := rfl
@[simp] theorem State.setStack_reads_src (l : List StackEntry) (f' : SrcIx) : (s.setStack l).src f' = s.src f' := rfl
@[simp] theorem State.setStack_reads_fac (l : List StackEntry) (g : Factor) : (s.setStack l).fac g = s.fac g := rfl
@[simp] theorem State.setStack_reads_chan (l : List StackEntry) (j : Chan) : (s.setStack l).chan j = s.chan j := rfl
@[simp] theorem State.setStack_reads_dir (l : List StackEntry) (c : Bay) : (s.setStack l).dir c = s.dir c := rfl
@[simp] theorem State.setOutPlace_reads_slot (n : Rec) (f : Option Frame) (m : Rec) : (s.setOutPlace n f).slot m = s.slot m := rfl
@[simp] theorem State.setOutPlace_reads_status (n : Rec) (f : Option Frame) (m : Rec) : (s.setOutPlace n f).status m = s.status m := rfl
@[simp] theorem State.setOutPlace_reads_cap (n : Rec) (f : Option Frame) (m : Rec) : (s.setOutPlace n f).cap m = s.cap m := rfl
@[simp] theorem State.setOutPlace_reads_rcl (n : Rec) (f : Option Frame) (c : Bay) : (s.setOutPlace n f).rcl c = s.rcl c := rfl
@[simp] theorem State.setOutPlace_reads_elem (n : Rec) (f : Option Frame) (c : Bay) : (s.setOutPlace n f).elem c = s.elem c := rfl
@[simp] theorem State.setOutPlace_reads_ctx (n : Rec) (f : Option Frame) (f' : SrcIx) : (s.setOutPlace n f).ctx f' = s.ctx f' := rfl
@[simp] theorem State.setOutPlace_reads_src (n : Rec) (f : Option Frame) (f' : SrcIx) : (s.setOutPlace n f).src f' = s.src f' := rfl
@[simp] theorem State.setOutPlace_reads_fac (n : Rec) (f : Option Frame) (g : Factor) : (s.setOutPlace n f).fac g = s.fac g := rfl
@[simp] theorem State.setOutPlace_reads_chan (n : Rec) (f : Option Frame) (j : Chan) : (s.setOutPlace n f).chan j = s.chan j := rfl
@[simp] theorem State.setOutPlace_reads_dir (n : Rec) (f : Option Frame) (c : Bay) : (s.setOutPlace n f).dir c = s.dir c := rfl
@[simp] theorem State.setCur_reads_slot (p : Option Progress) (m : Rec) : (s.setCur p).slot m = s.slot m := rfl
@[simp] theorem State.setCur_reads_status (p : Option Progress) (m : Rec) : (s.setCur p).status m = s.status m := rfl
@[simp] theorem State.setCur_reads_cap (p : Option Progress) (m : Rec) : (s.setCur p).cap m = s.cap m := rfl
@[simp] theorem State.setCur_reads_rcl (p : Option Progress) (c : Bay) : (s.setCur p).rcl c = s.rcl c := rfl
@[simp] theorem State.setCur_reads_elem (p : Option Progress) (c : Bay) : (s.setCur p).elem c = s.elem c := rfl
@[simp] theorem State.setCur_reads_ctx (p : Option Progress) (f' : SrcIx) : (s.setCur p).ctx f' = s.ctx f' := rfl
@[simp] theorem State.setCur_reads_src (p : Option Progress) (f' : SrcIx) : (s.setCur p).src f' = s.src f' := rfl
@[simp] theorem State.setCur_reads_fac (p : Option Progress) (g : Factor) : (s.setCur p).fac g = s.fac g := rfl
@[simp] theorem State.setCur_reads_chan (p : Option Progress) (j : Chan) : (s.setCur p).chan j = s.chan j := rfl
@[simp] theorem State.setCur_reads_dir (p : Option Progress) (c : Bay) : (s.setCur p).dir c = s.dir c := rfl

/-- The notice of a replaced request changes nothing, whoever placed it (R51, R75, R133). -/
@[simp] theorem State.tellReplaced_eq (s : State) (n : Rec) (c : ReqClass) : s.tellReplaced n c = s := by
  unfold State.tellReplaced
  split <;> rfl

@[simp] theorem recBay_bayRec (b : Bay) : recBay (bayRec b) = some b := by
  revert b; decide

end Sys2Proof.Machine
end

