-- ==== Sys2Proof/Laws/EventsFrame.lean ====
section
/-! SUPPORT. The frame of the Event Unit and of the capture side of the Recorder: an occurrence, however far its captures
reach, changes the factor records' live state, the out-slot, the channels' live state and the capture marks of the
record written last, and nothing else. -/

namespace Sys2Proof.Machine

/-- What of a factor record only the gateway's writes change. -/
def FactorRecord.conf (r : FactorRecord) : FactorRecord := { FactorRecord.cold with enable := r.enable, level := r.level }

/-- What of a channel only the gateway's writes change. -/
def Channel.conf (c : Channel) : Channel :=
  { c with state := .disarmed, rows := [], target := 0, truncated := false, holding := none }

/-- A fault record without its capture mark. -/
def FaultRecord.bare (r : FaultRecord) : FaultRecord := { r with chans := 0 }

/-- The state without what an occurrence can change. -/
def State.maskE (s : State) : State :=
  { s with
    evu := { s.evu with factors := s.evu.factors.each FactorRecord.conf, outSlot := none },
    recd := { s.recd with ring := s.recd.ring.each (Option.map FaultRecord.bare), chans := s.recd.chans.each Channel.conf } }

/-! ### What two states with the same mask share -/

section same
variable {s t : State} (h : t.maskE = s.maskE)
include h

theorem State.maskE_meu : t.meu = s.meu := by
  have := congrArg State.meu h; exact this
theorem State.maskE_pru : t.pru = s.pru := by
  have := congrArg State.pru h; exact this
theorem State.maskE_efu : t.efu = s.efu := by
  have := congrArg State.efu h; exact this
theorem State.maskE_bcu : t.bcu = s.bcu := by
  have := congrArg State.bcu h; exact this
theorem State.maskE_rcc : t.rcc = s.rcc := by
  have := congrArg State.rcc h; exact this
theorem State.maskE_fru : t.fru = s.fru := by
  have := congrArg State.fru h; exact this
theorem State.maskE_hnc : t.hnc = s.hnc := by
  have := congrArg State.hnc h; exact this
theorem State.maskE_mgu : t.mgu = s.mgu := by
  have := congrArg State.mgu h; exact this
theorem State.maskE_riu : t.riu = s.riu := by
  have := congrArg State.riu h; exact this
theorem State.maskE_pins : t.pins = s.pins := by
  have := congrArg State.pins h; exact this
theorem State.maskE_mono : t.mono = s.mono := by
  have := congrArg State.mono h; exact this
theorem State.maskE_pending : t.pending = s.pending := by
  have := congrArg State.pending h; exact this
theorem State.maskE_top : t.recd.top = s.recd.top := by
  have := congrArg (fun u => u.recd.top) h; exact this
theorem State.maskE_count : t.recd.count = s.recd.count := by
  have := congrArg (fun u => u.recd.count) h; exact this
theorem State.maskE_nextSeq : t.recd.nextSeq = s.recd.nextSeq := by
  have := congrArg (fun u => u.recd.nextSeq) h; exact this
theorem State.maskE_latest : t.recd.latest = s.recd.latest := by
  have := congrArg (fun u => u.recd.latest) h; exact this
theorem State.maskE_segments : t.recd.segments = s.recd.segments := by
  have := congrArg (fun u => u.recd.segments) h; exact this
theorem State.maskE_readouts : t.recd.readouts = s.recd.readouts := by
  have := congrArg (fun u => u.recd.readouts) h; exact this
theorem State.maskE_threshold : t.evu.threshold = s.evu.threshold := by
  have := congrArg (fun u => u.evu.threshold) h; exact this
theorem State.maskE_dest : t.evu.dest = s.evu.dest := by
  have := congrArg (fun u => u.evu.dest) h; exact this

theorem State.maskE_fac (f : Factor) : (t.fac f).conf = (s.fac f).conf := by
  have := congrArg (fun u => u.evu.factors.look f) h
  simpa [State.maskE, State.fac] using this

theorem State.maskE_chan (k : Chan) : (t.chan k).conf = (s.chan k).conf := by
  have := congrArg (fun u => u.recd.chans.look k) h
  simpa [State.maskE, State.chan] using this

end same

/-! ### Applying a change to each item of a list -/

/-- A view that each change keeps is kept by all of them. -/
theorem forEach_keep {α β : Type} (g : State → β) (f : α → State → State) (h : ∀ x t, g (f x t) = g t) (l : List α)
    (s : State) : g (forEach l f s) = g s := by
  unfold forEach
  induction l generalizing s with
  | nil => rfl
  | cons x xs ih => rw [List.foldl_cons, ih, h]

/-- A property that each change keeps is kept by all of them. -/
theorem forEach_inv {α : Type} (P : State → Prop) (f : α → State → State) (h : ∀ x t, P t → P (f x t)) (l : List α)
    (s : State) (hs : P s) : P (forEach l f s) := by
  unfold forEach
  induction l generalizing s with
  | nil => exact hs
  | cons x xs ih => exact ih _ (h x s hs)

/-! ### Updates -/

theorem State.setFac_maskE (s : State) (f : Factor) (x : FactorRecord) (h : x.conf = (s.fac f).conf) :
    (s.setFac f x).maskE = s.maskE := by
  unfold State.maskE State.setFac
  rw [show (s.evu.factors.put f x).each FactorRecord.conf = s.evu.factors.each FactorRecord.conf from
    Vector.each_put_of_eq _ _ _ _ h]

theorem State.setChan_maskE (s : State) (k : Chan) (x : Channel) (h : x.conf = (s.chan k).conf) :
    (s.setChan k x).maskE = s.maskE := by
  unfold State.maskE State.setChan
  rw [show (s.recd.chans.put k x).each Channel.conf = s.recd.chans.each Channel.conf from
    Vector.each_put_of_eq _ _ _ _ h]

@[simp] theorem State.judgeOutSlot_maskE (s : State) : s.judgeOutSlot.maskE = s.maskE := rfl

@[simp] theorem FactorRecord.take_conf (r : FactorRecord) (m : BitVec 9) (d : List Byte) (t : Word32) :
    (r.take m d t).conf = r.conf := rfl

@[simp] theorem FactorRecord.clear_conf (r : FactorRecord) : r.clear.conf = r.conf := rfl

@[simp] theorem State.takeOcc_maskE (s : State) (o : Occ) : (s.takeOcc o).maskE = s.maskE :=
  s.setFac_maskE _ _ rfl

theorem State.triggered_conf (s : State) (c : Channel) : (s.triggered c).conf = c.conf := by
  unfold State.triggered; split <;> rfl

@[simp] theorem State.enterCompanion_maskE (s : State) (l : List Chan) : (s.enterCompanion l).maskE = s.maskE := by
  unfold State.maskE State.enterCompanion
  rw [show (s.recd.ring.put s.recd.top ((s.recd.ring.look s.recd.top).map (fun r => { r with chans := chanMask l }))).each
        (Option.map FaultRecord.bare) = s.recd.ring.each (Option.map FaultRecord.bare) from
    Vector.each_put_of_eq _ _ _ _ (by cases s.recd.ring.look s.recd.top <;> rfl)]

@[simp] theorem State.dropHolds_maskE (s : State) (f : Factor) : (s.dropHolds f).maskE = s.maskE := by
  unfold State.maskE State.dropHolds
  rw [show (s.recd.chans.each (fun c => if c.holding == some f then { c with holding := none } else c)).each Channel.conf
        = s.recd.chans.each Channel.conf from
    Vector.each_each_of_eq _ _ _ (fun c => by split <;> rfl)]

@[simp] theorem State.absorb_maskE (s : State) (f : Factor) : (s.absorb f).maskE = s.maskE := by
  unfold State.absorb
  rw [forEach_keep State.maskE]
  · rw [State.judgeOutSlot_maskE, State.setFac_maskE _ _ _ (FactorRecord.clear_conf _)]
  · intro k t
    split
    · exact t.setChan_maskE _ _ rfl
    · rfl

/-! ### Occurrences -/

/-- A way to make occurrences that keeps the frame. -/
def KeepsE (make : Occ → State → State) : Prop := ∀ o s, (make o s).maskE = s.maskE

theorem State.judgeHoldWith_maskE {make : Occ → State → State} (hm : KeepsE make) (s : State) (f : Factor) :
    (s.judgeHoldWith make f).maskE = s.maskE := by
  unfold State.judgeHoldWith
  dsimp only
  split
  · rfl
  · split
    · rw [State.dropHolds_maskE, forEach_keep State.maskE]
      · exact s.setFac_maskE _ _ rfl
      · intro k t
        split
        · exact hm _ _
        · rfl
    · rw [State.dropHolds_maskE, State.absorb_maskE]

theorem State.judgeEndWith_maskE {make : Occ → State → State} (hm : KeepsE make) (s : State) (k : Chan) :
    (s.judgeEndWith make k).maskE = s.maskE := by
  unfold State.judgeEndWith
  split
  · exact s.judgeHoldWith_maskE hm _
  · split
    · exact hm _ _
    · rfl

@[simp] theorem State.triggerChans_maskE (s : State) (o : Occ) (raised : Bool) :
    (s.triggerChans o raised).maskE = s.maskE := by
  unfold State.triggerChans
  dsimp only
  refine (State.setFac_maskE _ _ _ ?_).trans ?_
  · rfl
  have h : ∀ l : List Chan, ∀ hold : Bool, (forEach l (fun k u => u.setChan k
      (if hold = true then { u.triggered (u.chan k) with holding := some o.factor } else u.triggered (u.chan k))) s).maskE
      = s.maskE := fun l hold => forEach_keep State.maskE _ (fun k t => by
        refine t.setChan_maskE k _ ?_
        split
        · exact t.triggered_conf _
        · exact t.triggered_conf _) l s
  split
  · rw [State.enterCompanion_maskE, h]
  · rw [h]

theorem State.judgeTriggered_maskE {make : Occ → State → State} (hm : KeepsE make) (s : State) (f : Factor)
    (set : List Chan) (hold : Bool) : (s.judgeTriggered make f set hold).maskE = s.maskE := by
  unfold State.judgeTriggered
  dsimp only
  split
  · rfl
  · split
    · exact s.judgeHoldWith_maskE hm _
    · exact forEach_keep State.maskE _ (fun k t => t.judgeEndWith_maskE hm k) _ _

theorem occurFuel_maskE (n : Nat) : KeepsE (occurFuel n) := by
  induction n with
  | zero => intro o s; simp [occurFuel]
  | succ n ih =>
    intro o s
    simp [occurFuel, State.judgeTriggered_maskE ih]

@[simp] theorem State.occurOf_maskE (s : State) (o : Occ) : (s.occurOf o).maskE = s.maskE := by
  unfold State.occurOf
  split
  · rfl
  · exact occurFuel_maskE _ _ _

@[simp] theorem State.occur_maskE (s : State) (f : Factor) (m : BitVec 9) (d : List Byte) :
    (s.occur f m d).maskE = s.maskE := s.occurOf_maskE _

@[simp] theorem State.occurWithRecord_maskE (s : State) (f : Factor) (m : BitVec 9) (d : List Byte) :
    (s.occurWithRecord f m d).maskE = s.maskE := s.occurOf_maskE _

@[simp] theorem State.judgeEnd_maskE (s : State) (k : Chan) : (s.judgeEnd k).maskE = s.maskE :=
  s.judgeEndWith_maskE (fun o t => t.occurOf_maskE o) k

@[simp] theorem State.appendRow_maskE (s : State) (b : Bay) (i : Instant) (k : Chan) :
    (s.appendRow b i k).maskE = s.maskE := by
  unfold State.appendRow
  dsimp only
  split
  · split
    · exact (State.judgeEnd_maskE _ _).trans (s.setChan_maskE _ _ rfl)
    · exact s.setChan_maskE _ _ rfl
  · rfl

@[simp] theorem State.truncateChan_maskE (s : State) (k : Chan) : (s.truncateChan k).maskE = s.maskE := by
  unfold State.truncateChan
  exact (State.judgeEnd_maskE _ _).trans (s.setChan_maskE _ _ rfl)

/-- The loss of a bay's source empties its latest evaluation, and beyond that keeps the frame of an occurrence. -/
@[simp] theorem State.recLostBay_maskE (s : State) (b : Bay) :
    (s.recLostBay b).maskE =
      ({ s with recd := { s.recd with latest := s.recd.latest.put b none } } : State).maskE := by
  unfold State.recLostBay
  refine forEach_keep State.maskE _ (fun k t => ?_) _ _
  split
  · exact t.truncateChan_maskE k
  · rfl

end Sys2Proof.Machine
end

