-- ==== Sys2Proof/Laws/Closed.lean ====
section
/-! SUPPORT. Properties that are closed under the elementary updates of each group of blocks.  An operation of the slots,
the reclose controller, the hunt controller or the bay control unit is a chain of such updates, so a closed property
that holds before it holds after it: each operation is taken apart once, here and in the files that follow, and every
frame and every invariant is an instance. -/

namespace Sys2Proof.Machine

/-! ### Elementary updates -/

/-- One move of a command slot other than an issue: a request of a class other than TRIP is put in, a request is taken
out, a last result is stored, the slot becomes FREE, a command is echoed, or a TRIP request merges into an OPEN (R50 to
R57). -/
inductive SlotMove (x : Slot) : Slot → Prop
  | pend (c : ReqClass) (v : Option Command) (h : c ≠ .trip ∨ v = none) : SlotMove x { x with pend := x.pend.set c v }
  | result (r : LastResult) : SlotMove x { x with lastResult := some r }
  | free : SlotMove x { x with state := .free }
  | echoed (f : Flight) (h : x.state = .inFlight f) : SlotMove x { x with state := .echoed f }
  | attach (f : Flight) (h : x.state = .inFlight f) (o : f.cmd = .opening) :
      SlotMove x { x with state := .inFlight { f with tripAttached := true } }
  | attachEchoed (f : Flight) (h : x.state = .echoed f) (o : f.cmd = .opening) :
      SlotMove x { x with state := .echoed { f with tripAttached := true } }

/-- A slot after the issue of a request with the next tag (R52). -/
def Slot.issued (x : Slot) (c : ReqClass) (cmd : Command) (t : Word32) (n : Nat) : Slot :=
  { x with state := .inFlight { cmd := cmd, tag := nextTag x.lastTag, cls := c, issued := t, tripAttached := c == .trip,
                                timer := n },
           pend := x.pend.set c none, lastTag := nextTag x.lastTag }

/-- A request may be issued at a slot: it is pending there, or it is the OPEN of a TRIP request; and a CLOSE only where
none of the conditions of R52 stands against it. -/
structure MayIssue (s : State) (n : Rec) (c : ReqClass) (cmd : Command) : Prop where
  asked : (s.slot n).pend.get c = some cmd ∨ (c = .trip ∧ cmd = .opening)
  open_ : cmd = .closing → s.closeBlocked n = none

/-- One move of a reclose record: the block set stays, and the shot count stays, rises by one up to 4, returns to 0, or
becomes the effective shots. -/
structure RclMove (r : RecloseRecord) (eff : Nat) (x : RecloseRecord) : Prop where
  block : x.block = r.block
  shots : x.shots = r.shots ∨ x.shots = satInc 4 r.shots ∨ x.shots = 0 ∨ x.shots = eff

/-! ### Closed under the moves of slots and reclose records -/

/-- A property that an occurrence, a slot, an out-place or a reclose record moving does not break. -/
structure ClosedS (P : State → Prop) : Prop where
  blind : ∀ s t : State, t.maskE = s.maskE → P s → P t
  slot : ∀ (s : State) n x, SlotMove (s.slot n) x → P s → P (s.setSlot n x)
  issue : ∀ (s : State) n c cmd k, MayIssue s n c cmd → P s → P (s.setSlot n ((s.slot n).issued c cmd s.mono k))
  out : ∀ (s : State) n f, P s → P (s.setOutPlace n f)
  rcl : ∀ (s : State) b x, RclMove (s.rcl b) (s.effShots b) x → P s → P (s.setRcl b x)

/-- Also closed under what the hunt changes: its context, the HUNT entry of the stack, the HUNT reason, and a record. -/
structure ClosedH (P : State → Prop) : Prop extends ClosedS P where
  unstack : ∀ s : State, P s → P (s.setStack (removeEntry .hunt s.fru.stack))
  stack : ∀ (s : State) g, P s → P (s.setStack (s.placed .hunt g))
  hunt : ∀ (s : State) b v, P s → P (s.putReason b .hunt v)
  hnc : ∀ (s : State) h, h.table = s.hnc.table → P s → P (s.setHnc h)
  record : ∀ (s : State) r, P s → P (s.storeRecord r)

/-- Also closed under what the end of a command changes: trip latches and the backup flag.  The entry to STANDDOWN stands
apart, since it comes about only where a command ends at a slot. -/
structure ClosedC (P : State → Prop) : Prop extends ClosedH P where
  latch : ∀ (s : State) b l, P s → P (s.setElem b { s.elem b with latch := l })
  backup : ∀ s : State, P s → P (s.setBackup true)

/-- Also closed under what a BAYSTAT or its silence changes: bay status, and the LOCAL and INTERLOCK reasons. -/
structure ClosedB (P : State → Prop) : Prop extends ClosedC P where
  status : ∀ (s : State) n x, P s → P (s.setStatus n x)
  local_ : ∀ (s : State) b v, P s → P (s.putReason b .localMode v)
  interlock : ∀ (s : State) b v, P s → P (s.putReason b .interlock v)

/-- The entry to STANDDOWN keeps the property (R62). -/
def KeepsStanddown (P : State → Prop) : Prop := ∀ s : State, s.mgu.part = .active → P s → P (s.setPart .standdown)

/-- A property that both branches have. -/
theorem ite_both {P : State → Prop} {c : Prop} [Decidable c] {a b : State} (ha : P a) (hb : P b) :
    P (if c then a else b) := by
  split
  · exact ha
  · exact hb

section slots
variable {P : State → Prop} (hP : ClosedS P) {s : State}
include hP

theorem ClosedS.setPend {n : Rec} {c : ReqClass} {v : Option Command} (h : c ≠ .trip ∨ v = none) (hs : P s) :
    P (s.setPend n c v) := hP.slot s n _ (.pend c v h) hs

theorem ClosedS.setResult {n : Rec} {r : LastResult} (hs : P s) : P (s.setResult n r) := hP.slot s n _ (.result r) hs

theorem ClosedS.occur {f : Factor} {m : BitVec 9} {d : List Byte} (hs : P s) : P (s.occur f m d) :=
  hP.blind s _ (s.occur_maskE f m d) hs

theorem ClosedS.occurWithRecord {f : Factor} {m : BitVec 9} {d : List Byte} (hs : P s) :
    P (s.occurWithRecord f m d) := hP.blind s _ (s.occurWithRecord_maskE f m d) hs

/-- A reclose record takes new timers or a new state, keeping its block set and its shots. -/
theorem ClosedS.setRcl_keep {b : Bay} {x : RecloseRecord} (h : x.block = (s.rcl b).block) (k : x.shots = (s.rcl b).shots)
    (hs : P s) : P (s.setRcl b x) := hP.rcl s b x ⟨h, .inl k⟩ hs

theorem ClosedS.setRcl_zero {b : Bay} {x : RecloseRecord} (h : x.block = (s.rcl b).block) (k : x.shots = 0)
    (hs : P s) : P (s.setRcl b x) := hP.rcl s b x ⟨h, .inr (.inr (.inl k))⟩ hs

theorem ClosedS.rccIssued {b : Bay} (hs : P s) : P (s.rccIssued b) := by
  unfold State.rccIssued
  split
  · exact hP.rcl s b _ ⟨rfl, .inr (.inl rfl)⟩ hs
  · exact hs

theorem ClosedS.issueCmd {n : Rec} {c : ReqClass} {cmd : Command} (h : MayIssue s n c cmd) (hs : P s) :
    P (s.issueCmd n c cmd) := by
  have h1 : P _ := hP.issue s n c cmd (commandMs cmd) h hs
  have h2 := hP.out _ n (some (s.bayCmdFrame n cmd (nextTag (s.slot n).lastTag))) h1
  unfold State.issueCmd
  dsimp only
  split
  · exact hP.rccIssued h2
  · exact h2

theorem ClosedS.completeNoChange {n : Rec} {c : ReqClass} {cmd : Command} (hs : P s) : P (s.completeNoChange n c cmd) :=
  hP.setResult (hP.setPend (.inr rfl) hs)

theorem ClosedS.mgmtWithdrawn {n : Rec} {cmd : Command} {o : CmdOutcome} (hs : P s) : P (s.mgmtWithdrawn n cmd o) :=
  hP.setResult hs

theorem ClosedS.pendLamp {n : Rec} {a : LampArg} (hs : P s) : P (s.pendLamp n a) := by
  unfold State.pendLamp
  split
  · exact hP.setPend (.inl (by decide)) hs
  · exact hs

theorem ClosedS.lockPend {b : Bay} {cause : LockoutCause} (hs : P s) : P (s.lockPend b cause) := by
  unfold State.lockPend
  dsimp only
  refine hP.pendLamp (hP.occur ?_)
  exact hP.setRcl_keep rfl rfl (hP.setPend (.inr rfl) hs)

theorem ClosedS.withdrawAtIssue {n : Rec} {c : ReqClass} {cmd : Command} {code : ResultCode} (hs : P s) :
    P (s.withdrawAtIssue n c cmd code) := by
  have h1 : P (s.setPend n c none) := hP.setPend (.inr rfl) hs
  unfold State.withdrawAtIssue
  dsimp only
  split
  · split
    · exact hP.lockPend h1
    · exact h1
  · exact hP.mgmtWithdrawn h1
  · exact h1

theorem ClosedS.issueFrom {n : Rec} (cs : List ReqClass) (hs : P s) : P (State.issueFrom cs n s).1 := by
  induction cs generalizing s with
  | nil => exact hs
  | cons c cs ih =>
    unfold State.issueFrom
    split
    · exact ih hs
    · exact ih (hP.completeNoChange hs)
    · next cmd _ hc =>
      split
      · exact ih (hP.withdrawAtIssue hs)
      · next hb => exact hP.issueCmd ⟨.inl hc, fun e => by subst e; simpa using hb⟩ hs

theorem ClosedS.issueNext {n : Rec} (hs : P s) : P (s.issueNext n) := by
  unfold State.issueNext
  split
  · exact hP.issueFrom _ hs
  · exact hs

/-- An accepted request. -/
theorem ClosedS.place {n : Rec} {c : ReqClass} {cmd : Command} {t : State} (hc : c ≠ .trip) (hs : P s)
    (h : s.place n c cmd = .ok t) : P t := by
  unfold State.place at h
  split at h
  · cases h
  · cases h
    rw [State.tellReplaced_eq]
    exact hP.issueNext (hP.setPend (.inl hc) hs)

theorem ClosedS.lamp {n : Rec} {a : LampArg} (hs : P s) : P (s.lamp n a) := by
  unfold State.lamp
  split
  · next h => exact hP.place (by decide) hs h
  · exact hs

theorem ClosedS.lock {b : Bay} {cause : LockoutCause} (hs : P s) : P (s.lock b cause) := by
  unfold State.lock
  split
  · exact hP.issueNext (hP.lockPend hs)
  · exact hs

theorem ClosedS.cancelSequence {b : Bay} {r : BlockReason} (hs : P s) : P (s.cancelSequence b r) :=
  hP.lock (hP.occur (hP.setPend (.inr rfl) hs))

/-- A reason added, given that the block set's own change keeps the property. -/
theorem ClosedS.addReason {b : Bay} {r : BlockReason} (hr : P (s.putReason b r true)) (hs : P s) :
    P (s.addReason b r) := by
  unfold State.addReason
  split
  · exact hs
  · dsimp only
    split
    · exact hP.cancelSequence hr
    · exact hr

omit hP in
theorem removeReason_closed {b : Bay} {r : BlockReason} (hr : P (s.putReason b r false)) (hs : P s) :
    P (s.removeReason b r) := by
  unfold State.removeReason
  split
  · exact hr
  · exact hs

theorem ClosedS.rejudgeWaiting (hs : P s) : P s.rejudgeWaiting := by
  refine forEach_inv P _ (fun b t ht => ?_) _ _ hs
  split
  · exact hP.lock ht
  · exact ht

theorem ClosedS.rccRefused {b : Bay} {code : ResultCode} (hs : P s) : P (s.rccRefused b code) := by
  unfold State.rccRefused
  split
  · exact hP.lock hs
  · exact hs

theorem ClosedS.requestReclose {b : Bay} (hs : P s) : P (s.requestReclose b) := by
  have h1 : P _ := hP.setRcl_keep (b := b)
    (x := { s.rcl b with state := .closing .waiting, deadTimer := none, springTimer := none }) rfl rfl hs
  unfold State.requestReclose
  dsimp only
  split
  · next h => exact hP.place (by decide) h1 h
  · exact hP.rccRefused h1

/-! ### The reclose controller -/

theorem ClosedS.protectionOpening {b : Bay} {cause : TripCause} (hs : P s) : P (s.protectionOpening b cause) := by
  unfold State.protectionOpening
  split
  · have h1 : P _ := hP.setPend (n := bayRec b) (c := .reclose) (v := none) (.inr rfl) hs
    have h2 : P _ := hP.setRcl_keep (b := b)
      (x := ((s.setPend (bayRec b) .reclose none).rcl b).stopTimers) rfl rfl h1
    dsimp only
    split
    · exact hP.lock h2
    · split
      · exact hP.lock h2
      · split
        · exact hP.lock h2
        · split
          · exact hP.lock h2
          · exact hP.setRcl_keep rfl rfl h2
  · exact hs

theorem ClosedS.deadEnded {b : Bay} (hs : P s) : P (s.deadEnded b) := by
  have h1 : P _ := hP.setRcl_keep (b := b) (x := { s.rcl b with deadTimer := none }) rfl rfl hs
  unfold State.deadEnded
  dsimp only
  split
  · exact hP.lock h1
  · split
    · exact hP.lock h1
    · split
      · exact hP.setRcl_keep rfl rfl h1
      · exact hP.requestReclose h1

theorem ClosedS.springCharged {b : Bay} (hs : P s) : P (s.springCharged b) := by
  unfold State.springCharged
  split
  · have h1 : P _ := hP.setRcl_keep (b := b) (x := { s.rcl b with springTimer := none }) rfl rfl hs
    dsimp only
    split
    · exact hP.lock h1
    · exact hP.requestReclose h1
  · exact hs

theorem ClosedS.rccTold {b : Bay} {o : Told} (hs : P s) : P (s.rccTold b o) := by
  unfold State.rccTold
  dsimp only
  split
  · exact hP.setRcl_keep rfl rfl hs
  · exact hP.setRcl_keep rfl rfl hs
  · exact hP.lock hs
  · exact hP.setRcl_keep rfl rfl hs
  · exact hs

theorem ClosedS.reclaimEnded {b : Bay} (hs : P s) : P (s.reclaimEnded b) := by
  unfold State.reclaimEnded
  dsimp only
  split
  · exact hP.setRcl_zero rfl rfl hs
  · exact hP.setRcl_keep rfl rfl hs

theorem ClosedS.bayOpening {b : Bay} (hs : P s) : P (s.bayOpening b) := by
  unfold State.bayOpening
  dsimp only
  split
  · exact hP.setRcl_zero rfl rfl hs
  · exact hs

theorem ClosedS.bayClosing {b : Bay} (hs : P s) : P (s.bayClosing b) := by
  unfold State.bayClosing
  dsimp only
  split
  · have h1 : P _ := hP.setPend (n := bayRec b) (c := .reclose) (v := none) (.inr rfl) hs
    have h2 : P _ := hP.rcl _ b
      { (s.setPend (bayRec b) .reclose none).rcl b with
        state := .reclaim, shots := (s.setPend (bayRec b) .reclose none).effShots b, deadTimer := none,
        springTimer := none, reclaimTimer := .running ((s.setPend (bayRec b) .reclose none).setting b fReclaim) }
      ⟨rfl, .inr (.inr (.inr rfl))⟩ h1
    split
    · exact hP.lamp h2
    · exact h2
  · exact hs

theorem ClosedS.followIdle {b : Bay} (hs : P s) : P (s.followIdle b) := hP.setRcl_keep rfl rfl hs

theorem ClosedS.rccPosition {b : Bay} {p : Position} (hs : P s) : P (s.rccPosition b p) := by
  unfold State.rccPosition
  dsimp only
  split
  · split
    · exact hs
    · have h1 : P _ := hP.setRcl_keep (b := b) (x := { s.rcl b with lastDefinite := some p }) rfl rfl hs
      split
      · exact hP.followIdle h1
      · split
        · split
          · exact hP.followIdle h1
          · exact h1
        · split
          · exact hP.bayOpening h1
          · exact hP.bayClosing h1
  · split
    · exact hP.lock hs
    · exact hs

theorem ClosedS.rccStanddown (hs : P s) : P s.rccStanddown := by
  refine forEach_inv P _ (fun b t ht => ?_) _ _ hs
  split
  · exact hP.lock ht
  · exact ht

theorem ClosedS.startIdle {b : Bay} (hs : P s) : P (s.startIdle b) := hP.setRcl_zero rfl rfl hs

/-! ### The stack -/

/-- The stack takes a new content, given that the content alone keeps the property. -/
theorem ClosedS.changeStack {l : List StackEntry} {c : GroupCause} (hl : P (s.setStack l)) : P (s.changeStack l c) := by
  unfold State.changeStack
  dsimp only
  split
  · exact hl
  · exact hP.occur (hP.rejudgeWaiting hl)

end slots

end Sys2Proof.Machine
end

