-- ==== Sys2Proof/Laws/ClosedHunt.lean ====
section
/-! SUPPORT. The operations of the Hunt Controller keep every property that is closed under the elementary updates of
ClosedH. -/

namespace Sys2Proof.Machine

section hunt
variable {P : State → Prop} (hP : ClosedH P) {s : State}
include hP

theorem ClosedH.setOutcome {k : Fin 8} {o : CandOutcome} (hs : P s) : P (s.setOutcome k o) := hP.hnc s _ rfl hs

theorem ClosedH.setCurOutcome {o : CandOutcome} (hs : P s) : P (s.setCurOutcome o) := by
  unfold State.setCurOutcome
  split
  · exact hP.setOutcome hs
  · exact hs

theorem ClosedH.huntTo {st : HuntState} {t : Option Nat} (hs : P s) : P (s.huntTo st t) := hP.hnc s _ rfl hs

theorem ClosedH.setBayOpen {b : Option Bay} (hs : P s) : P (s.setBayOpen b) := hP.hnc s _ rfl hs

theorem ClosedH.setRestoreOut {v : Bool} (hs : P s) : P (s.setRestoreOut v) := hP.hnc s _ rfl hs

theorem ClosedH.addHuntReason {b : Bay} (hs : P s) : P (s.addReason b .hunt) := hP.addReason (hP.hunt s b true hs) hs

theorem ClosedH.removeHuntReason {b : Bay} (hs : P s) : P (s.removeReason b .hunt) :=
  removeReason_closed (hP.hunt s b false hs) hs

theorem ClosedH.removeHunt {keep : Option Bay} (hs : P s) : P (s.removeHunt keep) := by
  refine forEach_inv P _ (fun b t ht => ?_) _ _ hs
  split
  · exact ht
  · exact hP.removeHuntReason ht

theorem ClosedH.storeHuntResult {r : HuntResult} {b : Option Bay} (hs : P s) : P (s.storeHuntResult r b) :=
  hP.hnc s _ rfl hs

theorem ClosedH.endHunt {r : HuntResult} {b u : Option Bay} {w : LockedBy} (hs : P s) : P (s.endHunt r b u w) := by
  have h1 : P _ := hP.removeHunt (keep := none) (hP.hnc s { s.hnc with timer := none } rfl hs)
  unfold State.endHunt
  dsimp only
  generalize (s.setHnc { s.hnc with timer := none }).removeHunt none = t at h1
  exact hP.occur (hP.storeHuntResult (hP.changeStack (hP.unstack _ h1)))

theorem ClosedH.endPending (hs : P s) : P s.endPending := by
  unfold State.endPending
  split
  · exact hP.endHunt hs
  · exact hs

theorem ClosedH.huntLock {c : LockoutCause} (hs : P s) : P (s.huntLock c) := by
  unfold State.huntLock
  split
  · exact hP.setBayOpen (hP.lock hs)
  · exact hP.setBayOpen hs

theorem ClosedH.endFoundLocked {c : LockoutCause} {w : LockedBy} (hs : P s) : P (s.endFoundLocked c w) :=
  hP.endHunt (hP.huntLock hs)

theorem ClosedH.selectFrom (ks : List (Fin 8)) (hs : P s) : P (State.selectFrom ks s) := by
  induction ks generalizing s with
  | nil => exact hP.endHunt hs
  | cons k ks ih =>
    unfold State.selectFrom
    split
    · exact ih hs
    · split
      · have h1 : P _ := hP.huntTo (st := .opening) (t := none) (hP.hnc s { s.hnc with current := some k } rfl hs)
        dsimp only
        split
        · next h => exact hP.place (by decide) h1 h
        · exact ih (hP.setOutcome h1)
      · exact ih (hP.setOutcome hs)
      · exact ih (hP.setOutcome hs)

theorem ClosedH.selectNext (hs : P s) : P s.selectNext := hP.selectFrom _ hs

theorem ClosedH.restoreFailed (hs : P s) : P s.restoreFailed := hP.selectNext (hP.huntLock (hP.setCurOutcome hs))

/-- A HUNT request that is refused leaves the state as it was. -/
theorem ClosedH.placeOr {n : Rec} {cmd : Command} (hs : P s) :
    P (match s.place n .hunt cmd with | .ok u => u | .error _ => s) := by
  split
  · next h => exact hP.place (by decide) hs h
  · exact hs

theorem ClosedH.foundPersistent (hs : P s) : P s.foundPersistent := by
  unfold State.foundPersistent
  split
  · exact hP.endHunt (hP.lock (hP.placeOr hs))
  · exact hs

theorem ClosedH.toRetestDwell (hs : P s) : P s.toRetestDwell := by
  have h1 : P _ := hP.huntTo (st := .retestDwell) (t := some s.curDwell) (hP.setBayOpen (b := none) hs)
  unfold State.toRetestDwell
  dsimp only
  split
  · exact hP.foundPersistent h1
  · exact h1

theorem ClosedH.abortRestoreFailed (hs : P s) : P s.abortRestoreFailed := by
  unfold State.abortRestoreFailed
  refine hP.endPending (hP.huntLock ?_)
  split
  · split
    · exact hP.setCurOutcome hs
    · exact hs
  · exact hs

theorem ClosedH.huntCloseTold {o : HuntTold} (hs : P s) : P (s.huntCloseTold o) := by
  unfold State.huntCloseTold
  split
  · exact hP.selectNext (hP.setBayOpen hs)
  · exact hP.restoreFailed hs
  · exact hP.setRestoreOut hs
  · exact hP.toRetestDwell hs
  · exact hP.endFoundLocked hs
  · exact hP.setRestoreOut hs
  · exact hP.endPending (hP.setBayOpen hs)
  · exact hP.abortRestoreFailed hs
  · exact hP.abortRestoreFailed hs
  · exact hs

theorem ClosedH.placeHuntClose {b : Bay} (hs : P s) : P (s.placeHuntClose b) := by
  unfold State.placeHuntClose
  split
  · next h => exact hP.place (by decide) hs h
  · exact hP.huntCloseTold hs

theorem ClosedH.huntOpenTold {b : Bay} {o : HuntTold} (hs : P s) : P (s.huntOpenTold b o) := by
  unfold State.huntOpenTold
  split
  · exact hP.huntTo (hP.setBayOpen hs)
  · exact hP.selectNext (hP.setCurOutcome hs)
  · exact hP.placeHuntClose (hP.setBayOpen hs)
  · exact hP.endPending (hP.setCurOutcome hs)
  · exact hs

theorem ClosedH.hncTold {n : Rec} {cmd : Command} {o : HuntTold} {f : Bool} (hs : P s) : P (s.hncTold n cmd o f) := by
  unfold State.hncTold
  split
  · split
    · split
      · exact hP.huntCloseTold hs
      · exact hP.huntOpenTold hs
    · exact hs
  · exact hs

theorem ClosedH.abortHuntWith {r : HuntResult} (hs : P s) : P (s.abortHuntWith r) := by
  have h1 : P _ := hP.removeHunt (keep := s.underTest)
    (hP.hnc s { s.hnc with timer := none, pendingResult := some r } rfl hs)
  have h2 : P _ := hP.huntTo (st := .aborting) (t := none) h1
  unfold State.abortHuntWith
  dsimp only
  split
  · split
    · exact hP.endPending (hP.setPend (.inr rfl) h1)
    · exact h2
  · exact hP.placeHuntClose h2
  · exact hP.placeHuntClose h2
  · split
    · exact hP.placeHuntClose (hP.setRestoreOut h2)
    · exact h2
  · split
    · exact hP.placeHuntClose (hP.setRestoreOut h2)
    · exact h2
  · exact hP.endPending h1

theorem ClosedH.abortRunning {r : HuntResult} (hs : P s) : P (s.abortRunning r) := by
  unfold State.abortRunning
  split
  · exact hP.abortHuntWith hs
  · exact hs

theorem ClosedH.huntToIdle (hs : P s) : P s.huntToIdle := hP.huntTo hs

theorem ClosedH.hncTrip (hs : P s) : P s.hncTrip := hP.abortRunning hs

theorem ClosedH.hncStanddown (hs : P s) : P s.hncStanddown := by
  unfold State.hncStanddown
  split
  · exact hP.huntToIdle hs
  · split
    · refine hP.endHunt (hP.setBayOpen ?_)
      split
      · split
        · exact hP.setPend (.inr rfl) hs
        · exact hs
      · exact hs
    · exact hs

theorem ClosedH.bayRecord {b : Bay} {c : RecordCause} (hs : P s) : P (s.bayRecord b c) := hP.record _ _ hs

theorem ClosedH.tripRecord {b : Bay} {c : TripCause} {e : BayEval} {d : Direction} {a : AtEval} (hs : P s) :
    P (s.tripRecord b c e d a) := hP.record _ _ hs

theorem ClosedH.huntFind (hs : P s) : P s.huntFind := by
  unfold State.huntFind
  split
  · next b _ =>
    have h1 : P _ := hP.bayRecord (b := b) (c := .huntFound)
      (hP.setCurOutcome (o := .found) (hP.hnc s { s.hnc with timer := none } rfl hs))
    dsimp only
    split
    · exact hP.endFoundLocked h1
    · exact hP.huntTo h1
  · exact hs

theorem ClosedH.hncNvd {old new : NvdState} (hs : P s) : P (s.hncNvd old new) := by
  unfold State.hncNvd
  have h1 : P (if new == .normal then s.setHnc { s.hnc with rearm := true } else s) := by
    split
    · exact hP.hnc s _ rfl hs
    · exact hs
  generalize (if new == .normal then s.setHnc { s.hnc with rearm := true } else s) = t at h1
  dsimp only
  split
  · exact hP.huntTo h1
  · split
    · exact h1
    · split
      · exact hP.huntToIdle h1
      · exact h1
    · exact h1
    · split
      · exact hP.abortRunning h1
      · split
        · split
          · exact hP.huntFind h1
          · exact h1
        · split
          · exact hP.abortRunning h1
          · exact h1
        · split
          · exact hP.abortRunning h1
          · exact h1
        · split
          · exact hP.abortRunning h1
          · exact h1
        · split
          · exact hP.foundPersistent h1
          · exact h1
        · exact h1

theorem ClosedH.hncPosition {b : Bay} {p : Position} (hs : P s) : P (s.hncPosition b p) := by
  unfold State.hncPosition
  split
  · split
    · exact hP.selectNext (hP.setCurOutcome (hP.setBayOpen (hP.hnc s { s.hnc with timer := none } rfl hs)))
    · exact hP.toRetestDwell hs
    · exact hs
  · exact hs

theorem ClosedH.hncLevel (hs : P s) : P s.hncLevel := by
  unfold State.hncLevel
  split
  · exact hP.endFoundLocked hs
  · exact hs

theorem ClosedH.placeHuntEntry (hs : P s) : P s.placeHuntEntry := by
  unfold State.placeHuntEntry
  split
  · split
    · exact hP.changeStack (hP.stack _ _ hs)
    · exact hs
  · exact hs

theorem ClosedH.addHunt (hs : P s) : P s.addHunt := by
  refine forEach_inv P _ (fun b t ht => ?_) _ _ hs
  split
  · exact hP.addHuntReason ht
  · exact ht

theorem ClosedH.startHuntNow {how : HuntHow} (hs : P s) : P (s.startHuntNow how) := by
  have h1 : P _ := hP.hnc s { s.hnc with rearm := false, started := s.stamp, cands := s.copyPlan, timer := none } rfl hs
  exact hP.selectFrom _ (hP.occur (hP.addHunt (hP.placeHuntEntry h1)))

theorem ClosedH.dwellEnded (hs : P s) : P s.dwellEnded := by
  unfold State.dwellEnded
  split
  · exact hP.placeHuntClose (hP.huntTo (hP.setCurOutcome hs))
  · exact hs

theorem ClosedH.retestDelayEnded (hs : P s) : P s.retestDelayEnded := by
  unfold State.retestDelayEnded
  split
  · exact hP.endFoundLocked hs
  · split
    · exact hP.endFoundLocked hs
    · split
      · exact hP.placeHuntClose (hP.huntTo hs)
      · exact hs

theorem ClosedH.retestDwellEnded (hs : P s) : P s.retestDwellEnded := hP.endHunt hs

end hunt

end Sys2Proof.Machine
end

