-- ==== Sys2Proof/Laws/ClosedBreaker.lean ====
section
/-! SUPPORT. The operations of the Bay Control Unit keep every property that is closed under the elementary updates of
ClosedC, or of ClosedB. -/

namespace Sys2Proof.Machine

section breaker
variable {P : State → Prop} (hP : ClosedC P) {s : State}
include hP

theorem ClosedC.tellRefused {n : Rec} {c : ReqClass} {cmd : Command} {code : ResultCode} (hs : P s) :
    P (s.tellRefused n c cmd code) := by
  unfold State.tellRefused
  split
  · exact hP.hncTold hs
  · exact hP.rccRefused hs
  · exact hP.mgmtWithdrawn hs
  · exact hs

theorem ClosedC.tellSuperseded {n : Rec} {c : ReqClass} {cmd : Command} (hs : P s) : P (s.tellSuperseded n c cmd) := by
  unfold State.tellSuperseded
  split
  · exact hP.hncTold hs
  · exact hP.rccTold hs
  · exact hP.mgmtWithdrawn hs
  · exact hs

/-- Withdrawals, given that telling each requester keeps the property. -/
theorem ClosedC.withdraw {n : Rec} {which : Command → Bool} {tell : State → ReqClass → Command → State}
    (ht : ∀ t c cmd, P t → P (tell t c cmd)) (hs : P s) : P (s.withdraw n which tell) := by
  unfold State.withdraw
  generalize otherClasses = cs
  induction cs generalizing s with
  | nil => exact hs
  | cons c cs ih =>
    rw [List.foldl_cons]
    refine ih ?_
    split
    · split
      · exact ht _ _ _ (hP.setPend (.inr rfl) hs)
      · exact hs
    · exact hs

theorem ClosedC.withdrawAll {n : Rec} {code : ResultCode} (hs : P s) : P (s.withdrawAll n code) :=
  hP.withdraw (fun _ _ _ h => hP.tellRefused h) hs

theorem ClosedC.withdrawCloses {n : Rec} {code : ResultCode} (hs : P s) : P (s.withdrawCloses n code) :=
  hP.withdraw (fun _ _ _ h => hP.tellRefused h) hs

theorem ClosedC.enterStanddown (hd : KeepsStanddown P) {c : StanddownCause} {n : Rec} (hs : P s) : P (s.enterStanddown c n) := by
  unfold State.enterStanddown
  split
  · next h =>
    have h1 : P (s.setPart .standdown) := hd s (by simpa using h) hs
    have h2 : P (forEach allRecs (fun k u => u.withdrawCloses k .standdown) (s.setPart .standdown)) :=
      forEach_inv P _ (fun k u hu => hP.withdrawCloses hu) _ _ h1
    dsimp only
    exact hP.occur (hP.hncStanddown (hP.rccStanddown h2))
  · exact hs

theorem ClosedC.supersede {n : Rec} (hs : P s) : P (s.supersede n) := by
  have h1 : P _ := hP.slot s n _ .free hs
  exact hP.issueCmd ⟨.inr ⟨rfl, rfl⟩, fun h => nomatch h⟩ (hP.out _ n none h1)

theorem ClosedC.tellFlightSuperseded {n : Rec} {f : Flight} (hs : P s) : P (s.tellFlightSuperseded n f) := by
  unfold State.tellFlightSuperseded
  split
  · exact hP.hncTold hs
  · exact hP.rccTold hs
  · exact hP.setResult hs
  · split
    · exact hs
    · exact hP.setPend (.inl (by decide)) hs
  · exact hs

omit hP in
/-- A TRIP request at a FREE slot is issued at once and never waits (R53). -/
theorem State.takeTrip_free {n : Rec} (h : (s.slot n).state = .free) : s.takeTrip n = s.issueCmd n .trip .opening := by
  unfold State.takeTrip
  dsimp only
  rw [h]
  have h1 : ((s.setPend n .trip (some .opening)).slot n).state.isFree = true := by
    simp [State.setPend, h, SlotState.isFree]
  unfold State.issueNext
  rw [if_pos h1]
  have h2 : ((s.setPend n .trip (some .opening)).slot n).pend.get .trip = some .opening := by
    simp [State.setPend, Pending.set, Pending.get]
  unfold classOrder State.issueFrom
  rw [h2]
  simp only [State.setPend]
  simp [State.issueCmd, State.setSlot, State.slot, Vector.put, Vector.look, Pending.set, State.bayCmdFrame, State.cap,
    State.setOutPlace, State.ownByte]

theorem ClosedC.takeTrip {n : Rec} (hs : P s) : P (s.takeTrip n) := by
  cases h : (s.slot n).state with
  | free =>
    rw [State.takeTrip_free h]
    exact hP.issueCmd ⟨.inr ⟨rfl, rfl⟩, fun h => nomatch h⟩ hs
  | inFlight f =>
    unfold State.takeTrip
    dsimp only
    rw [h]
    dsimp only
    split
    · next o => exact hP.slot s n _ (.attach f h (by simpa using o)) hs
    · exact hP.tellFlightSuperseded (hP.supersede hs)
  | echoed f =>
    unfold State.takeTrip
    dsimp only
    rw [h]
    dsimp only
    split
    · next o => exact hP.slot s n _ (.attachEchoed f h (by simpa using o)) hs
    · exact hP.tellFlightSuperseded (hP.supersede hs)

theorem ClosedC.tripRequest {n : Rec} (hs : P s) : P (s.tripRequest n) :=
  hP.withdraw (fun _ _ _ h => hP.tellSuperseded h) (hP.takeTrip hs)

theorem ClosedC.takeBackup (hd : KeepsStanddown P) {b : Bay} {a : BackupAction} (hs : P s) : P (s.takeBackup b a) := by
  unfold State.takeBackup
  split
  · exact hP.tripRequest (hP.backup _ hs)
  · exact hP.enterStanddown hd hs
  · exact hP.enterStanddown hd hs
  · exact hs

theorem ClosedC.clearLatch {b : Bay} (hs : P s) : P (s.clearLatch b) := hP.latch s b none hs

theorem ClosedC.breakerFail (hd : KeepsStanddown P) {b : Bay} {f : Failure} {tag : Nat} (hs : P s) : P (s.breakerFail b f tag) := by
  have h1 : P _ := hP.bayRecord (b := b) (c := .breakerFail) (hP.lock (b := b) (cause := .breakerFail)
    (hP.clearLatch (b := b) hs))
  unfold State.breakerFail
  dsimp only
  generalize ((s.clearLatch b).lock b .breakerFail).bayRecord b .breakerFail = t at h1
  exact hP.takeBackup hd (hP.occurWithRecord h1)

theorem ClosedC.backupFail (hd : KeepsStanddown P) {f : Failure} {tag : Nat} (hs : P s) : P (s.backupFail f tag) :=
  hP.enterStanddown hd (hP.occur hs)

theorem ClosedC.tellEnd {n : Rec} {f : Flight} {o : Told} (hs : P s) : P (s.tellEnd n f o) := by
  unfold State.tellEnd
  split
  · exact hP.hncTold hs
  · exact hP.rccTold hs
  · exact hs

theorem ClosedC.confirmTrip {b : Bay} (hs : P s) : P (s.confirmTrip b) := by
  unfold State.confirmTrip
  split
  · exact hP.clearLatch (hP.protectionOpening hs)
  · exact hs

theorem ClosedC.endTripMark (hd : KeepsStanddown P) {n : Rec} {f : Flight} {o : Told} (hs : P s) : P (s.endTripMark n f o) := by
  unfold State.endTripMark
  split
  · split
    · exact hP.confirmTrip hs
    · exact hP.breakerFail hd hs
    · exact hP.breakerFail hd hs
    · exact hP.backupFail hd hs
    · exact hP.backupFail hd hs
    · exact hs
  · exact hs

theorem ClosedC.endOccurrence {n : Rec} {f : Flight} {o : Told} (hs : P s) : P (s.endOccurrence n f o) := by
  unfold State.endOccurrence
  dsimp only
  split
  · exact hP.occur hs
  · exact hP.occur hs
  · exact hs

theorem ClosedC.freeSlot {n : Rec} (hs : P s) : P (s.freeSlot n) := by
  have h1 : P _ := hP.slot s n _ .free hs
  have h2 : P _ := hP.issueFrom classOrder (n := n) h1
  unfold State.freeSlot
  dsimp only
  split
  · exact hP.hncTold h2
  · exact h2

theorem ClosedC.commandEnd (hd : KeepsStanddown P) {n : Rec} {f : Flight} {o : Told} (hs : P s) : P (s.commandEnd n f o) := by
  have h1 : P _ := hP.tellEnd (n := n) (f := f) (o := o) (hP.out s n none hs)
  have h2 : P _ := hP.endOccurrence (n := n) (f := f) (o := o) (hP.endTripMark hd (n := n) (f := f) (o := o) h1)
  unfold State.commandEnd
  dsimp only
  generalize (((s.setOutPlace n none).tellEnd n f o).endTripMark n f o).endOccurrence n f o = t at h2
  exact hP.freeSlot (hP.setResult h2)

theorem ClosedC.commandTimedOut (hd : KeepsStanddown P) {n : Rec} {f : Flight} (hs : P s) : P (s.commandTimedOut n f) := hP.commandEnd hd hs

end breaker

section status
variable {P : State → Prop} (hP : ClosedB P) {s : State}
include hP

theorem ClosedB.localChanged {n : Rec} {v : Bool} (hs : P s) : P (s.localChanged n v) := by
  cases v
  · simp only [State.localChanged, Bool.false_eq_true, if_false]
    refine hP.occur ?_
    split
    · exact removeReason_closed (hP.local_ _ _ _ hs) hs
    · exact hs
  · simp only [State.localChanged, if_true]
    refine hP.occur (hP.withdrawAll ?_)
    split
    · exact hP.addReason (hP.local_ _ _ _ hs) hs
    · exact hs

theorem ClosedB.interlockChanged {n : Rec} {v : Bool} (hs : P s) : P (s.interlockChanged n v) := by
  cases v
  · simp only [State.interlockChanged, Bool.false_eq_true, if_false]
    refine hP.occur ?_
    split
    · exact removeReason_closed (hP.interlock _ _ _ hs) hs
    · exact hs
  · simp only [State.interlockChanged, if_true]
    refine hP.occur (hP.withdrawCloses ?_)
    split
    · exact hP.addReason (hP.interlock _ _ _ hs) hs
    · exact hs

theorem ClosedB.storePosition {n : Rec} {p : Position} (hs : P s) : P (s.storePosition n p) := by
  unfold State.storePosition
  dsimp only
  split
  · exact hs
  · have h1 : P _ := hP.status s n { s.status n with position := p } hs
    split
    · exact hP.hncPosition (hP.rccPosition h1)
    · exact h1

theorem ClosedB.storeSpring {n : Rec} {v : Bool} (hs : P s) : P (s.storeSpring n v) := by
  unfold State.storeSpring
  dsimp only
  split
  · exact hs
  · have h1 : P _ := hP.status s n { s.status n with spring := v } hs
    split
    · split
      · exact hP.springCharged h1
      · exact h1
    · exact h1

theorem ClosedB.judgePresence {n : Rec} (hs : P s) : P (s.judgePresence n) := by
  have h1 : ∀ x d, P ((s.setStatus n x).occur fBayPresence (recMask n) d) := fun x d => hP.occur (hP.status s n x hs)
  unfold State.judgePresence
  dsimp only
  exact ite_both hs (ite_both (hP.lamp (h1 _ _)) (h1 _ _))

theorem ClosedB.storeInputs {n : Rec} {l i : Bool} (hs : P s) : P (s.storeInputs n l i) := by
  have h1 : P _ := hP.status s n { s.status n with localMode := l, interlock := i } hs
  unfold State.storeInputs
  dsimp only
  generalize s.setStatus n { s.status n with localMode := l, interlock := i } = t at h1
  have h2 : P (if (s.status n).localMode == l then t else t.localChanged n l) := by
    split
    · exact h1
    · exact hP.localChanged h1
  split
  · exact h2
  · exact hP.interlockChanged h2

theorem ClosedB.takeIndicator {n : Rec} {cmd : Command} (hs : P s) : P (s.takeIndicator n cmd) := by
  unfold State.takeIndicator
  split
  · split
    · exact hP.status _ _ _ hs
    · exact hs
  · exact hs

theorem ClosedB.judgeEcho (hd : KeepsStanddown P) {n : Rec} {tag : Nat} {done : Bool} (hs : P s) : P (s.judgeEcho n tag done) := by
  unfold State.judgeEcho
  dsimp only
  split
  · exact hs
  · next f h =>
    split
    · split
      · exact hP.commandEnd hd hs
      · split
        · exact hP.commandEnd hd (hP.takeIndicator hs)
        · exact hP.slot s n _ (.echoed f h) hs
    · exact hs
  · split
    · exact hP.commandEnd hd hs
    · exact hs

theorem ClosedB.applyBaystat (hd : KeepsStanddown P) {n : Rec} {m : Baystat} (hs : P s) : P (s.applyBaystat n m) := by
  have h1 : ∀ x, P ((s.setStatus n x).judgePresence n) := fun x => hP.judgePresence (hP.status s n x hs)
  unfold State.applyBaystat
  dsimp only
  exact hP.judgeEcho hd (hP.status _ _ _ (hP.storePosition (hP.storeSpring (hP.storeInputs (h1 _)))))

theorem ClosedB.bcuBaystat (hd : KeepsStanddown P) {src : Byte} {p : List Byte} (hs : P s) : P (s.bcuBaystat src p) := by
  unfold State.bcuBaystat
  split
  · exact hP.applyBaystat hd hs
  · exact hs

theorem ClosedB.baystatSilent {n : Rec} (hs : P s) : P (s.baystatSilent n) := by
  have h1 : P _ := hP.storeSpring (n := n) (v := false) (hP.storePosition (n := n) (p := .unknown) hs)
  unfold State.baystatSilent
  dsimp only
  exact hP.judgePresence (hP.status _ _ _ h1)

end status

end Sys2Proof.Machine
end

