-- ==== Sys2Proof/Laws/ClosedMeasure.lean ====
section
/-! SUPPORT. The operations of the Protection Unit, the Earth-Fault Unit and the Measurement Unit keep every property that is
closed under the elementary updates of ClosedN or ClosedM. -/

namespace Sys2Proof.Machine

/-- One move of a bay's element state: the accumulators stay at or below full scale and the PHI count at or below 2
wherever they stood so. -/
structure ElemMove (r x : Elements) : Prop where
  ptoc : x.ptoc ≤ max Config.fullScale r.ptoc
  etoc : x.etoc ≤ max Config.fullScale r.etoc
  phi : x.phi ≤ max 2 r.phi

/-- Also closed under what an evaluation and a completed instant change: element state, directions and the NVD element, latest
evaluations, history rings and waiting lists. -/
structure ClosedN (P : State → Prop) : Prop extends ClosedB P where
  elem : ∀ (s : State) b x, ElemMove (s.elem b) x → P s → P (s.setElem b x)
  efu : ∀ (s : State) e, P s → P { s with efu := e }
  latest : ∀ (s : State) l, P s → P { s with recd := { s.recd with latest := l } }
  bus : ∀ (s : State) v, P s → P { s with meu := { s.meu with latestBus := v } }
  history : ∀ (s : State) b l, l.length ≤ max Config.historyLength (s.meu.history.look b).length → P s →
    P (s.setHistory b l)
  waiting : ∀ (s : State) b l, l.length ≤ max Config.waitingLength (s.meu.waiting.look b).length → P s →
    P (s.setWaiting b l)

/-- Also closed under what a sample changes: the continuity contexts and the windows. -/
structure ClosedM (P : State → Prop) : Prop extends ClosedN P where
  ctx : ∀ (s : State) e x, x.window.length ≤ max Config.windowLength (s.ctx e).window.length → P s → P (s.setCtx e x)

/-! ### Values -/

theorem newest_length {α : Type} (n : Nat) (l : List α) : (newest n l).length ≤ n := by
  unfold newest
  rw [List.length_drop]
  omega

theorem pushLimited_length {α : Type} (n : Nat) (l : List α) (x : α) : (pushLimited n l x).length ≤ n :=
  newest_length n _

theorem accStep_le (points : List (Nat × Nat)) (t decay p i a : Nat) :
    (accStep points t decay p i a).1 ≤ max Config.fullScale a := by
  unfold accStep
  split
  · split
    · exact Nat.zero_le _
    · exact le_trans (Nat.sub_le _ _) (le_max_right _ _)
  · exact le_trans (Nat.min_le_left _ _) (le_max_left _ _)

theorem phiStep_le (pickup i count : Nat) : (phiStep pickup i count).1 ≤ 2 := by
  unfold phiStep
  split
  · exact Nat.zero_le _
  · split
    · exact Nat.zero_le _
    · exact Nat.min_le_left _ _

theorem State.elementStep_move (s : State) (b : Bay) (e : BayEval) (d : Direction) :
    ElemMove (s.elem b) (s.elementStep b e d).1 :=
  ⟨accStep_le _ _ _ _ _ _, accStep_le _ _ _ _ _ _, le_trans (phiStep_le _ _ _) (le_max_left _ _)⟩

section measure
variable {P : State → Prop} (hP : ClosedN P) {s : State}
include hP

/-! ### Protection -/

theorem ClosedN.setDir {b : Bay} {d : Direction} (hs : P s) : P (s.setDir b d) := hP.efu s _ hs

theorem ClosedN.setNvd {v : Nvd} (hs : P s) : P (s.setNvd v) := hP.efu s _ hs

theorem ClosedN.protectionTrip {b : Bay} {c : TripCause} {o : Operated} {e : BayEval} {d : Direction} (hs : P s) :
    P (s.protectionTrip b c o e d) := by
  unfold State.protectionTrip
  dsimp only
  exact hP.occurWithRecord (hP.tripRecord (hP.hncTrip (hP.tripRequest (hP.latch s b (some c) hs))))

theorem ClosedN.zeroPhi {b : Bay} (hs : P s) : P (s.zeroPhi b) :=
  hP.elem s b _ ⟨le_max_right _ _, le_max_right _ _, Nat.zero_le _⟩ hs

theorem ClosedN.zeroElements {b : Bay} (hs : P s) : P (s.zeroElements b) :=
  hP.elem s b _ ⟨Nat.zero_le _, Nat.zero_le _, Nat.zero_le _⟩ hs

theorem ClosedN.pruEvaluate {b : Bay} {e : BayEval} {d : Direction} (hs : P s) : P (s.pruEvaluate b e d) := by
  have h1 : P (s.setElem b (s.elementStep b e d).1) := hP.elem s b _ (s.elementStep_move b e d) hs
  unfold State.pruEvaluate
  dsimp only
  split
  · split
    · exact hP.protectionTrip h1
    · exact h1
  · exact ite_both (hP.zeroPhi hs) hs

theorem ClosedN.takeBayEval {b : Bay} {e : BayEval} (hs : P s) : P (s.takeBayEval b e) :=
  hP.pruEvaluate (hP.setDir (hP.latest s _ hs))

theorem ClosedN.changeNvd {v : Nvd} (hs : P s) : P (s.changeNvd v) := by
  unfold State.changeNvd
  dsimp only
  exact ite_both (hP.setNvd hs) (hP.hncNvd (hP.setNvd hs))

theorem ClosedN.nvdTiming {e : BusEval} {n : Nat} (hs : P s) : P (s.nvdTiming e n) := by
  have h1 : P (if s.efu.nvd.state == .timing then s else s.changeNvd { state := .timing, timing := n, confirm := 0 }) :=
    ite_both hs (hP.changeNvd hs)
  unfold State.nvdTiming
  dsimp only
  exact ite_both (hP.occur (hP.changeNvd (hP.setNvd h1))) (hP.setNvd h1)

theorem ClosedN.nvdEvaluate {e : BusEval} (hs : P s) : P (s.nvdEvaluate e) := by
  unfold State.nvdEvaluate
  dsimp only
  split
  · split
    · exact ite_both hs (hP.nvdTiming hs)
    · exact ite_both (hP.changeNvd hs) (hP.nvdTiming hs)
    · exact ite_both (ite_both (hP.occur (hP.changeNvd hs)) (hP.setNvd hs)) (hP.setNvd hs)
    · exact hs
  · exact hs

theorem ClosedN.nvdLost (hs : P s) : P s.nvdLost := ite_both (hP.changeNvd hs) hs

theorem ClosedN.nvdFound (hs : P s) : P s.nvdFound := ite_both (hP.changeNvd hs) hs

theorem ClosedN.takeBusEval {e : BusEval} (hs : P s) : P (s.takeBusEval e) := hP.nvdEvaluate (hP.bus s _ hs)

/-! ### Instants -/

theorem ClosedN.appendRow {b : Bay} {i : Instant} {k : Chan} (hs : P s) : P (s.appendRow b i k) :=
  hP.blind s _ (s.appendRow_maskE b i k) hs

theorem ClosedN.complete {b : Bay} {i : Instant} (hs : P s) : P (s.complete b i) :=
  forEach_inv P _ (fun _ _ ht => hP.appendRow ht) _ _
    (hP.history s b _ (le_trans (pushLimited_length _ _ _) (le_max_left _ _)) hs)

theorem ClosedN.wait {b : Bay} {i : Instant} (hs : P s) : P (s.wait b i) := by
  unfold State.wait
  dsimp only
  split
  · split
    · next l first rest h =>
      refine hP.complete (hP.waiting s b rest ?_ hs)
      have : (s.meu.waiting.look b ++ [i]).length = rest.length + 1 := by rw [h]; rfl
      rw [List.length_append] at this
      exact le_trans (by simp at this; omega) (le_max_right _ _)
    · exact hs
  · next h => exact hP.waiting s b _ (le_trans (Nat.le_of_not_lt h) (le_max_left _ _)) hs

theorem ClosedN.flushWaiting {b : Bay} (hs : P s) : P (s.flushWaiting b) :=
  forEach_inv P _ (fun _ _ hu => hP.complete hu) _ _ (hP.waiting s b [] (Nat.zero_le _) hs)

theorem ClosedN.completeNow {b : Bay} {i : Instant} (hs : P s) : P (s.completeNow b i) := hP.complete (hP.flushWaiting hs)

theorem ClosedN.formInstant {b : Bay} {x : Sample} (hs : P s) : P (s.formInstant b x) := by
  unfold State.formInstant
  dsimp only
  split
  · exact hP.completeNow hs
  · split
    · exact hP.completeNow hs
    · exact hP.wait hs

theorem ClosedN.completeWaiting {x : Sample} {b : Bay} (hs : P s) : P (s.completeWaiting x b) := by
  unfold State.completeWaiting
  dsimp only
  split
  · exact hs
  · next i rest h =>
    have h1 : P (s.setWaiting b rest) := by
      refine hP.waiting s b rest (le_trans ?_ (le_max_right _ _)) hs
      have := List.length_dropWhile_le (fun i : Instant => i.pos != x.pos) (s.meu.waiting.look b)
      rw [h] at this
      simp at this
      omega
    exact hP.complete (forEach_inv P _ (fun _ _ hu => hP.complete hu) _ _ h1)

theorem ClosedN.emptyBay {b : Bay} (hs : P s) : P (s.emptyBay b) :=
  hP.waiting _ b [] (Nat.zero_le _) (hP.history s b [] (Nat.zero_le _) hs)

/-! ### Entering and leaving VALID -/

theorem ClosedN.recLostBay {b : Bay} (hs : P s) : P (s.recLostBay b) :=
  hP.blind _ _ (s.recLostBay_maskE b) (hP.latest s _ hs)

theorem ClosedN.leaveValid {r : Option Role} (hs : P s) : P (s.leaveValid r) := by
  unfold State.leaveValid
  split
  · exact hP.emptyBay (hP.recLostBay (hP.judgePresence (hP.setDir (hP.zeroPhi hs))))
  · dsimp only
    exact forEach_inv P _ (fun _ _ hu => hP.flushWaiting hu) _ _ (hP.nvdLost (hP.efu _ _ (hP.bus s _ hs)))
  · exact hs

theorem ClosedN.enterValid {e : SrcIx} {r : Option Role} (hs : P s) : P (s.enterValid e r) := by
  unfold State.enterValid
  dsimp only
  refine hP.occur ?_
  split
  · exact hP.judgePresence hs
  · exact hP.nvdFound hs
  · exact hs

theorem ClosedN.becomeStale {e : SrcIx} {c : StaleCause} (hs : P s) : P (s.becomeStale e c) :=
  hP.occur (hP.leaveValid hs)

end measure

section samples
variable {P : State → Prop} (hP : ClosedM P) {s : State}
include hP

/-! ### Samples -/

theorem ClosedM.evaluateAt {e : SrcIx} {x : Sample} (hs : P s) : P (s.evaluateAt e x) := by
  unfold State.evaluateAt
  dsimp only
  split
  · have h1 : P _ := hP.ctx s e { s.ctx e with lastTag := some x.pos } (le_max_right _ _) hs
    split
    · exact hP.takeBayEval h1
    · exact hP.takeBusEval h1
    · exact h1
  · exact hs

theorem ClosedM.afterAppend {e : SrcIx} {x : Sample} (hs : P s) : P (s.afterAppend e x) := by
  unfold State.afterAppend
  dsimp only
  refine hP.evaluateAt ?_
  split
  · exact hP.formInstant hs
  · exact forEach_inv P _ (fun _ _ hu => hP.completeWaiting hu) _ _ hs
  · exact hs

theorem ClosedM.appendSample {e : SrcIx} {x : Sample} (hs : P s) : P (s.appendSample e x) := by
  unfold State.appendSample
  dsimp only
  exact hP.afterAppend (hP.ctx s e _ (le_trans (pushLimited_length _ _ _) (le_max_left _ _)) hs)

theorem ClosedM.firstFrame {e : SrcIx} {p : Pos} {g : Bool} {q : Quad} (hs : P s) : P (s.firstFrame e p g q) := by
  unfold State.firstFrame
  dsimp only
  refine hP.ctx s e _ (le_trans ?_ (le_max_left _ _)) hs
  cases g <;> simp

theorem ClosedM.refill {e : SrcIx} {l p : Pos} {g : Bool} {q : Quad} (hs : P s) : P (s.refill e l p g q) := by
  unfold State.refill
  dsimp only
  have hw : ∀ (c : Prop) [Decidable c] (w : List Sample) (x : Sample),
      (if c then pushLimited Config.windowLength w x else [x]).length ≤
        max Config.windowLength (s.ctx e).window.length := by
    intro c _ w x
    refine le_trans ?_ (le_max_left _ _)
    split
    · exact pushLimited_length _ _ _
    · simp
  refine ite_both hs (ite_both (hP.ctx s e _ (Nat.zero_le _) hs) (ite_both ?_ ?_))
  · refine hP.afterAppend (hP.enterValid (hP.ctx s e _ ?_ hs))
    exact hw _ _ _
  · refine hP.ctx s e _ ?_ hs
    exact hw _ _ _

theorem ClosedM.validFrame {e : SrcIx} {l p : Pos} {g : Bool} {q : Quad} (hs : P s) : P (s.validFrame e l p g q) := by
  unfold State.validFrame
  dsimp only
  refine ite_both hs (ite_both ?_ ?_)
  · refine hP.becomeStale (hP.ctx s e _ (le_trans ?_ (le_max_left _ _)) hs)
    cases g <;> simp
  · exact forEach_inv P _ (fun _ _ hv => hP.appendSample hv) _ _ (hP.ctx s e _ (le_max_right _ _) hs)

theorem ClosedM.giveSample {e : SrcIx} {p : Pos} {g : Bool} {q : Quad} (hs : P s) : P (s.giveSample e p g q) := by
  unfold State.giveSample
  dsimp only
  split
  · exact hP.validFrame hs
  · exact hP.refill hs
  · exact hP.refill hs
  · exact hP.firstFrame hs

theorem ClosedM.sourceSilent {e : SrcIx} (hs : P s) : P (s.sourceSilent e) := by
  unfold State.sourceSilent
  dsimp only
  exact hP.becomeStale (hP.ctx s e _ (Nat.zero_le _) hs)

theorem ClosedM.meuSample {src : Byte} {p : List Byte} (hs : P s) : P (s.meuSample src p) := by
  unfold State.meuSample
  split
  · exact hP.giveSample hs
  · exact hs

theorem ClosedM.startAfresh {e : SrcIx} {r : Option Role} (hs : P s) : P (s.startAfresh e r) := by
  have h1 : P _ := hP.ctx s e SourceCtx.fresh (Nat.zero_le _) hs
  have h2 : P (if (s.ctx e).state == .valid then (s.setCtx e SourceCtx.fresh).leaveValid r
      else s.setCtx e SourceCtx.fresh) := ite_both (hP.leaveValid h1) h1
  have hc : ∀ (r : Option Role) (t : State), P t → P (match r with
      | some (.bay b) => t.emptyBay b
      | some .bus => { t with meu := { t.meu with latestBus := none } }
      | none => t) := by
    intro r t ht
    split
    · exact hP.emptyBay ht
    · exact hP.bus t _ ht
    · exact ht
  unfold State.startAfresh
  dsimp only
  exact hc _ _ (hc _ _ h2)

end samples

end Sys2Proof.Machine
end

