-- ==== Sys2Proof/Laws/ClosedExec.lean ====
section
/-! SUPPORT. What a command can do, said once: its effect is a chain of the elementary updates listed in ClosedExec, so a
property closed under them that holds before exec holds after it.  Updates that only some commands make are asked for
under a premise on the command. -/

namespace Sys2Proof.Machine

open Sys2Proof.Safety

/-! ### Further elementary updates -/

/-- One move of the ring interface: the own address and the out-places stay, no queue grows past its size, and no reply
comes in. -/
structure RiuMove (r x : Riu) : Prop where
  own : x.own = r.own
  outPlaces : x.outPlaces = r.outPlaces
  fwd : x.fwd.length ≤ max Config.forwardQueueSize r.fwd.length
  capQueue : x.capQueue.length ≤ max Config.captureQueueSize r.capQueue.length
  replies : x.replies.length ≤ r.replies.length
  members : ∀ f ∈ x.replies, f ∈ r.replies

/-- One move of the request queue: it does not grow past its size, and a new request holds 1 to 32 ops. -/
structure QueueMove (l x : List Request) : Prop where
  length : x.length ≤ max Config.requestQueueSize l.length
  members : ∀ r ∈ x, r ∈ l ∨ (1 ≤ r.ops.length ∧ r.ops.length ≤ 32)

/-- The request in progress keeps all but its pending widen and its bay context. -/
structure CurMove (p q : Progress) : Prop where
  opCount : q.opCount = p.opCount
  ops : q.ops = p.ops
  entries : q.entries = p.entries
  blocks : q.blocks = p.blocks

/-- One move of a fire map record: its shot cap stays or is at most 4. -/
def FireMove (x y : FireRecord) : Prop := y.shotCap = x.shotCap ∨ y.shotCap ≤ 4

/-- A property closed under every elementary update a command can make. -/
structure ClosedExec (c : Instr) (P : State → Prop) : Prop extends ClosedM P where
  standdown : endsCommands c = true → KeepsStanddown P
  cold : ∀ (s : State) straps, c = .coldReset straps → P s → P (s.coldReset straps)
  hold : ∀ s : State, c = .resetPinAsserted → P s → P s.holdReset
  tfb : ∀ (s : State) v, P s → P { s with pins := { s.pins with tfb := v } }
  pin : ∀ (s : State) v, P s → P { s with fru := { s.fru with pinLevel := v } }
  commanded : ∀ (s : State) v, P s → P { s with fru := { s.fru with commanded := v } }
  levelBypass : ∀ s : State, s.mgu.part = .bypass → P s →
    P { s with fru := { s.fru with effective := max s.fru.commanded s.fru.pinLevel } }
  level : ∀ s : State, s.mgu.part ≠ .bypass → P s →
    P ({ s with fru := { s.fru with effective := max s.fru.commanded s.fru.pinLevel } } : State).deriveFire.1
  fireStack : ∀ s : State, P s → P (s.setStack s.fireStep.1)
  base : ∀ (s : State) g, P s → P (s.setStack (replaceGroup .base g s.fru.stack))
  manual : ∀ (s : State) g, P s → P (s.setStack (s.placed .manual g))
  popManual : ∀ s : State, P s → P (s.setStack (removeEntry .manual s.fru.stack))
  lockSeason : ∀ s : State, c = .seasonLock → P s → P ((s.setLock true).setStack (lockOrder s.fru.stack))
  unlockSeason : ∀ s : State, c = .seasonUnlock → s.fru.effective = 0 → P s → P (s.setLock false)
  riu : ∀ (s : State) r, RiuMove s.riu r → P s → P { s with riu := r }
  readouts : ∀ (s : State) l, P s → P { s with recd := { s.recd with readouts := l } }
  queue : ∀ (s : State) l, QueueMove s.mgu.queue l → P s → P { s with mgu := { s.mgu with queue := l } }
  cur : ∀ (s : State) p q, s.mgu.cur = some p → CurMove p q → P s → P (s.setCur (some q))
  start : ∀ s : State, P s → P s.startRequest
  done : ∀ (s : State) a, P s → P (s.opDone a)
  restartReply : ∀ (s : State) p, s.mgu.cur = some p → p.ops ≠ [] → P s →
    P (s.placeReply (p.answered okAnswer).abandon)
  warm : ∀ s : State, c = .restart → P s → P s.blocksWarm.fruRestart
  source : ∀ (s : State) t, writesTable c 1 = true → s.protecting = false → P s →
    P { s with meu := { s.meu with table := t } }
  capability : ∀ (s : State) n x, writesTable c 2 = true ∨ (∃ v, c = .setBackupAddr v) → s.protecting = false → P s →
    P (s.setCap n x)
  capabilityReason : ∀ (s : State) b v, writesTable c 2 = true ∨ (∃ v, c = .setBackupAddr v) → P s →
    P (s.putReason b .capability v)
  group : ∀ (s : State) g x, writesTable c 3 = true → P s → P (s.setGroup g x)
  curve : ∀ (s : State) k x, writesTable c 4 = true ∨ writesTable c 5 = true → P s → P (s.setCurve k x)
  fireMap : ∀ (s : State) l x, writesTable c 8 = true → s.fru.seasonLock = false → FireMove (s.fru.fireMap.look l) x →
    (l = s.fru.effective → x.mask = (s.fru.fireMap.look l).mask) → P s → P (s.setFire l x)
  fireMask : ∀ (s : State) x, writesTable c 8 = true → s.fru.seasonLock = false →
    FireMove (s.fru.fireMap.look s.fru.effective) x → P s → P (s.setFire s.fru.effective x).deriveFire.1
  huntTable : ∀ (s : State) x, writesTable c 10 = true → P s → P (s.setHuntTable x)
  segment : ∀ (s : State) v, writesTable c 12 = true → P s → P { s with recd := { s.recd with segments := v } }
  channel : ∀ (s : State) k x, writesTable c 13 = true → P s → P (s.setChan k x)
  factor : ∀ (s : State) f x, writesTable c 15 = true → P s → P (s.setFac f x)
  manualReason : ∀ (s : State) b v, P s → P (s.putReason b .manual v)
  ackBackup : ∀ s : State, P s → P (s.setBackup false)
  clearStanddown : ∀ s : State, c = .clearStanddown → s.mgu.part = .standdown → P s → P (s.setPart .active)
  threshold : ∀ (s : State) n, (∃ v, c = .setThreshold v) → P s → P { s with evu := { s.evu with threshold := n } }
  dest : ∀ (s : State) n, (∃ v, c = .setReportDest v) → P s → P { s with evu := { s.evu with dest := n } }
  offset : ∀ (s : State) w, (∃ v, c = .setTime v) → P s → P { s with mgu := { s.mgu with offset := w } }
  enter : ∀ s : State, c = .commission → s.mgu.part = .unconfigured → P s →
    P (forEach allBays (fun b u => if (u.cap (bayRec b)).inService then u.startIdle b else u)
      (s.setPart .active)).deriveFire.1
  leave : ∀ s : State, c = .decommission → s.mgu.part = .active → s.fru.seasonLock = false → P s →
    P (forEach allBays (fun b u => u.decommissionBay b) (s.setPart .unconfigured))
  unfire : ∀ s : State, P s → P (s.setStack (removeEntry .fire s.fru.stack))
  derive : ∀ s : State, P s → P s.deriveFire.1

/-! ### Operations over a closed property -/

section commands
variable {c : Instr} {P : State → Prop} (hP : ClosedExec c P) {s : State}
include hP

theorem ClosedExec.judgeOutSlot (hs : P s) : P s.judgeOutSlot := hP.blind s _ s.judgeOutSlot_maskE hs

theorem ClosedExec.send {f : Frame} (hs : P s) : P (s.send f) :=
  hP.riu s _ ⟨rfl, rfl, le_max_right _ _, le_max_right _ _, le_rfl, fun _ h => h⟩ hs

theorem ClosedExec.refreshIn (hs : P s) : P s.refreshIn :=
  hP.riu s _ ⟨rfl, rfl, le_max_right _ _, le_max_right _ _, le_rfl, fun _ h => h⟩ hs

theorem ClosedExec.overrun {w : Byte} (hs : P s) : P (s.overrun w) :=
  hP.occur (hP.riu s _ ⟨rfl, rfl, le_max_right _ _, le_max_right _ _, le_rfl, fun _ h => h⟩ hs)

theorem ClosedExec.checkFailure (hs : P s) : P s.checkFailure :=
  hP.riu s _ ⟨rfl, rfl, le_max_right _ _, le_max_right _ _, le_rfl, fun _ h => h⟩ hs

theorem ClosedExec.forward {f : Frame} (hs : P s) : P (s.forward f) := by
  unfold State.forward
  split
  · next h =>
    refine hP.riu s _ ⟨rfl, rfl, le_trans ?_ (le_max_left _ _), le_max_right _ _, le_rfl, fun _ h => h⟩ hs
    simpa using h
  · exact hP.overrun hs

omit hP in
theorem parseRequest_ops {src : Byte} {l : List Byte} {r : Request} (h : parseRequest src l = some r) :
    1 ≤ r.ops.length ∧ r.ops.length ≤ 32 := by
  unfold parseRequest at h
  split at h
  · split at h
    · split at h
      · next hc => cases h; exact ⟨by dsimp; omega, by dsimp; omega⟩
      · cases h
    · cases h
  · cases h

theorem ClosedExec.offerRequest {f : Frame} (hs : P s) : P (s.offerRequest f) := by
  unfold State.offerRequest
  split
  · exact hs
  · next r hr =>
    split
    · next h =>
      refine hP.queue s _ ⟨le_trans (by simpa using h) (le_max_left _ _), fun q hq => ?_⟩ hs
      rcases List.mem_append.mp hq with h1 | h1
      · exact .inl h1
      · rw [List.mem_singleton.mp h1]; exact .inr (parseRequest_ops hr)
    · exact hP.overrun hs

theorem ClosedExec.actOn (hd : KeepsStanddown P) {f : Frame} (hs : P s) : P (s.actOn f) := by
  unfold State.actOn
  split
  · exact hs
  · exact hP.offerRequest hs
  · exact hs
  · exact hP.forward (hP.meuSample hs)
  · exact hP.forward (hP.bcuBaystat hd hs)
  · exact hP.forward hs

theorem ClosedExec.receive (hd : KeepsStanddown P) {f : Frame} (hs : P s) : P (s.receive f) := by
  have h1 := hP.refreshIn hs
  unfold State.receive
  dsimp only
  exact ite_both (hP.forward h1) (ite_both (hP.actOn hd h1) (hP.checkFailure h1))

/-- A frame that is no BAYSTAT ends no command. -/
theorem ClosedExec.receive_other {f : Frame} (hk : f.kind ≠ kindBaystat) (hs : P s) : P (s.receive f) := by
  have h1 := hP.refreshIn hs
  unfold State.receive
  dsimp only
  refine ite_both (hP.forward h1) (ite_both ?_ (hP.checkFailure h1))
  unfold State.actOn
  split
  · exact h1
  · exact hP.offerRequest h1
  · exact h1
  · exact hP.forward (hP.meuSample h1)
  · next h =>
    unfold State.classify at h
    simp [hk] at h
    repeat' split at h
    all_goals cases h
  · exact hP.forward h1

theorem ClosedExec.inSilent (hs : P s) : P s.inSilent :=
  hP.occur (hP.riu s _ ⟨rfl, rfl, le_max_right _ _, le_max_right _ _, le_rfl, fun _ h => h⟩ hs)

theorem ClosedExec.placeBlock (hs : P s) : P s.placeBlock := by
  unfold State.placeBlock
  split
  · exact hs
  · next r rest _ =>
    split
    · next h =>
      have hm : RiuMove s.riu
          { s.riu with capQueue := s.riu.capQueue ++ [s.blockFrame r (min Config.blockRows r.left)] } :=
        ⟨rfl, rfl, le_max_right _ _, le_trans (by simpa using h) (le_max_left _ _), le_rfl, fun _ h => h⟩
      exact hP.readouts _ _ (hP.riu s _ hm hs)
    · exact hs

theorem ClosedExec.placeBlocks (n : Nat) (hs : P s) : P (State.placeBlocks n s) := by
  induction n generalizing s with
  | zero => exact hs
  | succ n ih => exact ih (hP.placeBlock hs)

theorem ClosedExec.takeOut (hs : P s) : P s.takeOut := by
  unfold State.takeOut
  split
  · exact hP.send (hP.out _ _ _ hs)
  · split
    · next h =>
      refine hP.send (hP.riu s _ ⟨rfl, rfl, le_trans ?_ (le_max_right _ _), le_max_right _ _, le_rfl, fun _ h => h⟩ hs)
      rw [h]; simp
    · split
      · next h =>
        refine hP.send (hP.riu s _ ⟨rfl, rfl, le_max_right _ _, le_max_right _ _, ?_, fun f hf => ?_⟩ hs)
        · rw [h]; simp
        · rw [h]; exact List.mem_cons_of_mem _ hf
      · split
        · exact hP.judgeOutSlot (hP.blind _ _ (State.setFac_maskE _ _ _ rfl) (hP.send hs))
        · split
          · next h =>
            refine hP.placeBlock (hP.send (hP.riu s _
              ⟨rfl, rfl, le_max_right _ _, le_trans ?_ (le_max_right _ _), le_rfl, fun _ h => h⟩ hs))
            rw [h]; simp
          · exact hP.riu s _ ⟨rfl, rfl, le_max_right _ _, le_max_right _ _, le_rfl, fun _ h => h⟩ hs

/-! ### The fire level -/

theorem ClosedExec.changeToFire {cause : GroupCause} (hs : P s) : P (s.changeStack s.fireStep.1 cause) :=
  hP.changeStack (hP.fireStack s hs)

theorem ClosedExec.formLevel (hs : P s) : P s.formLevel := by
  unfold State.formLevel
  dsimp only
  split
  · exact hs
  · split
    · next h => exact hP.levelBypass s (by simpa using h) hs
    · next h =>
      have h1 := hP.level s (by simpa using h) hs
      unfold State.applyLevel
      dsimp only
      generalize ({ s with fru := { s.fru with effective := max s.fru.commanded s.fru.pinLevel } } : State).deriveFire = d
        at h1
      refine hP.occur (hP.hncLevel (hP.rejudgeWaiting ?_))
      split
      · exact hP.changeToFire h1
      · exact h1

theorem ClosedExec.takePin {v : Bool} (hs : P s) : P (s.takePin v) := hP.formLevel (hP.pin s _ hs)

/-! ### Table writes -/

/-- A WRITE that the table's owner judges: P holds after it where it holds before. -/
theorem ClosedExec.storeSource {e : SrcIx} {x : SourceEntry} (hw : writesTable c 1 = true) (hp : s.protecting = false)
    (hs : P s) : P (s.storeSource e x) := by
  have h1 := hP.source s (s.meu.table.put e x) hw hp hs
  unfold State.storeSource
  dsimp only
  exact ite_both (hP.startAfresh h1) h1

theorem ClosedExec.writeTable1 {a : BitVec 8} {v : Nat} (hw : writesTable c 1 = true) (hs : P s) :
    P (s.writeTable1 a v).1 := by
  unfold State.writeTable1
  split
  · exact hs
  · split
    · exact hs
    · split
      · exact hs
      · next h =>
        split
        · exact hs
        · exact hP.storeSource hw (by simpa using h) hs

theorem ClosedExec.statusAfresh {n : Rec} (hs : P s) : P (s.statusAfresh n) := by
  have h1 : P _ := hP.storeSpring (n := n) (v := false) (hP.storePosition (n := n) (p := .unknown) hs)
  unfold State.statusAfresh
  dsimp only
  exact hP.storeInputs (hP.judgePresence (hP.status _ _ _ h1))

theorem ClosedExec.serviceChanged {n : Rec} (hs : P s) : P (s.serviceChanged n) := by
  unfold State.serviceChanged
  split
  · dsimp only
    exact ite_both (hP.zeroElements hs) (hP.setDir (hP.zeroElements hs))
  · exact hs

theorem ClosedExec.recloseCapChanged {n : Rec} (hw : writesTable c 2 = true ∨ (∃ v, c = .setBackupAddr v)) (hs : P s) :
    P (s.recloseCapChanged n) := by
  unfold State.recloseCapChanged
  split
  · exact ite_both (removeReason_closed (hP.capabilityReason s _ _ hw hs) hs)
      (hP.addReason (hP.capabilityReason s _ _ hw hs) hs)
  · exact hs

theorem ClosedExec.regateInputs {n : Rec} {o x : Capability} (hs : P s) : P (s.regateInputs n o x) := by
  unfold State.regateInputs
  dsimp only
  exact ite_both (hP.storeInputs hs) (hP.storeSpring (hP.storeInputs hs))

theorem ClosedExec.storeCapability {n : Rec} {x : Capability} (hw : writesTable c 2 = true ∨ (∃ v, c = .setBackupAddr v))
    (hp : s.protecting = false) (hs : P s) : P (s.storeCapability n x) := by
  have h1 := hP.capability s n x hw hp hs
  have h2 : P (if (s.cap n).addr == x.addr then s.setCap n x else (s.setCap n x).statusAfresh n) :=
    ite_both h1 (hP.statusAfresh h1)
  unfold State.storeCapability
  dsimp only
  generalize (if (s.cap n).addr == x.addr then s.setCap n x else (s.setCap n x).statusAfresh n) = t at h2
  have h3 : P (if (s.cap n).inService == x.inService then t else t.serviceChanged n) :=
    ite_both h2 (hP.serviceChanged h2)
  generalize (if (s.cap n).inService == x.inService then t else t.serviceChanged n) = u at h3
  exact hP.regateInputs (ite_both h3 (hP.recloseCapChanged hw h3))

theorem ClosedExec.judgeCapability {n : Rec} {r : Except ResultCode Capability}
    (hw : writesTable c 2 = true ∨ (∃ v, c = .setBackupAddr v)) (hs : P s) : P (s.judgeCapability n r).1 := by
  unfold State.judgeCapability
  split
  · exact hs
  · next h =>
    split
    · exact hs
    · split
      · exact hs
      · exact hP.storeCapability hw (by simpa using h) hs

theorem ClosedExec.writeTable2 {a : BitVec 8} {v : Nat} {n : Rec} (hw : writesTable c 2 = true) (hs : P s) :
    P (s.writeTable2 a v n).1 := by
  unfold State.writeTable2
  split
  · exact hs
  · exact hP.judgeCapability (.inl hw) hs

theorem ClosedExec.writeTable3 {a : BitVec 8} {v : Nat} {n : Rec} (hw : writesTable c 3 = true) (hs : P s) :
    P (s.writeTable3 a v n).1 := by
  unfold State.writeTable3
  split
  · exact hs
  · split
    · exact hs
    · split
      · exact hs
      · exact hP.group s _ _ hw hs

theorem ClosedExec.writeCurves {h : Bool} {a : BitVec 8} {v : Nat} (hw : writesTable c 4 = true ∨ writesTable c 5 = true)
    (hs : P s) : P (s.writeCurves h a v).1 := by
  unfold State.writeCurves
  dsimp only
  split
  · exact hs
  · split
    · exact hs
    · exact hP.curve s _ _ hw hs

omit hP in
/-- A fire map field stores its own value: the mask changes by field 1 alone, and a shot cap is at most 4. -/
theorem fireWrite_move {x y : FireRecord} {f v : Nat} (h : fireWrite x f v = some y) :
    FireMove x y ∧ (f ≠ 1 → y.mask = x.mask) := by
  unfold fireWrite at h
  split at h
  · cases hi : indexOrNone 6 v with
    | none => simp [hi] at h
    | some g => simp [hi] at h; subst h; exact ⟨.inl rfl, fun _ => rfl⟩
  · split at h
    · cases h; exact ⟨.inl rfl, fun e => absurd rfl e⟩
    · cases h
  · split at h
    · next hv => cases h; exact ⟨.inr hv, fun _ => rfl⟩
    · cases h
  · cases hi : yesNo v with
    | none => simp [hi] at h
    | some g => simp [hi] at h; subst h; exact ⟨.inl rfl, fun _ => rfl⟩
  · split at h
    · cases h; exact ⟨.inl rfl, fun _ => rfl⟩
    · cases h
  · cases h

theorem ClosedExec.storeFire {l : Level} {f v : Nat} {x : FireRecord} (hw : writesTable c 8 = true)
    (hl : s.fru.seasonLock = false) (hx : fireWrite (s.fru.fireMap.look l) f v = some x) (hs : P s) :
    P (s.storeFire l f x) := by
  have hm := fireWrite_move hx
  unfold State.storeFire
  dsimp only
  split
  · next he =>
    have he : l = s.fru.effective := he
    split
    · have h1 := hP.fireMap s l x hw hl hm.1 (fun _ => hm.2 (by decide)) hs
      exact ite_both (hP.changeToFire h1) h1
    · have h1 := hP.fireMask s x hw hl (he ▸ hm.1) hs
      rw [← he] at h1
      unfold State.fireMaskWritten
      dsimp only
      exact ite_both h1 (hP.occur h1)
    · next h0 h1' =>
      exact hP.rejudgeWaiting (hP.fireMap s l x hw hl hm.1 (fun _ => hm.2 h1') hs)
  · next he => exact hP.fireMap s l x hw hl hm.1 (fun e => absurd e he) hs

theorem ClosedExec.writeTable8 {a : BitVec 8} {v : Nat} (hw : writesTable c 8 = true) (hs : P s) :
    P (s.writeTable8 a v).1 := by
  unfold State.writeTable8
  split
  · exact hs
  · dsimp only
    split
    · exact hs
    · next hx =>
      split
      · exact hs
      · next hl =>
        split
        · exact hs
        · exact hP.storeFire hw (by simpa using hl) hx hs

theorem ClosedExec.writeTable10 {a : BitVec 8} {v : Nat} (hw : writesTable c 10 = true) (hs : P s) :
    P (s.writeTable10 a v).1 := by
  unfold State.writeTable10
  split
  · exact hs
  · unfold storeUnless
    split
    · exact hs
    · exact hP.huntTable s _ hw hs

theorem ClosedExec.writeTable12 {a : BitVec 8} {v : Word32} (hw : writesTable c 12 = true) (hs : P s) :
    P (s.writeTable12 a v).1 := by
  unfold State.writeTable12
  dsimp only
  split
  · exact hs
  · exact hP.segment s _ hw hs

theorem ClosedExec.writeTable13 {a : BitVec 8} {v : Nat} (hw : writesTable c 13 = true) (hs : P s) :
    P (s.writeTable13 a v).1 := by
  unfold State.writeTable13
  split
  · exact hs
  · dsimp only
    split
    · exact hs
    · unfold storeUnless
      split
      · exact hs
      · exact hP.channel s _ _ hw hs

theorem ClosedExec.writeTable15 {a : BitVec 8} {v : Nat} (hw : writesTable c 15 = true) (hs : P s) :
    P (s.writeTable15 a v).1 := by
  unfold State.writeTable15
  split
  · exact hs
  · split
    · exact hs
    · split
      · exact hs
      · exact hP.judgeOutSlot (hP.factor s _ _ hw hs)

end commands

section ops
variable {c : Instr} {P : State → Prop} (hP : ClosedExec c P)
include hP

/-- An op that takes no immediate. -/
theorem ClosedExec.runOp {body : Rec → State → State × Answer} (hb : ∀ n t, P t → P (body n t).1) {s : State} (hs : P s) :
    P (s.runOp c body) := by
  unfold State.runOp
  split
  · exact hP.done _ _ (hb _ _ hs)
  · exact hs

omit hP in
theorem State.asked_cur {s : State} {p : Progress} (h : s.asked c = some p) : s.mgu.cur = some p ∧ p.ops ≠ [] := by
  unfold State.asked at h
  split at h
  · next q hq =>
    split at h
    · next w ws ho =>
      split at h
      · cases h; exact ⟨hq, by rw [ho]; exact List.cons_ne_nil _ _⟩
      · cases h
    · cases h
  · cases h

/-- An op that takes an immediate. -/
theorem ClosedExec.runImm {imm : BitVec 12} {body : Word32 → Rec → State → State × Answer}
    (hb : ∀ v n t, P t → P (body v n t).1) {s : State} (hs : P s) : P (s.runImm c imm body) := by
  unfold State.runImm
  split
  · next p h =>
    exact hP.done _ _ (hb _ _ _ (hP.cur s p _ (State.asked_cur h).1 ⟨rfl, rfl, rfl, rfl⟩ hs))
  · exact hs

theorem ClosedExec.opContext (v : Word32) (n : Rec) (s : State) (hs : P s) : P (State.opContext v n s).1 := by
  unfold State.opContext
  split
  · next h => exact hP.cur s _ _ h ⟨rfl, rfl, rfl, rfl⟩ hs
  · exact hs

theorem ClosedExec.opWiden (t imm : BitVec 12) (n : Rec) (s : State) (hs : P s) : P (State.opWiden t imm n s).1 := by
  unfold State.opWiden
  dsimp only
  split
  · next h => exact hP.cur s _ _ h ⟨rfl, rfl, rfl, rfl⟩ hs
  · exact hs

theorem ClosedExec.opWrite (t : BitVec 12) (hw : ∀ k, writesTable c k = (targetTable t == k)) (v : Word32) (n : Rec)
    (s : State) (hs : P s) : P (State.opWrite t v n s).1 := by
  unfold State.opWrite writeAnswer State.writeTarget
  have w : ∀ k, targetTable t = k → writesTable c k = true := fun k h => by rw [hw, h]; exact beq_self_eq_true k
  dsimp only
  split
  · next h => exact hP.writeTable1 (w _ h) hs
  · next h => exact hP.writeTable2 (w _ h) hs
  · next h => exact hP.writeTable3 (w _ h) hs
  · next h => exact hP.writeCurves (.inl (w _ h)) hs
  · next h => exact hP.writeCurves (.inr (w _ h)) hs
  · next h => exact hP.writeTable8 (w _ h) hs
  · next h => exact hP.writeTable10 (w _ h) hs
  · next h => exact hP.writeTable12 (w _ h) hs
  · next h => exact hP.writeTable13 (w _ h) hs
  · next h => exact hP.writeTable15 (w _ h) hs
  · exact hs

omit hP in
theorem opRead_closed (t : BitVec 12) (n : Rec) (s : State) (hs : P s) : P (State.opRead t n s).1 := by
  unfold State.opRead
  split <;> exact hs

omit hP in
theorem opReadStatus_closed (v : Word32) (n : Rec) (s : State) (hs : P s) : P (State.opReadStatus v n s).1 := by
  unfold State.opReadStatus
  split <;> exact hs

omit hP in
theorem opReadRecords_closed (v : Word32) (n : Rec) (s : State) (hs : P s) : P (State.opReadRecords v n s).1 := by
  unfold State.opReadRecords
  split <;> exact hs

theorem ClosedExec.opReadCapture (v : Word32) (n : Rec) (s : State) (hs : P s) : P (State.opReadCapture v n s).1 := by
  unfold State.opReadCapture
  dsimp only
  repeat' split
  all_goals first | exact hs | exact hP.placeBlocks _ (hP.readouts s _ hs)

theorem ClosedExec.opSelectBase (v : Word32) (n : Rec) (s : State) (hs : P s) : P (State.opSelectBase v n s).1 := by
  unfold State.opSelectBase
  repeat' split
  all_goals first | exact hs | exact hP.changeStack (hP.base s _ hs)

theorem ClosedExec.opPushManual (v : Word32) (n : Rec) (s : State) (hs : P s) : P (State.opPushManual v n s).1 := by
  unfold State.opPushManual
  repeat' split
  all_goals first | exact hs | exact hP.changeStack (hP.manual s _ hs)

theorem ClosedExec.opPopManual (n : Rec) (s : State) (hs : P s) : P (State.opPopManual n s).1 := by
  unfold State.opPopManual
  repeat' split
  all_goals first | exact hs | exact hP.changeStack (hP.popManual s hs)

theorem ClosedExec.opSetLevel (v : Word32) (n : Rec) (s : State) (hs : P s) : P (State.opSetLevel v n s).1 := by
  unfold State.opSetLevel
  split
  · exact hs
  · exact hP.formLevel (hP.commanded s _ hs)

theorem ClosedExec.opLock (h : c = .seasonLock) (n : Rec) (s : State) (hs : P s) : P (State.opLock n s).1 := by
  unfold State.opLock
  split
  · exact hs
  · exact hP.changeStack (hP.lockSeason s h hs)

theorem ClosedExec.opUnlock (h : c = .seasonUnlock) (n : Rec) (s : State) (hs : P s) : P (State.opUnlock n s).1 := by
  unfold State.opUnlock
  split
  · exact hs
  · split
    · next he => exact hP.unlockSeason s h he hs
    · exact hs

theorem ClosedExec.manage {s : State} {n : Rec} {cmd : Command} {after : State → State}
    (ha : ∀ t, P t → P (after t)) (hs : P s) : P (s.manage n cmd after).1 := by
  unfold State.manage
  split
  · next h => exact ha _ (hP.place (by decide) hs h)
  · exact hs

theorem ClosedExec.opBayOpen (n : Rec) (s : State) (hs : P s) : P (State.opBayOpen n s).1 := by
  refine hP.manage (fun t ht => ?_) hs
  split
  · unfold State.rccBayOpen
    dsimp only
    split
    · exact hP.setRcl_zero rfl rfl ht
    · next b _ _ _ => exact hP.setRcl_zero (s := t.setPend (bayRec b) .reclose none) rfl rfl (hP.setPend (.inr rfl) ht)
    · exact ht
  · exact ht

theorem ClosedExec.opBayClose (n : Rec) (s : State) (hs : P s) : P (State.opBayClose n s).1 := by
  unfold State.opBayClose
  split
  · split
    · exact hP.manage (fun _ h => h) hs
    · exact hs
  · exact hP.manage (fun _ h => h) hs

theorem ClosedExec.opBayIndicate (v : Word32) (n : Rec) (s : State) (hs : P s) : P (State.opBayIndicate v n s).1 := by
  unfold State.opBayIndicate
  repeat' split
  all_goals first | exact hs | exact hP.manage (fun _ h => h) hs

theorem ClosedExec.opBayInterlock (v : Word32) (n : Rec) (s : State) (hs : P s) : P (State.opBayInterlock v n s).1 := by
  unfold State.opBayInterlock
  repeat' split
  all_goals first | exact hs | exact hP.manage (fun _ h => h) hs

theorem ClosedExec.opBlock (v : Word32) (n : Rec) (s : State) (hs : P s) : P (State.opBlock v n s).1 := by
  unfold State.opBlock
  split
  · exact hs
  · exact forEach_inv P _ (fun _ _ ht => hP.addReason (hP.manualReason _ _ _ ht) ht) _ _ hs

theorem ClosedExec.opUnblock (v : Word32) (n : Rec) (s : State) (hs : P s) : P (State.opUnblock v n s).1 := by
  unfold State.opUnblock
  split
  · exact hs
  · exact forEach_inv P _ (fun _ _ ht => removeReason_closed (hP.manualReason _ _ _ ht) ht) _ _ hs

theorem ClosedExec.opResetLockout (n : Rec) (s : State) (hs : P s) : P (State.opResetLockout n s).1 := by
  unfold State.opResetLockout
  split
  · exact hs
  · dsimp only
    split
    · exact hP.lamp (hP.setRcl_zero rfl rfl hs)
    · exact hs

theorem ClosedExec.opAck (n : Rec) (s : State) (hs : P s) : P (State.opAck n s).1 := by
  unfold State.opAck
  repeat' split
  all_goals first | exact hs | exact hP.ackBackup s hs

theorem ClosedExec.opClearStanddown (h : c = .clearStanddown) (n : Rec) (s : State) (hs : P s) :
    P (State.opClearStanddown n s).1 := by
  unfold State.opClearStanddown
  split
  · exact hs
  · next hp =>
    rw [not_or, not_not] at hp
    exact hP.clearStanddown s h hp.1 hs

theorem ClosedExec.opStartHunt (n : Rec) (s : State) (hs : P s) : P (State.opStartHunt n s).1 := by
  unfold State.opStartHunt
  split
  · exact hs
  · split
    · exact hs
    · dsimp only
      exact hP.startHuntNow hs

theorem ClosedExec.opAbortHunt (n : Rec) (s : State) (hs : P s) : P (State.opAbortHunt n s).1 := by
  unfold State.opAbortHunt
  repeat' split
  all_goals first | exact hs | exact hP.huntToIdle hs | exact hP.abortRunning hs

theorem ClosedExec.opArm (v : Word32) (n : Rec) (s : State) (hs : P s) : P (State.opArm v n s).1 := by
  unfold State.opArm
  dsimp only
  repeat' split
  all_goals first | exact hs | exact hP.blind _ _ (State.setChan_maskE _ _ _ rfl) hs

theorem ClosedExec.opDisarm (v : Word32) (n : Rec) (s : State) (hs : P s) : P (State.opDisarm v n s).1 := by
  unfold State.opDisarm
  dsimp only
  repeat' split
  all_goals first
    | exact hs
    | exact hP.blind _ _ (State.setChan_maskE _ _ _ rfl) hs
    | exact hP.blind _ _ (State.truncateChan_maskE _ _) hs

omit hP in
theorem State.clearFactor_maskE (s : State) (f : Factor) : (s.clearFactor f).maskE = s.maskE := by
  unfold State.clearFactor
  dsimp only
  rw [State.judgeOutSlot_maskE]
  split
  · rw [State.dropHolds_maskE]; exact s.setFac_maskE _ _ rfl
  · exact s.setFac_maskE _ _ rfl

theorem ClosedExec.opClearEvents (v : Word32) (n : Rec) (s : State) (hs : P s) : P (State.opClearEvents v n s).1 := by
  unfold State.opClearEvents
  split
  · exact hs
  · exact forEach_inv P _ (fun _ t ht => hP.blind t _ (t.clearFactor_maskE _) ht) _ _ hs

theorem ClosedExec.opThreshold (h : ∃ v, c = .setThreshold v) (v : Word32) (n : Rec) (s : State) (hs : P s) :
    P (State.opThreshold v n s).1 := by
  unfold State.opThreshold
  split
  · exact hs
  · exact ite_both hs (hP.judgeOutSlot (hP.threshold s _ h hs))

theorem ClosedExec.opReportDest (h : ∃ v, c = .setReportDest v) (v : Word32) (n : Rec) (s : State) (hs : P s) :
    P (State.opReportDest v n s).1 := by
  unfold State.opReportDest
  repeat' split
  all_goals first | exact hs | exact hP.judgeOutSlot (hP.dest s _ h hs)

theorem ClosedExec.enterActive {s : State} (h : c = .commission) (hp : s.mgu.part = .unconfigured) (hs : P s) :
    P s.enterActive := by
  have h1 := hP.enter s h hp hs
  unfold State.enterActive
  dsimp only
  exact hP.changeToFire h1

theorem ClosedExec.opCommission (h : c = .commission) (n : Rec) (s : State) (hs : P s) : P (State.opCommission n s).1 := by
  unfold State.opCommission
  split
  · exact hs
  · next hp =>
    split
    · exact hs
    · dsimp only
      exact hP.enterActive h (not_not.mp hp) hs

theorem ClosedExec.leaveActive {s : State} (h : c = .decommission) (hp : s.mgu.part = .active)
    (hl : s.fru.seasonLock = false) (hs : P s) : P s.leaveActive := by
  have h1 := hP.leave s h hp hl hs
  unfold State.leaveActive
  dsimp only
  generalize forEach allBays (fun b u => u.decommissionBay b) (s.setPart .unconfigured) = t at h1
  have h2 := hP.derive _ (hP.unfire _ h1)
  exact hP.changeNvd (forEach_inv P _ (fun _ _ ht => hP.setDir (hP.zeroElements ht)) _ _ h2)

theorem ClosedExec.opDecommission (h : c = .decommission) (n : Rec) (s : State) (hs : P s) :
    P (State.opDecommission n s).1 := by
  unfold State.opDecommission
  split
  · exact hs
  · split
    · exact hs
    · split
      · exact hs
      · next hl =>
        split
        · exact hs
        · next hp =>
          dsimp only
          exact hP.leaveActive h (not_not.mp hp) (by simpa using hl) hs

theorem ClosedExec.restartOp (h : c = .restart) {s : State} (hs : P s) : P (s.restartOp c) := by
  unfold State.restartOp
  split
  · exact hs
  · next p hp =>
    split
    · exact hP.done _ _ hs
    · have h1 := hP.warm _ h (hP.restartReply s p (State.asked_cur hp).1 (State.asked_cur hp).2 hs)
      exact forEach_inv P _ (fun _ _ ht => hP.lamp ht) _ _ h1

end ops

/-! ### Every command -/

theorem live_next {s t u : State} (h : s.live t = .next u) : u = if s.pins.resetHeld then s else t := by
  unfold State.live at h
  cases h
  rfl

/-- A property closed under what a command can do holds after the command where it held before. -/
theorem exec_closed {c : Instr} {P : State → Prop} (hP : ClosedExec c P) {s t : State} (h : exec c s = .next t) (hs : P s) :
    P t := by
  have live : ∀ {u : State}, s.live u = .next t → P u → P t := by
    intro u hu hu'
    rw [live_next hu]
    exact ite_both hs hu'
  cases c with
  | coldReset straps => cases h; exact hP.cold s straps rfl hs
  | tfbPinChange v =>
    have h1 := hP.tfb s v hs
    rw [live_next h]
    exact ite_both h1 (hP.takePin h1)
  | ringFrameReceive f => exact live h (hP.receive (hP.standdown rfl) hs)
  | sampleFrame d r p => exact live h (hP.receive_other (fun e => absurd e (by decide : kindSample ≠ kindBaystat)) hs)
  | baystatFrame d r p => exact live h (hP.receive (hP.standdown rfl) hs)
  | mgmtReqFrame d r p => exact live h (hP.receive_other (fun e => absurd e (by decide : kindRequest ≠ kindBaystat)) hs)
  | outTake => exact live h (hP.takeOut hs)
  | requestStart => exact live h (hP.start s hs)
  | captureBlockPlace => exact live h (hP.placeBlock hs)
  | sourceSilenceExpiry e => exact live h (ite_both (hP.sourceSilent hs) hs)
  | baystatSilenceExpiry n => exact live h (ite_both (hP.baystatSilent hs) hs)
  | commandTimeout n =>
    refine live h ?_
    split
    · exact hP.commandTimedOut (hP.standdown rfl) hs
    · exact hs
  | deadTimerExpiry b => exact live h (ite_both (hP.deadEnded hs) hs)
  | springWaitExpiry b => exact live h (ite_both (hP.lock hs) hs)
  | reclaimExpiry b => exact live h (ite_both (hP.reclaimEnded hs) hs)
  | huntStartDelayExpiry => exact live h (ite_both (hP.startHuntNow hs) hs)
  | dwellExpiry => exact live h (ite_both (hP.dwellEnded hs) hs)
  | retestDelayExpiry => exact live h (ite_both (hP.retestDelayEnded hs) hs)
  | retestDwellExpiry => exact live h (ite_both (hP.retestDwellEnded hs) hs)
  | inSilenceExpiry => exact live h (ite_both (hP.inSilent hs) hs)
  | badOp w => exact live h (hP.runOp (fun _ _ ht => ht) hs)
  | bayContext imm => exact live h (hP.runImm hP.opContext hs)
  | widen t imm => exact live h (hP.runOp (hP.opWiden t imm) hs)
  | write t imm => exact live h (hP.runImm (hP.opWrite t (fun _ => rfl)) hs)
  | writeSource a imm => exact live h (hP.runImm (fun _ _ _ ht => hP.writeTable1 rfl ht) hs)
  | writeGroup a imm => exact live h (hP.runImm (fun _ _ _ ht => hP.writeTable3 rfl ht) hs)
  | writeCurve hd a imm =>
    refine live h (hP.runImm (fun _ _ _ ht => hP.writeCurves ?_ ht) hs)
    cases hd
    · exact .inl rfl
    · exact .inr rfl
  | writeCapability a imm => exact live h (hP.runImm (fun _ _ _ ht => hP.writeTable2 rfl ht) hs)
  | writeFireMap a imm => exact live h (hP.runImm (fun _ _ _ ht => hP.writeTable8 rfl ht) hs)
  | writeHuntTable a imm => exact live h (hP.runImm (fun _ _ _ ht => hP.writeTable10 rfl ht) hs)
  | writeSegment a imm => exact live h (hP.runImm (fun _ _ _ ht => hP.writeTable12 rfl ht) hs)
  | writeCaptureConfig a imm => exact live h (hP.runImm (fun _ _ _ ht => hP.writeTable13 rfl ht) hs)
  | writeEventConfig a imm => exact live h (hP.runImm (fun _ _ _ ht => hP.writeTable15 rfl ht) hs)
  | read t => exact live h (hP.runOp (opRead_closed t) hs)
  | readStatus imm => exact live h (hP.runImm opReadStatus_closed hs)
  | readRecords imm => exact live h (hP.runImm opReadRecords_closed hs)
  | readCapture imm => exact live h (hP.runImm hP.opReadCapture hs)
  | selectBaseGroup imm => exact live h (hP.runImm hP.opSelectBase hs)
  | pushManual imm => exact live h (hP.runImm hP.opPushManual hs)
  | popManual => exact live h (hP.runOp hP.opPopManual hs)
  | setFireLevel imm => exact live h (hP.runImm hP.opSetLevel hs)
  | seasonLock => exact live h (hP.runOp (hP.opLock rfl) hs)
  | seasonUnlock => exact live h (hP.runOp (hP.opUnlock rfl) hs)
  | bayOpen => exact live h (hP.runOp hP.opBayOpen hs)
  | bayClose => exact live h (hP.runOp hP.opBayClose hs)
  | bayIndicate imm => exact live h (hP.runImm hP.opBayIndicate hs)
  | bayInterlock imm => exact live h (hP.runImm hP.opBayInterlock hs)
  | blockRange imm => exact live h (hP.runImm hP.opBlock hs)
  | unblockRange imm => exact live h (hP.runImm hP.opUnblock hs)
  | resetLockout => exact live h (hP.runOp hP.opResetLockout hs)
  | ackBreakerFail => exact live h (hP.runOp hP.opAck hs)
  | clearStanddown => exact live h (hP.runOp (hP.opClearStanddown rfl) hs)
  | startHunt => exact live h (hP.runOp hP.opStartHunt hs)
  | abortHunt => exact live h (hP.runOp hP.opAbortHunt hs)
  | armCapture imm => exact live h (hP.runImm hP.opArm hs)
  | disarmCapture imm => exact live h (hP.runImm hP.opDisarm hs)
  | clearEvents imm => exact live h (hP.runImm hP.opClearEvents hs)
  | setThreshold imm => exact live h (hP.runImm (hP.opThreshold ⟨imm, rfl⟩) hs)
  | setTime imm => exact live h (hP.runImm (fun _ _ t ht => hP.offset t _ ⟨imm, rfl⟩ ht) hs)
  | setReportDest imm => exact live h (hP.runImm (hP.opReportDest ⟨imm, rfl⟩) hs)
  | setBackupAddr imm => exact live h (hP.runImm (fun _ _ _ ht => hP.judgeCapability (.inr ⟨imm, rfl⟩) ht) hs)
  | commission => exact live h (hP.runOp (hP.opCommission rfl) hs)
  | decommission => exact live h (hP.runOp (hP.opDecommission rfl) hs)
  | restart => exact live h (hP.restartOp rfl hs)
  | resetPinAsserted => cases h; exact hP.hold s rfl hs

end Sys2Proof.Machine
end

