-- ==== Sys2Proof/Laws/ClosedStep.lean ====
section
/-! SUPPORT. A step keeps every property that is closed under what its command, or a millisecond, can do. -/

namespace Sys2Proof.Machine

open Sys2Proof.Safety

/-- What the part does of itself when no command waits. -/
theorem idle_closed {P : State → Prop} (hp : ∀ (s : State) l, P s → P { s with pending := l })
    (ht : ∀ s : State, P s → P s.tick) {s : State} (hs : P s) : P s.idle := by
  unfold State.idle State.enqueue
  split
  · exact hs
  · split
    · exact hp s _ hs
    · split
      · exact hp s _ hs
      · split
        · exact hp s _ hs
        · exact hp _ _ (ht s hs)

/-- A property closed under the command at the front of the queue, and under a millisecond, is kept by a step. -/
theorem step_closed {P : State → Prop} (hp : ∀ (s : State) l, P s → P { s with pending := l })
    (ht : ∀ s : State, P s → P s.tick) {s t : State}
    (hc : ∀ c rest, s.pending = c :: rest → ClosedExec c P) (h : step s = .next t) (hs : P s) : P t := by
  unfold step at h
  split at h
  · next c rest hq => exact exec_closed (hc c rest hq) h (hp s rest hs)
  · cases h
    exact idle_closed hp ht hs

/-- Steps of the derivation of the FIRE reasons (R101). -/
theorem ClosedS.deriveFire {P : State → Prop} (hP : ClosedS P) (hf : ∀ (s : State) b v, P s → P (s.putReason b .fire v))
    {s : State} (hs : P s) : P s.deriveFire.1 := by
  unfold State.deriveFire
  have : ∀ (l : List Bay) (p : State × BitVec 8), P p.1 → P (l.foldl deriveBay p).1 := by
    intro l
    induction l with
    | nil => exact fun _ h => h
    | cons b l ih =>
      intro p h
      rw [List.foldl_cons]
      refine ih _ ?_
      unfold deriveBay
      dsimp only
      split
      · exact hP.addReason (hf _ _ _ h) h
      · split
        · exact removeReason_closed (hf _ _ _ h) h
        · exact h
  exact this _ _ hs

theorem ClosedS.decommissionBay {P : State → Prop} (hP : ClosedS P)
    (hf : ∀ (s : State) b r v, P s → P (s.putReason b r v)) {s : State} {b : Bay} (hs : P s) : P (s.decommissionBay b) := by
  unfold State.decommissionBay
  dsimp only
  have h1 : P _ := hP.startIdle (b := b) (hP.setPend (n := bayRec b) (c := .reclose) (v := none) (.inr rfl) hs)
  exact hf _ _ _ _ (hf _ _ _ _ (hf _ _ _ _ (ite_both (hP.lamp h1) h1)))

end Sys2Proof.Machine
end

