-- ==== Sys2Proof/Laws/Frames.lean ====
section
/-! SUPPORT. The frames of the operations, group of blocks by group of blocks.  A mask blanks what a group of blocks changes: an
operation of the slots and the reclose controller keeps maskS, one of the hunt controller maskH, one of the bay control
unit maskB, and one of the measurement and the protection maskM.  Each frame is closed under the updates of its group, so
every operation of the group has it. -/

namespace Sys2Proof.Machine

/-- A reclose record but for its block set. -/
def RecloseRecord.blocks (r : RecloseRecord) : RecloseRecord := { RecloseRecord.cold with block := r.block }

/-- A block set but for the HUNT reason. -/
def RecloseRecord.blocksH (r : RecloseRecord) : RecloseRecord := { r.blocks with block := { r.block with hunt := false } }

/-- A block set but for the HUNT, LOCAL and INTERLOCK reasons. -/
def RecloseRecord.blocksB (r : RecloseRecord) : RecloseRecord :=
  { r.blocks with block := { r.block with hunt := false, localMode := false, interlock := false } }

def Elements.unlatched (x : Elements) : Elements := { x with latch := none }

/-- What the slots and the reclose controller do not change: the whole of every table, the stack, the hunt, the bay status, the
block sets and the records but for their capture marks. -/
def State.maskS (s : State) : State :=
  let m := s.maskE
  { m with bcu := { m.bcu with slots := Bcu.cold.slots }, riu := { m.riu with outPlaces := (Riu.cold 0).outPlaces },
           rcc := m.rcc.each RecloseRecord.blocks }

/-- What the hunt controller does not change either: all that maskS keeps but for the hunt context, the stack, the record ring
and the HUNT reasons. -/
def State.maskH (s : State) : State :=
  let m := s.maskS
  { m with hnc := { Hnc.cold with table := m.hnc.table }, fru := { m.fru with stack := [] },
           recd := { m.recd with ring := Recorder.cold.ring, top := 0, count := 0, nextSeq := 0 },
           rcc := m.rcc.each RecloseRecord.blocksH }

/-- What the bay control unit does not change either: all that maskH keeps but for the bay status, the backup flag, the part
state, the trip latches, and the LOCAL and INTERLOCK reasons. -/
def State.maskB (s : State) : State :=
  let m := s.maskH
  { m with bcu := { m.bcu with status := Bcu.cold.status, backupFlag := false }, mgu := { m.mgu with part := .bypass },
           pru := { m.pru with elem := m.pru.elem.each Elements.unlatched }, rcc := m.rcc.each RecloseRecord.blocksB }

/-- What the measurement and the protection do not change either: the tables, the fire levels and the season lock, the
requests, the queues of the ring, the pins, the count, the waiting commands, and the FIRE, MANUAL and CAPABILITY
reasons. -/
def State.maskM (s : State) : State :=
  let m := s.maskB
  { m with meu := { Meu.cold with table := m.meu.table }, pru := { m.pru with elem := Pru.cold.elem }, efu := Efu.cold,
           recd := { m.recd with latest := Recorder.cold.latest } }

theorem State.maskS_of_maskE {s t : State} (h : t.maskE = s.maskE) : t.maskS = s.maskS := by
  unfold State.maskS; rw [h]

theorem State.maskH_of_maskS {s t : State} (h : t.maskS = s.maskS) : t.maskH = s.maskH := by
  unfold State.maskH; rw [h]

theorem State.maskB_of_maskH {s t : State} (h : t.maskH = s.maskH) : t.maskB = s.maskB := by
  unfold State.maskB; rw [h]

theorem State.maskM_of_maskB {s t : State} (h : t.maskB = s.maskB) : t.maskM = s.maskM := by
  unfold State.maskM; rw [h]

/-! ### What two states with the same mask share -/

section sameM
variable {s t : State} (h : t.maskM = s.maskM)
include h

theorem State.maskM_meu_table : t.meu.table = s.meu.table := by
  have := congrArg (fun u => u.meu.table) h; exact this
theorem State.maskM_pru_groups : t.pru.groups = s.pru.groups := by
  have := congrArg (fun u => u.pru.groups) h; exact this
theorem State.maskM_pru_curves : t.pru.curves = s.pru.curves := by
  have := congrArg (fun u => u.pru.curves) h; exact this
theorem State.maskM_bcu_cap : t.bcu.cap = s.bcu.cap := by
  have := congrArg (fun u => u.bcu.cap) h; exact this
theorem State.maskM_fru_commanded : t.fru.commanded = s.fru.commanded := by
  have := congrArg (fun u => u.fru.commanded) h; exact this
theorem State.maskM_fru_pinLevel : t.fru.pinLevel = s.fru.pinLevel := by
  have := congrArg (fun u => u.fru.pinLevel) h; exact this
theorem State.maskM_fru_effective : t.fru.effective = s.fru.effective := by
  have := congrArg (fun u => u.fru.effective) h; exact this
theorem State.maskM_fru_fireMap : t.fru.fireMap = s.fru.fireMap := by
  have := congrArg (fun u => u.fru.fireMap) h; exact this
theorem State.maskM_fru_seasonLock : t.fru.seasonLock = s.fru.seasonLock := by
  have := congrArg (fun u => u.fru.seasonLock) h; exact this
theorem State.maskM_hnc_table : t.hnc.table = s.hnc.table := by
  have := congrArg (fun u => u.hnc.table) h; exact this
theorem State.maskM_mgu_queue : t.mgu.queue = s.mgu.queue := by
  have := congrArg (fun u => u.mgu.queue) h; exact this
theorem State.maskM_mgu_cur : t.mgu.cur = s.mgu.cur := by
  have := congrArg (fun u => u.mgu.cur) h; exact this
theorem State.maskM_mgu_offset : t.mgu.offset = s.mgu.offset := by
  have := congrArg (fun u => u.mgu.offset) h; exact this
theorem State.maskM_riu_own : t.riu.own = s.riu.own := by
  have := congrArg (fun u => u.riu.own) h; exact this
theorem State.maskM_riu_inUp : t.riu.inUp = s.riu.inUp := by
  have := congrArg (fun u => u.riu.inUp) h; exact this
theorem State.maskM_riu_inTimer : t.riu.inTimer = s.riu.inTimer := by
  have := congrArg (fun u => u.riu.inTimer) h; exact this
theorem State.maskM_riu_checkFail : t.riu.checkFail = s.riu.checkFail := by
  have := congrArg (fun u => u.riu.checkFail) h; exact this
theorem State.maskM_riu_overrun : t.riu.overrun = s.riu.overrun := by
  have := congrArg (fun u => u.riu.overrun) h; exact this
theorem State.maskM_riu_fwd : t.riu.fwd = s.riu.fwd := by
  have := congrArg (fun u => u.riu.fwd) h; exact this
theorem State.maskM_riu_replies : t.riu.replies = s.riu.replies := by
  have := congrArg (fun u => u.riu.replies) h; exact this
theorem State.maskM_riu_capQueue : t.riu.capQueue = s.riu.capQueue := by
  have := congrArg (fun u => u.riu.capQueue) h; exact this
theorem State.maskM_riu_lastIn : t.riu.lastIn = s.riu.lastIn := by
  have := congrArg (fun u => u.riu.lastIn) h; exact this
theorem State.maskM_riu_sending : t.riu.sending = s.riu.sending := by
  have := congrArg (fun u => u.riu.sending) h; exact this
theorem State.maskM_pins : t.pins = s.pins := by
  have := congrArg (fun u => u.pins) h; exact this
theorem State.maskM_mono : t.mono = s.mono := by
  have := congrArg (fun u => u.mono) h; exact this
theorem State.maskM_pending : t.pending = s.pending := by
  have := congrArg (fun u => u.pending) h; exact this
theorem State.maskM_recd_segments : t.recd.segments = s.recd.segments := by
  have := congrArg (fun u => u.recd.segments) h; exact this
theorem State.maskM_recd_readouts : t.recd.readouts = s.recd.readouts := by
  have := congrArg (fun u => u.recd.readouts) h; exact this
theorem State.maskM_evu_threshold : t.evu.threshold = s.evu.threshold := by
  have := congrArg (fun u => u.evu.threshold) h; exact this
theorem State.maskM_evu_dest : t.evu.dest = s.evu.dest := by
  have := congrArg (fun u => u.evu.dest) h; exact this
theorem State.maskM_fire_reason : ∀ b, (t.rcl b).block.fire = (s.rcl b).block.fire := by
  intro b
  have := congrArg (fun u => (u.rcc.look b).block.fire) h
  simpa [State.maskM, State.maskB, State.maskH, State.maskS, State.maskE, State.rcl, RecloseRecord.blocks,
    RecloseRecord.blocksH, RecloseRecord.blocksB] using this
theorem State.maskM_manual_reason : ∀ b, (t.rcl b).block.manual = (s.rcl b).block.manual := by
  intro b
  have := congrArg (fun u => (u.rcc.look b).block.manual) h
  simpa [State.maskM, State.maskB, State.maskH, State.maskS, State.maskE, State.rcl, RecloseRecord.blocks,
    RecloseRecord.blocksH, RecloseRecord.blocksB] using this
theorem State.maskM_capability_reason : ∀ b, (t.rcl b).block.capability = (s.rcl b).block.capability := by
  intro b
  have := congrArg (fun u => (u.rcc.look b).block.capability) h
  simpa [State.maskM, State.maskB, State.maskH, State.maskS, State.maskE, State.rcl, RecloseRecord.blocks,
    RecloseRecord.blocksH, RecloseRecord.blocksB] using this
theorem State.maskM_fac : ∀ f, (t.fac f).conf = (s.fac f).conf := by
  intro f
  have := congrArg (fun u => u.evu.factors.look f) h
  simpa [State.maskM, State.maskB, State.maskH, State.maskS, State.maskE, State.fac] using this
theorem State.maskM_chan : ∀ k, (t.chan k).conf = (s.chan k).conf := by
  intro k
  have := congrArg (fun u => u.recd.chans.look k) h
  simpa [State.maskM, State.maskB, State.maskH, State.maskS, State.maskE, State.chan] using this

end sameM

section sameB
variable {s t : State} (h : t.maskB = s.maskB)
include h

theorem State.maskB_meu : t.meu = s.meu := by
  have := congrArg (fun u => u.meu) h; exact this
theorem State.maskB_efu : t.efu = s.efu := by
  have := congrArg (fun u => u.efu) h; exact this
theorem State.maskB_recd_latest : t.recd.latest = s.recd.latest := by
  have := congrArg (fun u => u.recd.latest) h; exact this
theorem State.maskB_elem : ∀ b, (t.elem b).unlatched = (s.elem b).unlatched := by
  intro b
  have := congrArg (fun u => u.pru.elem.look b) h
  simpa [State.maskB, State.maskH, State.maskS, State.maskE, State.elem] using this

end sameB

section sameH
variable {s t : State} (h : t.maskH = s.maskH)
include h

theorem State.maskH_pru : t.pru = s.pru := by
  have := congrArg (fun u => u.pru) h; exact this
theorem State.maskH_bcu_status : t.bcu.status = s.bcu.status := by
  have := congrArg (fun u => u.bcu.status) h; exact this
theorem State.maskH_bcu_backupFlag : t.bcu.backupFlag = s.bcu.backupFlag := by
  have := congrArg (fun u => u.bcu.backupFlag) h; exact this
theorem State.maskH_mgu : t.mgu = s.mgu := by
  have := congrArg (fun u => u.mgu) h; exact this
theorem State.maskH_localMode_reason : ∀ b, (t.rcl b).block.localMode = (s.rcl b).block.localMode := by
  intro b
  have := congrArg (fun u => (u.rcc.look b).block.localMode) h
  simpa [State.maskM, State.maskB, State.maskH, State.maskS, State.maskE, State.rcl, RecloseRecord.blocks,
    RecloseRecord.blocksH, RecloseRecord.blocksB] using this
theorem State.maskH_interlock_reason : ∀ b, (t.rcl b).block.interlock = (s.rcl b).block.interlock := by
  intro b
  have := congrArg (fun u => (u.rcc.look b).block.interlock) h
  simpa [State.maskM, State.maskB, State.maskH, State.maskS, State.maskE, State.rcl, RecloseRecord.blocks,
    RecloseRecord.blocksH, RecloseRecord.blocksB] using this

end sameH

section sameS
variable {s t : State} (h : t.maskS = s.maskS)
include h

theorem State.maskS_fru : t.fru = s.fru := by
  have := congrArg (fun u => u.fru) h; exact this
theorem State.maskS_hnc : t.hnc = s.hnc := by
  have := congrArg (fun u => u.hnc) h; exact this
theorem State.maskS_recd_top : t.recd.top = s.recd.top := by
  have := congrArg (fun u => u.recd.top) h; exact this
theorem State.maskS_recd_count : t.recd.count = s.recd.count := by
  have := congrArg (fun u => u.recd.count) h; exact this
theorem State.maskS_recd_nextSeq : t.recd.nextSeq = s.recd.nextSeq := by
  have := congrArg (fun u => u.recd.nextSeq) h; exact this
theorem State.maskS_block : ∀ b, (t.rcl b).block = (s.rcl b).block := by
  intro b
  have := congrArg (fun u => (u.rcc.look b).block) h
  simpa [State.maskS, State.maskE, State.rcl, RecloseRecord.blocks] using this

end sameS

/-! ### The updates of each group keep its mask -/

theorem State.setRcl_maskS (s : State) (b : Bay) (x : RecloseRecord) (h : x.block = (s.rcl b).block) :
    (s.setRcl b x).maskS = s.maskS := by
  have : (s.rcc.put b x).each RecloseRecord.blocks = s.rcc.each RecloseRecord.blocks :=
    Vector.each_put_of_eq _ _ _ _ (by unfold RecloseRecord.blocks; rw [h]; rfl)
  unfold State.maskS State.maskE State.setRcl
  dsimp only
  rw [this]

theorem State.setRcl_maskH (s : State) (b : Bay) (x : RecloseRecord) (h : x.blocksH = (s.rcl b).blocksH) :
    (s.setRcl b x).maskH = s.maskH := by
  have : ((s.rcc.put b x).each RecloseRecord.blocks).each RecloseRecord.blocksH
      = (s.rcc.each RecloseRecord.blocks).each RecloseRecord.blocksH := by
    apply Vector.ext_look
    intro j
    simp only [Vector.look_each, Vector.look_put]
    split
    · next e => subst e; exact h
    · rfl
  unfold State.maskH State.maskS State.maskE State.setRcl
  dsimp only
  rw [this]

theorem State.setRcl_maskB (s : State) (b : Bay) (x : RecloseRecord) (h : x.blocksB = (s.rcl b).blocksB) :
    (s.setRcl b x).maskB = s.maskB := by
  have : (((s.rcc.put b x).each RecloseRecord.blocks).each RecloseRecord.blocksH).each RecloseRecord.blocksB
      = ((s.rcc.each RecloseRecord.blocks).each RecloseRecord.blocksH).each RecloseRecord.blocksB := by
    apply Vector.ext_look
    intro j
    simp only [Vector.look_each, Vector.look_put]
    split
    · next e => subst e; exact h
    · rfl
  unfold State.maskB State.maskH State.maskS State.maskE State.setRcl
  dsimp only
  rw [this]

theorem State.latch_maskB (s : State) (b : Bay) (l : Option TripCause) :
    (s.setElem b { s.elem b with latch := l }).maskB = s.maskB := by
  have : (s.pru.elem.put b { s.elem b with latch := l }).each Elements.unlatched = s.pru.elem.each Elements.unlatched :=
    Vector.each_put_of_eq _ _ _ _ rfl
  unfold State.maskB State.maskH State.maskS State.maskE State.setElem
  dsimp only
  rw [this]

theorem State.putHunt_maskH (s : State) (b : Bay) (v : Bool) : (s.putReason b .hunt v).maskH = s.maskH :=
  s.setRcl_maskH b _ rfl

theorem State.putLocal_maskB (s : State) (b : Bay) (v : Bool) : (s.putReason b .localMode v).maskB = s.maskB :=
  s.setRcl_maskB b _ rfl

theorem State.putInterlock_maskB (s : State) (b : Bay) (v : Bool) : (s.putReason b .interlock v).maskB = s.maskB :=
  s.setRcl_maskB b _ rfl

theorem State.setHnc_maskH (s : State) (x : Hnc) (h : x.table = s.hnc.table) : (s.setHnc x).maskH = s.maskH := by
  unfold State.maskH State.maskS State.maskE State.setHnc
  dsimp only
  rw [h]

/-- The frame of the slots and the reclose controller. -/
theorem closedS_mask (s₀ : State) : ClosedS (fun t => t.maskS = s₀.maskS) where
  blind := fun _ _ h hs => (State.maskS_of_maskE h).trans hs
  slot := fun _ _ _ _ hs => hs
  issue := fun _ _ _ _ _ _ hs => hs
  out := fun _ _ _ hs => hs
  rcl := fun s b x m hs => (s.setRcl_maskS b x m.block).trans hs

/-- The frame of the hunt controller. -/
theorem closedH_mask (s₀ : State) : ClosedH (fun t => t.maskH = s₀.maskH) where
  blind := fun _ _ h hs => (State.maskH_of_maskS (State.maskS_of_maskE h)).trans hs
  slot := fun _ _ _ _ hs => hs
  issue := fun _ _ _ _ _ _ hs => hs
  out := fun _ _ _ hs => hs
  rcl := fun s b x m hs => (State.maskH_of_maskS (s.setRcl_maskS b x m.block)).trans hs
  unstack := fun _ hs => hs
  stack := fun _ _ hs => hs
  hunt := fun s b v hs => (s.putHunt_maskH b v).trans hs
  hnc := fun s x h hs => (s.setHnc_maskH x h).trans hs
  record := fun _ _ hs => hs

/-- The frame of the bay control unit. -/
theorem closedB_mask (s₀ : State) : ClosedB (fun t => t.maskB = s₀.maskB) where
  blind := fun _ _ h hs => (State.maskB_of_maskH (State.maskH_of_maskS (State.maskS_of_maskE h))).trans hs
  slot := fun _ _ _ _ hs => hs
  issue := fun _ _ _ _ _ _ hs => hs
  out := fun _ _ _ hs => hs
  rcl := fun s b x m hs => (State.maskB_of_maskH (State.maskH_of_maskS (s.setRcl_maskS b x m.block))).trans hs
  unstack := fun _ hs => hs
  stack := fun _ _ hs => hs
  hunt := fun s b v hs => (State.maskB_of_maskH (s.putHunt_maskH b v)).trans hs
  hnc := fun s x h hs => (State.maskB_of_maskH (s.setHnc_maskH x h)).trans hs
  record := fun _ _ hs => hs
  status := fun _ _ _ hs => hs
  local_ := fun s b v hs => (s.putLocal_maskB b v).trans hs
  interlock := fun s b v hs => (s.putInterlock_maskB b v).trans hs
  latch := fun s b l hs => (s.latch_maskB b l).trans hs
  backup := fun _ hs => hs

theorem standdown_maskB (s₀ : State) : KeepsStanddown (fun t => t.maskB = s₀.maskB) := fun _ _ hs => hs

/-- The frame of the measurement and the protection. -/
theorem closedM_mask (s₀ : State) : ClosedM (fun t => t.maskM = s₀.maskM) where
  blind := fun _ _ h hs => (State.maskM_of_maskB (State.maskB_of_maskH (State.maskH_of_maskS (State.maskS_of_maskE h)))).trans hs
  slot := fun _ _ _ _ hs => hs
  issue := fun _ _ _ _ _ _ hs => hs
  out := fun _ _ _ hs => hs
  rcl := fun s b x m hs => (State.maskM_of_maskB (State.maskB_of_maskH (State.maskH_of_maskS (s.setRcl_maskS b x m.block)))).trans hs
  unstack := fun _ hs => hs
  stack := fun _ _ hs => hs
  hunt := fun s b v hs => (State.maskM_of_maskB (State.maskB_of_maskH (s.putHunt_maskH b v))).trans hs
  hnc := fun s x h hs => (State.maskM_of_maskB (State.maskB_of_maskH (s.setHnc_maskH x h))).trans hs
  record := fun _ _ hs => hs
  status := fun _ _ _ hs => hs
  local_ := fun s b v hs => (State.maskM_of_maskB (s.putLocal_maskB b v)).trans hs
  interlock := fun s b v hs => (State.maskM_of_maskB (s.putInterlock_maskB b v)).trans hs
  latch := fun s b l hs => (State.maskM_of_maskB (s.latch_maskB b l)).trans hs
  backup := fun _ hs => hs
  elem := fun _ _ _ _ hs => hs
  efu := fun _ _ hs => hs
  latest := fun _ _ hs => hs
  bus := fun _ _ hs => hs
  ctx := fun _ _ _ _ hs => hs
  history := fun _ _ _ _ hs => hs
  waiting := fun _ _ _ _ hs => hs

theorem standdown_maskM (s₀ : State) : KeepsStanddown (fun t => t.maskM = s₀.maskM) := fun _ _ hs => hs

/-! ### The frames of the shared operations -/

section frames
variable (s : State)

@[simp] theorem State.issueNext_maskS (n : Rec) : (s.issueNext n).maskS = s.maskS :=
  (closedS_mask s).issueNext rfl

@[simp] theorem State.lamp_maskS (n : Rec) (a : LampArg) : (s.lamp n a).maskS = s.maskS :=
  (closedS_mask s).lamp rfl

@[simp] theorem State.lock_maskS (b : Bay) (c : LockoutCause) : (s.lock b c).maskS = s.maskS :=
  (closedS_mask s).lock rfl

@[simp] theorem State.requestReclose_maskS (b : Bay) : (s.requestReclose b).maskS = s.maskS :=
  (closedS_mask s).requestReclose rfl

@[simp] theorem State.rejudgeWaiting_maskS : (s.rejudgeWaiting).maskS = s.maskS :=
  (closedS_mask s).rejudgeWaiting rfl

@[simp] theorem State.protectionOpening_maskS (b : Bay) (c : TripCause) : (s.protectionOpening b c).maskS = s.maskS :=
  (closedS_mask s).protectionOpening rfl

@[simp] theorem State.deadEnded_maskS (b : Bay) : (s.deadEnded b).maskS = s.maskS :=
  (closedS_mask s).deadEnded rfl

@[simp] theorem State.springCharged_maskS (b : Bay) : (s.springCharged b).maskS = s.maskS :=
  (closedS_mask s).springCharged rfl

@[simp] theorem State.rccTold_maskS (b : Bay) (o : Told) : (s.rccTold b o).maskS = s.maskS :=
  (closedS_mask s).rccTold rfl

@[simp] theorem State.reclaimEnded_maskS (b : Bay) : (s.reclaimEnded b).maskS = s.maskS :=
  (closedS_mask s).reclaimEnded rfl

@[simp] theorem State.rccPosition_maskS (b : Bay) (p : Position) : (s.rccPosition b p).maskS = s.maskS :=
  (closedS_mask s).rccPosition rfl

@[simp] theorem State.startIdle_maskS (b : Bay) : (s.startIdle b).maskS = s.maskS :=
  (closedS_mask s).startIdle rfl

@[simp] theorem State.endHunt_maskH (r : HuntResult) (b u : Option Bay) (w : LockedBy) : (s.endHunt r b u w).maskH = s.maskH :=
  (closedH_mask s).endHunt rfl

@[simp] theorem State.selectNext_maskH : (s.selectNext).maskH = s.maskH :=
  (closedH_mask s).selectNext rfl

@[simp] theorem State.hncTold_maskH (n : Rec) (c : Command) (o : HuntTold) (f : Bool) : (s.hncTold n c o f).maskH = s.maskH :=
  (closedH_mask s).hncTold rfl

@[simp] theorem State.abortRunning_maskH (r : HuntResult) : (s.abortRunning r).maskH = s.maskH :=
  (closedH_mask s).abortRunning rfl

@[simp] theorem State.hncStanddown_maskH : (s.hncStanddown).maskH = s.maskH :=
  (closedH_mask s).hncStanddown rfl

@[simp] theorem State.hncNvd_maskH (a b : NvdState) : (s.hncNvd a b).maskH = s.maskH :=
  (closedH_mask s).hncNvd rfl

@[simp] theorem State.hncPosition_maskH (b : Bay) (p : Position) : (s.hncPosition b p).maskH = s.maskH :=
  (closedH_mask s).hncPosition rfl

@[simp] theorem State.hncLevel_maskH : (s.hncLevel).maskH = s.maskH :=
  (closedH_mask s).hncLevel rfl

@[simp] theorem State.startHuntNow_maskH (w : HuntHow) : (s.startHuntNow w).maskH = s.maskH :=
  (closedH_mask s).startHuntNow rfl

@[simp] theorem State.dwellEnded_maskH : (s.dwellEnded).maskH = s.maskH :=
  (closedH_mask s).dwellEnded rfl

@[simp] theorem State.retestDelayEnded_maskH : (s.retestDelayEnded).maskH = s.maskH :=
  (closedH_mask s).retestDelayEnded rfl

@[simp] theorem State.retestDwellEnded_maskH : (s.retestDwellEnded).maskH = s.maskH :=
  (closedH_mask s).retestDwellEnded rfl

@[simp] theorem State.enterStanddown_maskB (c : StanddownCause) (n : Rec) : (s.enterStanddown c n).maskB = s.maskB :=
  (closedB_mask s).enterStanddown (standdown_maskB s) rfl

@[simp] theorem State.tripRequest_maskB (n : Rec) : (s.tripRequest n).maskB = s.maskB :=
  (closedB_mask s).tripRequest rfl

@[simp] theorem State.commandEnd_maskB (n : Rec) (f : Flight) (o : Told) : (s.commandEnd n f o).maskB = s.maskB :=
  (closedB_mask s).commandEnd (standdown_maskB s) rfl

@[simp] theorem State.storePosition_maskB (n : Rec) (p : Position) : (s.storePosition n p).maskB = s.maskB :=
  (closedB_mask s).storePosition rfl

@[simp] theorem State.storeSpring_maskB (n : Rec) (v : Bool) : (s.storeSpring n v).maskB = s.maskB :=
  (closedB_mask s).storeSpring rfl

@[simp] theorem State.judgePresence_maskB (n : Rec) : (s.judgePresence n).maskB = s.maskB :=
  (closedB_mask s).judgePresence rfl

@[simp] theorem State.storeInputs_maskB (n : Rec) (l i : Bool) : (s.storeInputs n l i).maskB = s.maskB :=
  (closedB_mask s).storeInputs rfl

@[simp] theorem State.applyBaystat_maskB (n : Rec) (m : Baystat) : (s.applyBaystat n m).maskB = s.maskB :=
  (closedB_mask s).applyBaystat (standdown_maskB s) rfl

@[simp] theorem State.bcuBaystat_maskB (r : Byte) (p : List Byte) : (s.bcuBaystat r p).maskB = s.maskB :=
  (closedB_mask s).bcuBaystat (standdown_maskB s) rfl

@[simp] theorem State.baystatSilent_maskB (n : Rec) : (s.baystatSilent n).maskB = s.maskB :=
  (closedB_mask s).baystatSilent rfl

@[simp] theorem State.protectionTrip_maskM (b : Bay) (c : TripCause) (o : Operated) (e : BayEval) (d : Direction) : (s.protectionTrip b c o e d).maskM = s.maskM :=
  (closedM_mask s).protectionTrip rfl

@[simp] theorem State.takeBayEval_maskM (b : Bay) (e : BayEval) : (s.takeBayEval b e).maskM = s.maskM :=
  (closedM_mask s).takeBayEval rfl

@[simp] theorem State.takeBusEval_maskM (e : BusEval) : (s.takeBusEval e).maskM = s.maskM :=
  (closedM_mask s).takeBusEval rfl

@[simp] theorem State.changeNvd_maskM (v : Nvd) : (s.changeNvd v).maskM = s.maskM :=
  (closedM_mask s).changeNvd rfl

@[simp] theorem State.leaveValid_maskM (r : Option Role) : (s.leaveValid r).maskM = s.maskM :=
  (closedM_mask s).leaveValid rfl

@[simp] theorem State.giveSample_maskM (e : SrcIx) (p : Pos) (g : Bool) (q : Quad) : (s.giveSample e p g q).maskM = s.maskM :=
  (closedM_mask s).giveSample rfl

@[simp] theorem State.meuSample_maskM (r : Byte) (p : List Byte) : (s.meuSample r p).maskM = s.maskM :=
  (closedM_mask s).meuSample rfl

@[simp] theorem State.sourceSilent_maskM (e : SrcIx) : (s.sourceSilent e).maskM = s.maskM :=
  (closedM_mask s).sourceSilent rfl

end frames

/-! ### The frames as the claims say them -/

section only
open Sys2Proof.Safety
variable {s t : State}

theorem onlyMeasures_of_mask (h : t.maskM = s.maskM) : OnlyMeasures s t where
  sources := State.maskM_meu_table h
  groups := State.maskM_pru_groups h
  curves := State.maskM_pru_curves h
  capabilities := State.maskM_bcu_cap h
  regime := by have := congrArg (fun u => { u.fru with stack := [] }) h
               exact congrArg (fun f : Fru => { f with stack := s.fru.stack }) this
  huntTable := State.maskM_hnc_table h
  requests := by have := congrArg (fun u => { u.mgu with part := .bypass }) h
                 exact congrArg (fun f : Mgu => { f with part := s.mgu.part }) this
  ring := by have := congrArg (fun u => { u.riu with outPlaces := (Riu.cold 0).outPlaces }) h
             exact congrArg (fun f : Riu => { f with outPlaces := s.riu.outPlaces }) this
  pins := State.maskM_pins h
  mono := State.maskM_mono h
  pending := State.maskM_pending h
  segments := State.maskM_recd_segments h
  readouts := State.maskM_recd_readouts h
  reports := ⟨State.maskM_evu_threshold h, State.maskM_evu_dest h⟩
  factors := fun f => by
    have := State.maskM_fac h f
    exact ⟨by have a := congrArg FactorRecord.enable this; exact a, by have a := congrArg FactorRecord.level this; exact a⟩
  channels := fun k => by
    have := State.maskM_chan h k
    exact ⟨by have a := congrArg Channel.trigger this; exact a, by have a := congrArg Channel.bay this; exact a, by have a := congrArg Channel.pre this; exact a,
      by have a := congrArg Channel.length this; exact a, by have a := congrArg Channel.reportAtEnd this; exact a⟩

theorem onlyControl_of_mask (h : t.maskB = s.maskB) : OnlyControl s t where
  toOnlyMeasures := onlyMeasures_of_mask (State.maskM_of_maskB h)
  meu := State.maskB_meu h
  efu := State.maskB_efu h
  latest := State.maskB_recd_latest h
  counts := State.maskB_elem h

theorem onlyHunt_of_mask (h : t.maskH = s.maskH) : OnlyHunt s t where
  toOnlyControl := onlyControl_of_mask (State.maskB_of_maskH h)
  pru := State.maskH_pru h
  status := State.maskH_bcu_status h
  backup := State.maskH_bcu_backupFlag h
  part := by rw [State.maskH_mgu h]

theorem onlySlots_of_mask (h : t.maskS = s.maskS) : OnlySlots s t where
  toOnlyHunt := onlyHunt_of_mask (State.maskH_of_maskS h)
  fru := State.maskS_fru h
  hnc := State.maskS_hnc h
  records := ⟨State.maskS_recd_top h, State.maskS_recd_count h, State.maskS_recd_nextSeq h⟩
  bare := fun i => by
    have := congrArg (fun u => u.recd.ring.look i) h
    simp only [State.maskS, State.maskE, Vector.look_each] at this
    exact this

theorem onlyEvents_of_mask (h : t.maskE = s.maskE) : OnlyEvents s t where
  toOnlySlots := onlySlots_of_mask (State.maskS_of_maskE h)
  bcu := State.maskE_bcu h
  rcc := State.maskE_rcc h
  riu := State.maskE_riu h

end only

end Sys2Proof.Machine
end

