-- ==== Sys2Proof/Laws/Local.lean ====
section
/-! SUPPORT. What acts at one slot leaves the slots, out-places and reclose records of the others as they were: the issue of requests,
an entry to LOCKOUT, the reclose controller's answers to its timers, and a gateway's request. -/

namespace Sys2Proof.Safety

open Sys2Proof.Machine

theorem OnlyAt.refl (n : Rec) (s : State) : OnlyAt n s s := ⟨fun _ _ => rfl, fun _ _ => rfl, fun _ _ => rfl⟩

theorem OnlyAt.trans {n : Rec} {s t u : State} (h : OnlyAt n s t) (k : OnlyAt n t u) : OnlyAt n s u :=
  ⟨fun j hj => (k.slots j hj).trans (h.slots j hj), fun j hj => (k.outPlaces j hj).trans (h.outPlaces j hj),
   fun b hb => (k.reclose b hb).trans (h.reclose b hb)⟩

end Sys2Proof.Safety

namespace Sys2Proof.Machine

open Sys2Proof.Safety

theorem onlyAt_of_blocks {n : Rec} {s t : State} (hb : t.bcu.slots = s.bcu.slots) (hr : t.rcc = s.rcc)
    (ho : t.riu.outPlaces = s.riu.outPlaces) : OnlyAt n s t :=
  ⟨fun k _ => by unfold State.slot; rw [hb], fun k _ => by rw [ho], fun b _ => by unfold State.rcl; rw [hr]⟩

theorem onlyAt_of_maskE {n : Rec} {s t : State} (h : t.maskE = s.maskE) : OnlyAt n s t :=
  onlyAt_of_blocks (by rw [State.maskE_bcu h]) (State.maskE_rcc h) (by rw [State.maskE_riu h])

theorem State.setSlot_at (s : State) (n : Rec) (x : Slot) : OnlyAt n s (s.setSlot n x) :=
  ⟨fun k hk => by simp [State.slot, State.setSlot, Vector.look_put, Ne.symm hk], fun _ _ => rfl, fun _ _ => rfl⟩

theorem State.setOutPlace_at (s : State) (n : Rec) (f : Option Frame) : OnlyAt n s (s.setOutPlace n f) :=
  ⟨fun _ _ => rfl, fun k hk => by simp [State.setOutPlace, Vector.look_put, Ne.symm hk], fun _ _ => rfl⟩

theorem State.setRcl_at (s : State) (b : Bay) (x : RecloseRecord) : OnlyAt (bayRec b) s (s.setRcl b x) :=
  ⟨fun _ _ => rfl, fun _ _ => rfl, fun c hc => by
    have : c ≠ b := fun h => hc (h ▸ rfl)
    simp [State.rcl, State.setRcl, Vector.look_put, Ne.symm this]⟩

theorem State.setPend_at (s : State) (n : Rec) (c : ReqClass) (v : Option Command) : OnlyAt n s (s.setPend n c v) :=
  s.setSlot_at n _

theorem State.setResult_at (s : State) (n : Rec) (r : LastResult) : OnlyAt n s (s.setResult n r) := s.setSlot_at n _

theorem State.occur_at (s : State) (n : Rec) (f : Factor) (m : BitVec 9) (d : List Byte) : OnlyAt n s (s.occur f m d) :=
  onlyAt_of_maskE (s.occur_maskE f m d)

theorem bayRec_of_recBay {n : Rec} {b : Bay} (h : recBay n = some b) : bayRec b = n := by
  unfold recBay index? at h
  split at h
  · cases h; rfl
  · cases h

theorem ite_at {n : Rec} {s t u : State} (c : Prop) [Decidable c] (h : OnlyAt n s t) (k : OnlyAt n s u) :
    OnlyAt n s (if c then t else u) := by split <;> assumption

theorem State.rccIssued_at (s : State) (b : Bay) : OnlyAt (bayRec b) s (s.rccIssued b) := by
  unfold State.rccIssued
  exact ite_at _ (s.setRcl_at b _) (OnlyAt.refl _ s)

theorem State.issueCmd_at (s : State) (n : Rec) (c : ReqClass) (cmd : Command) : OnlyAt n s (s.issueCmd n c cmd) := by
  unfold State.issueCmd
  dsimp only
  split
  · next b hb =>
    have := bayRec_of_recBay hb
    subst this
    exact ((s.setSlot_at _ _).trans (State.setOutPlace_at _ _ _)).trans (State.rccIssued_at _ b)
  · exact (s.setSlot_at n _).trans (State.setOutPlace_at _ n _)

theorem State.completeNoChange_at (s : State) (n : Rec) (c : ReqClass) (cmd : Command) :
    OnlyAt n s (s.completeNoChange n c cmd) := (s.setPend_at n _ _).trans (State.setResult_at _ n _)

theorem State.pendLamp_at (s : State) (n : Rec) (a : LampArg) : OnlyAt n s (s.pendLamp n a) := by
  unfold State.pendLamp
  exact ite_at _ (s.setPend_at n _ _) (OnlyAt.refl _ s)

theorem State.lockPend_at (s : State) (b : Bay) (c : LockoutCause) : OnlyAt (bayRec b) s (s.lockPend b c) := by
  unfold State.lockPend
  exact (((s.setPend_at _ _ _).trans (State.setRcl_at _ b _)).trans (State.occur_at _ _ _ _ _)).trans
    (State.pendLamp_at _ _ _)

theorem State.withdrawAtIssue_at (s : State) (n : Rec) (c : ReqClass) (cmd : Command) (code : ResultCode) :
    OnlyAt n s (s.withdrawAtIssue n c cmd code) := by
  unfold State.withdrawAtIssue
  have h := s.setPend_at n c none
  dsimp only
  split
  · next b hb =>
    have := bayRec_of_recBay hb
    subst this
    exact ite_at _ (OnlyAt.trans h (State.lockPend_at _ b _)) h
  · exact OnlyAt.trans h (State.setResult_at _ n _)
  · exact h

theorem State.issueFrom_at (cs : List ReqClass) (n : Rec) (s : State) : OnlyAt n s (State.issueFrom cs n s).1 := by
  induction cs generalizing s with
  | nil => exact OnlyAt.refl n s
  | cons c cs ih =>
    unfold State.issueFrom
    split
    · exact ih s
    · exact (s.completeNoChange_at n c _).trans (ih _)
    · split
      · exact (s.withdrawAtIssue_at n c _ _).trans (ih _)
      · exact s.issueCmd_at n c _

theorem State.issueNext_at (s : State) (n : Rec) : OnlyAt n s (s.issueNext n) := by
  unfold State.issueNext
  exact ite_at _ (State.issueFrom_at _ n s) (OnlyAt.refl n s)

theorem State.place_at {s t : State} {n : Rec} {c : ReqClass} {cmd : Command} (h : s.place n c cmd = .ok t) :
    OnlyAt n s t := by
  unfold State.place at h
  split at h
  · cases h
  · cases h
    rw [State.tellReplaced_eq]
    exact (s.setPend_at n c _).trans (State.issueNext_at _ n)

theorem State.lamp_at (s : State) (n : Rec) (a : LampArg) : OnlyAt n s (s.lamp n a) := by
  unfold State.lamp
  split
  · next h => exact State.place_at h
  · exact OnlyAt.refl n s

theorem State.lock_at (s : State) (b : Bay) (c : LockoutCause) : OnlyAt (bayRec b) s (s.lock b c) := by
  unfold State.lock
  exact ite_at _ ((s.lockPend_at b c).trans (State.issueNext_at _ _)) (OnlyAt.refl _ s)

theorem State.rccRefused_at (s : State) (b : Bay) (code : ResultCode) : OnlyAt (bayRec b) s (s.rccRefused b code) := by
  unfold State.rccRefused
  exact ite_at _ (s.lock_at b _) (OnlyAt.refl _ s)

theorem State.requestReclose_at (s : State) (b : Bay) : OnlyAt (bayRec b) s (s.requestReclose b) := by
  unfold State.requestReclose
  have h := s.setRcl_at b { s.rcl b with state := .closing .waiting, deadTimer := none, springTimer := none }
  dsimp only
  split
  · next hp => exact h.trans (State.place_at hp)
  · exact h.trans (State.rccRefused_at _ b _)

theorem State.deadEnded_at (s : State) (b : Bay) : OnlyAt (bayRec b) s (s.deadEnded b) := by
  unfold State.deadEnded
  have h := s.setRcl_at b { s.rcl b with deadTimer := none }
  dsimp only
  exact ite_at _ (h.trans (State.lock_at _ b _)) (ite_at _ (h.trans (State.lock_at _ b _))
    (ite_at _ (h.trans (State.setRcl_at _ b _)) (h.trans (State.requestReclose_at _ b))))

theorem State.reclaimEnded_at (s : State) (b : Bay) : OnlyAt (bayRec b) s (s.reclaimEnded b) := by
  unfold State.reclaimEnded
  exact ite_at _ (s.setRcl_at b _) (s.setRcl_at b _)

theorem State.rccBayOpen_at (s : State) (b : Bay) : OnlyAt (bayRec b) s (s.rccBayOpen b) := by
  unfold State.rccBayOpen
  dsimp only
  split
  · exact s.setRcl_at b _
  · exact (s.setPend_at _ _ _).trans (State.setRcl_at _ b _)
  · exact OnlyAt.refl _ s

end Sys2Proof.Machine
end

