-- ==== Sys2Proof/Laws/PerInstr.lean ====
section
/-! SUPPORT. The family OpWords, one lemma per command: the op word of a well-formed op decodes to that op (chapter 10,
Management frames).  A command that is no op of a request has no op word. -/

namespace Sys2Proof.Laws

open Sys2Proof.Machine

theorem opCode_opWordOf (c : Nat) (t imm : BitVec 12) : opCode (opWordOf c t imm) = c % 256 := by
  have : (opWordOf c t imm).extractLsb' 24 8 = byte c := by
    unfold opWordOf
    ext i hi
    rw [BitVec.getElem_extractLsb', BitVec.getLsbD_append, BitVec.getLsbD_append]
    simp [show ¬ (24 + i < 12) by omega, show ¬ (24 + i - 12 < 12) by omega, show 24 + i - 12 - 12 = i by omega, hi]
  unfold opCode
  rw [this]
  simp [byte]

theorem opTarget_opWordOf (c : Nat) (t imm : BitVec 12) : opTarget (opWordOf c t imm) = t := by
  unfold opTarget opWordOf
  ext i hi
  rw [BitVec.getElem_extractLsb', BitVec.getLsbD_append, BitVec.getLsbD_append]
  simp [show ¬ (12 + i < 12) by omega, hi]

theorem opImm_opWordOf (c : Nat) (t imm : BitVec 12) : opImm (opWordOf c t imm) = imm := by
  unfold opImm opWordOf
  ext i hi
  rw [BitVec.getElem_extractLsb', BitVec.getLsbD_append]
  simp [hi]

theorem targetTable_targetOf (k : Nat) (a : BitVec 8) : targetTable (targetOf k a) = k % 16 := by
  have : (targetOf k a).extractLsb' 8 4 = BitVec.ofNat 4 k := by
    unfold targetOf
    ext i hi
    rw [BitVec.getElem_extractLsb', BitVec.getLsbD_append]
    simp [show ¬ (8 + i < 8) by omega, hi]
  unfold targetTable
  rw [this]
  simp

theorem targetAddr_targetOf (k : Nat) (a : BitVec 8) : targetAddr (targetOf k a) = a := by
  unfold targetAddr targetOf
  ext i hi
  rw [BitVec.getElem_extractLsb', BitVec.getLsbD_append]
  simp [hi]

/-- A WRITE op word to an address that names a writable field of a table decodes as the write of that table. -/
theorem decodeOp_write (t imm : BitVec 12) : decodeOp (opWordOf 0x10 t imm) = decodeWrite t imm := by
  unfold decodeOp
  simp only [opCode_opWordOf, opTarget_opWordOf, opImm_opWordOf]

/-- The op word of a well-formed command decodes to the command. -/
def OpWords.Statement (i : Instr) : Prop := i.wellFormed = true → ∀ w, opWord i = some w → decodeOp w = i

theorem OpWords.coldReset (straps : BitVec 6) : OpWords.Statement (.coldReset straps) := by
  unfold OpWords.Statement
  intro _ w h
  exact nomatch (show (none : Option Word32) = some w from h)

theorem OpWords.tfbPinChange (asserted : Bool) : OpWords.Statement (.tfbPinChange asserted) := by
  unfold OpWords.Statement
  intro _ w h
  exact nomatch (show (none : Option Word32) = some w from h)

theorem OpWords.ringFrameReceive (f : Frame) : OpWords.Statement (.ringFrameReceive f) := by
  unfold OpWords.Statement
  intro _ w h
  exact nomatch (show (none : Option Word32) = some w from h)

theorem OpWords.sampleFrame (dest src : Byte) (payload : List Byte) : OpWords.Statement (.sampleFrame dest src payload) := by
  unfold OpWords.Statement
  intro _ w h
  exact nomatch (show (none : Option Word32) = some w from h)

theorem OpWords.baystatFrame (dest src : Byte) (payload : List Byte) : OpWords.Statement (.baystatFrame dest src payload) := by
  unfold OpWords.Statement
  intro _ w h
  exact nomatch (show (none : Option Word32) = some w from h)

theorem OpWords.mgmtReqFrame (dest src : Byte) (payload : List Byte) : OpWords.Statement (.mgmtReqFrame dest src payload) := by
  unfold OpWords.Statement
  intro _ w h
  exact nomatch (show (none : Option Word32) = some w from h)

theorem OpWords.outTake : OpWords.Statement (.outTake) := by
  unfold OpWords.Statement
  intro _ w h
  exact nomatch (show (none : Option Word32) = some w from h)

theorem OpWords.requestStart : OpWords.Statement (.requestStart) := by
  unfold OpWords.Statement
  intro _ w h
  exact nomatch (show (none : Option Word32) = some w from h)

theorem OpWords.captureBlockPlace : OpWords.Statement (.captureBlockPlace) := by
  unfold OpWords.Statement
  intro _ w h
  exact nomatch (show (none : Option Word32) = some w from h)

theorem OpWords.sourceSilenceExpiry (e : SrcIx) : OpWords.Statement (.sourceSilenceExpiry e) := by
  unfold OpWords.Statement
  intro _ w h
  exact nomatch (show (none : Option Word32) = some w from h)

theorem OpWords.baystatSilenceExpiry (n : Rec) : OpWords.Statement (.baystatSilenceExpiry n) := by
  unfold OpWords.Statement
  intro _ w h
  exact nomatch (show (none : Option Word32) = some w from h)

theorem OpWords.commandTimeout (n : Rec) : OpWords.Statement (.commandTimeout n) := by
  unfold OpWords.Statement
  intro _ w h
  exact nomatch (show (none : Option Word32) = some w from h)

theorem OpWords.deadTimerExpiry (b : Bay) : OpWords.Statement (.deadTimerExpiry b) := by
  unfold OpWords.Statement
  intro _ w h
  exact nomatch (show (none : Option Word32) = some w from h)

theorem OpWords.springWaitExpiry (b : Bay) : OpWords.Statement (.springWaitExpiry b) := by
  unfold OpWords.Statement
  intro _ w h
  exact nomatch (show (none : Option Word32) = some w from h)

theorem OpWords.reclaimExpiry (b : Bay) : OpWords.Statement (.reclaimExpiry b) := by
  unfold OpWords.Statement
  intro _ w h
  exact nomatch (show (none : Option Word32) = some w from h)

theorem OpWords.huntStartDelayExpiry : OpWords.Statement (.huntStartDelayExpiry) := by
  unfold OpWords.Statement
  intro _ w h
  exact nomatch (show (none : Option Word32) = some w from h)

theorem OpWords.dwellExpiry : OpWords.Statement (.dwellExpiry) := by
  unfold OpWords.Statement
  intro _ w h
  exact nomatch (show (none : Option Word32) = some w from h)

theorem OpWords.retestDelayExpiry : OpWords.Statement (.retestDelayExpiry) := by
  unfold OpWords.Statement
  intro _ w h
  exact nomatch (show (none : Option Word32) = some w from h)

theorem OpWords.retestDwellExpiry : OpWords.Statement (.retestDwellExpiry) := by
  unfold OpWords.Statement
  intro _ w h
  exact nomatch (show (none : Option Word32) = some w from h)

theorem OpWords.inSilenceExpiry : OpWords.Statement (.inSilenceExpiry) := by
  unfold OpWords.Statement
  intro _ w h
  exact nomatch (show (none : Option Word32) = some w from h)

theorem OpWords.badOp (word : BitVec 32) : OpWords.Statement (.badOp word) := by
  unfold OpWords.Statement
  intro hwf w h
  obtain rfl : word = w := Option.some.inj h
  replace hwf : (!(knownOpCodes.contains (opCode word))) = true := hwf
  unfold decodeOp
  dsimp only
  split <;> first | rfl | (rename_i e; rw [e] at hwf; exact absurd hwf (by decide))

theorem OpWords.bayContext (imm : BitVec 12) : OpWords.Statement (.bayContext imm) := by
  unfold OpWords.Statement
  intro _ w h
  obtain rfl : opWordOf 0x01 0 imm = w := Option.some.inj h
  simp only [decodeOp, opCode_opWordOf, opImm_opWordOf]

theorem OpWords.widen (target imm : BitVec 12) : OpWords.Statement (.widen target imm) := by
  unfold OpWords.Statement
  intro _ w h
  obtain rfl : opWordOf 0x02 target imm = w := Option.some.inj h
  simp only [decodeOp, opCode_opWordOf, opTarget_opWordOf, opImm_opWordOf]

theorem OpWords.write (target imm : BitVec 12) : OpWords.Statement (.write target imm) := by
  unfold OpWords.Statement
  intro hwf w h
  obtain rfl : opWordOf 0x10 target imm = w := Option.some.inj h
  rw [decodeOp_write]
  have hw : writableAddr (targetTable target) (targetAddr target) = false := by
    simpa using (show (!(writableAddr (targetTable target) (targetAddr target))) = true from hwf)
  simp [decodeWrite, hw]

theorem OpWords.writeSource (addr : BitVec 8) (imm : BitVec 12) : OpWords.Statement (.writeSource addr imm) := by
  unfold OpWords.Statement
  intro hwf w h
  obtain rfl : opWordOf 0x10 (targetOf 1 addr) imm = w := Option.some.inj h
  rw [decodeOp_write]
  replace hwf : writableAddr 1 addr = true := hwf
  simp [decodeWrite, targetTable_targetOf, targetAddr_targetOf, hwf]

theorem OpWords.writeGroup (addr : BitVec 8) (imm : BitVec 12) : OpWords.Statement (.writeGroup addr imm) := by
  unfold OpWords.Statement
  intro hwf w h
  obtain rfl : opWordOf 0x10 (targetOf 3 addr) imm = w := Option.some.inj h
  rw [decodeOp_write]
  replace hwf : writableAddr 3 addr = true := hwf
  simp [decodeWrite, targetTable_targetOf, targetAddr_targetOf, hwf]

theorem OpWords.writeCurve (header : Bool) (addr : BitVec 8) (imm : BitVec 12) : OpWords.Statement (.writeCurve header addr imm) := by
  unfold OpWords.Statement
  intro hwf w h
  obtain rfl : opWordOf 0x10 (targetOf (if header then 5 else 4) addr) imm = w := Option.some.inj h
  rw [decodeOp_write]
  replace hwf : writableAddr (if header then 5 else 4) addr = true := hwf
  cases header <;> simp_all [decodeWrite, targetTable_targetOf, targetAddr_targetOf]

theorem OpWords.writeCapability (addr : BitVec 8) (imm : BitVec 12) : OpWords.Statement (.writeCapability addr imm) := by
  unfold OpWords.Statement
  intro hwf w h
  obtain rfl : opWordOf 0x10 (targetOf 2 addr) imm = w := Option.some.inj h
  rw [decodeOp_write]
  replace hwf : writableAddr 2 addr = true := hwf
  simp [decodeWrite, targetTable_targetOf, targetAddr_targetOf, hwf]

theorem OpWords.writeFireMap (addr : BitVec 8) (imm : BitVec 12) : OpWords.Statement (.writeFireMap addr imm) := by
  unfold OpWords.Statement
  intro hwf w h
  obtain rfl : opWordOf 0x10 (targetOf 8 addr) imm = w := Option.some.inj h
  rw [decodeOp_write]
  replace hwf : writableAddr 8 addr = true := hwf
  simp [decodeWrite, targetTable_targetOf, targetAddr_targetOf, hwf]

theorem OpWords.writeHuntTable (addr : BitVec 8) (imm : BitVec 12) : OpWords.Statement (.writeHuntTable addr imm) := by
  unfold OpWords.Statement
  intro hwf w h
  obtain rfl : opWordOf 0x10 (targetOf 10 addr) imm = w := Option.some.inj h
  rw [decodeOp_write]
  replace hwf : writableAddr 10 addr = true := hwf
  simp [decodeWrite, targetTable_targetOf, targetAddr_targetOf, hwf]

theorem OpWords.writeSegment (addr : BitVec 8) (imm : BitVec 12) : OpWords.Statement (.writeSegment addr imm) := by
  unfold OpWords.Statement
  intro hwf w h
  obtain rfl : opWordOf 0x10 (targetOf 12 addr) imm = w := Option.some.inj h
  rw [decodeOp_write]
  replace hwf : writableAddr 12 addr = true := hwf
  simp [decodeWrite, targetTable_targetOf, targetAddr_targetOf, hwf]

theorem OpWords.writeCaptureConfig (addr : BitVec 8) (imm : BitVec 12) : OpWords.Statement (.writeCaptureConfig addr imm) := by
  unfold OpWords.Statement
  intro hwf w h
  obtain rfl : opWordOf 0x10 (targetOf 13 addr) imm = w := Option.some.inj h
  rw [decodeOp_write]
  replace hwf : writableAddr 13 addr = true := hwf
  simp [decodeWrite, targetTable_targetOf, targetAddr_targetOf, hwf]

theorem OpWords.writeEventConfig (addr : BitVec 8) (imm : BitVec 12) : OpWords.Statement (.writeEventConfig addr imm) := by
  unfold OpWords.Statement
  intro hwf w h
  obtain rfl : opWordOf 0x10 (targetOf 15 addr) imm = w := Option.some.inj h
  rw [decodeOp_write]
  replace hwf : writableAddr 15 addr = true := hwf
  simp [decodeWrite, targetTable_targetOf, targetAddr_targetOf, hwf]

theorem OpWords.read (target : BitVec 12) : OpWords.Statement (.read target) := by
  unfold OpWords.Statement
  intro _ w h
  obtain rfl : opWordOf 0x11 target 0 = w := Option.some.inj h
  simp only [decodeOp, opCode_opWordOf, opTarget_opWordOf]

theorem OpWords.readStatus (imm : BitVec 12) : OpWords.Statement (.readStatus imm) := by
  unfold OpWords.Statement
  intro _ w h
  obtain rfl : opWordOf 0x12 0 imm = w := Option.some.inj h
  simp only [decodeOp, opCode_opWordOf, opImm_opWordOf]

theorem OpWords.readRecords (imm : BitVec 12) : OpWords.Statement (.readRecords imm) := by
  unfold OpWords.Statement
  intro _ w h
  obtain rfl : opWordOf 0x13 0 imm = w := Option.some.inj h
  simp only [decodeOp, opCode_opWordOf, opImm_opWordOf]

theorem OpWords.readCapture (imm : BitVec 12) : OpWords.Statement (.readCapture imm) := by
  unfold OpWords.Statement
  intro _ w h
  obtain rfl : opWordOf 0x14 0 imm = w := Option.some.inj h
  simp only [decodeOp, opCode_opWordOf, opImm_opWordOf]

theorem OpWords.selectBaseGroup (imm : BitVec 12) : OpWords.Statement (.selectBaseGroup imm) := by
  unfold OpWords.Statement
  intro _ w h
  obtain rfl : opWordOf 0x20 0 imm = w := Option.some.inj h
  simp only [decodeOp, opCode_opWordOf, opImm_opWordOf]

theorem OpWords.pushManual (imm : BitVec 12) : OpWords.Statement (.pushManual imm) := by
  unfold OpWords.Statement
  intro _ w h
  obtain rfl : opWordOf 0x21 0 imm = w := Option.some.inj h
  simp only [decodeOp, opCode_opWordOf, opImm_opWordOf]

theorem OpWords.popManual : OpWords.Statement (.popManual) := by
  unfold OpWords.Statement
  intro _ w h
  obtain rfl : opWordOf 0x22 0 0 = w := Option.some.inj h
  simp only [decodeOp, opCode_opWordOf]

theorem OpWords.setFireLevel (imm : BitVec 12) : OpWords.Statement (.setFireLevel imm) := by
  unfold OpWords.Statement
  intro _ w h
  obtain rfl : opWordOf 0x28 0 imm = w := Option.some.inj h
  simp only [decodeOp, opCode_opWordOf, opImm_opWordOf]

theorem OpWords.seasonLock : OpWords.Statement (.seasonLock) := by
  unfold OpWords.Statement
  intro _ w h
  obtain rfl : opWordOf 0x29 0 0 = w := Option.some.inj h
  simp only [decodeOp, opCode_opWordOf]

theorem OpWords.seasonUnlock : OpWords.Statement (.seasonUnlock) := by
  unfold OpWords.Statement
  intro _ w h
  obtain rfl : opWordOf 0x2A 0 0 = w := Option.some.inj h
  simp only [decodeOp, opCode_opWordOf]

theorem OpWords.bayOpen : OpWords.Statement (.bayOpen) := by
  unfold OpWords.Statement
  intro _ w h
  obtain rfl : opWordOf 0x30 0 0 = w := Option.some.inj h
  simp only [decodeOp, opCode_opWordOf]

theorem OpWords.bayClose : OpWords.Statement (.bayClose) := by
  unfold OpWords.Statement
  intro _ w h
  obtain rfl : opWordOf 0x31 0 0 = w := Option.some.inj h
  simp only [decodeOp, opCode_opWordOf]

theorem OpWords.bayIndicate (imm : BitVec 12) : OpWords.Statement (.bayIndicate imm) := by
  unfold OpWords.Statement
  intro _ w h
  obtain rfl : opWordOf 0x32 0 imm = w := Option.some.inj h
  simp only [decodeOp, opCode_opWordOf, opImm_opWordOf]

theorem OpWords.bayInterlock (imm : BitVec 12) : OpWords.Statement (.bayInterlock imm) := by
  unfold OpWords.Statement
  intro _ w h
  obtain rfl : opWordOf 0x33 0 imm = w := Option.some.inj h
  simp only [decodeOp, opCode_opWordOf, opImm_opWordOf]

theorem OpWords.blockRange (imm : BitVec 12) : OpWords.Statement (.blockRange imm) := by
  unfold OpWords.Statement
  intro _ w h
  obtain rfl : opWordOf 0x34 0 imm = w := Option.some.inj h
  simp only [decodeOp, opCode_opWordOf, opImm_opWordOf]

theorem OpWords.unblockRange (imm : BitVec 12) : OpWords.Statement (.unblockRange imm) := by
  unfold OpWords.Statement
  intro _ w h
  obtain rfl : opWordOf 0x35 0 imm = w := Option.some.inj h
  simp only [decodeOp, opCode_opWordOf, opImm_opWordOf]

theorem OpWords.resetLockout : OpWords.Statement (.resetLockout) := by
  unfold OpWords.Statement
  intro _ w h
  obtain rfl : opWordOf 0x36 0 0 = w := Option.some.inj h
  simp only [decodeOp, opCode_opWordOf]

theorem OpWords.ackBreakerFail : OpWords.Statement (.ackBreakerFail) := by
  unfold OpWords.Statement
  intro _ w h
  obtain rfl : opWordOf 0x38 0 0 = w := Option.some.inj h
  simp only [decodeOp, opCode_opWordOf]

theorem OpWords.clearStanddown : OpWords.Statement (.clearStanddown) := by
  unfold OpWords.Statement
  intro _ w h
  obtain rfl : opWordOf 0x39 0 0 = w := Option.some.inj h
  simp only [decodeOp, opCode_opWordOf]

theorem OpWords.startHunt : OpWords.Statement (.startHunt) := by
  unfold OpWords.Statement
  intro _ w h
  obtain rfl : opWordOf 0x40 0 0 = w := Option.some.inj h
  simp only [decodeOp, opCode_opWordOf]

theorem OpWords.abortHunt : OpWords.Statement (.abortHunt) := by
  unfold OpWords.Statement
  intro _ w h
  obtain rfl : opWordOf 0x41 0 0 = w := Option.some.inj h
  simp only [decodeOp, opCode_opWordOf]

theorem OpWords.armCapture (imm : BitVec 12) : OpWords.Statement (.armCapture imm) := by
  unfold OpWords.Statement
  intro _ w h
  obtain rfl : opWordOf 0x48 0 imm = w := Option.some.inj h
  simp only [decodeOp, opCode_opWordOf, opImm_opWordOf]

theorem OpWords.disarmCapture (imm : BitVec 12) : OpWords.Statement (.disarmCapture imm) := by
  unfold OpWords.Statement
  intro _ w h
  obtain rfl : opWordOf 0x49 0 imm = w := Option.some.inj h
  simp only [decodeOp, opCode_opWordOf, opImm_opWordOf]

theorem OpWords.clearEvents (imm : BitVec 12) : OpWords.Statement (.clearEvents imm) := by
  unfold OpWords.Statement
  intro _ w h
  obtain rfl : opWordOf 0x50 0 imm = w := Option.some.inj h
  simp only [decodeOp, opCode_opWordOf, opImm_opWordOf]

theorem OpWords.setThreshold (imm : BitVec 12) : OpWords.Statement (.setThreshold imm) := by
  unfold OpWords.Statement
  intro _ w h
  obtain rfl : opWordOf 0x51 0 imm = w := Option.some.inj h
  simp only [decodeOp, opCode_opWordOf, opImm_opWordOf]

theorem OpWords.setTime (imm : BitVec 12) : OpWords.Statement (.setTime imm) := by
  unfold OpWords.Statement
  intro _ w h
  obtain rfl : opWordOf 0x58 0 imm = w := Option.some.inj h
  simp only [decodeOp, opCode_opWordOf, opImm_opWordOf]

theorem OpWords.setReportDest (imm : BitVec 12) : OpWords.Statement (.setReportDest imm) := by
  unfold OpWords.Statement
  intro _ w h
  obtain rfl : opWordOf 0x59 0 imm = w := Option.some.inj h
  simp only [decodeOp, opCode_opWordOf, opImm_opWordOf]

theorem OpWords.setBackupAddr (imm : BitVec 12) : OpWords.Statement (.setBackupAddr imm) := by
  unfold OpWords.Statement
  intro _ w h
  obtain rfl : opWordOf 0x5A 0 imm = w := Option.some.inj h
  simp only [decodeOp, opCode_opWordOf, opImm_opWordOf]

theorem OpWords.commission : OpWords.Statement (.commission) := by
  unfold OpWords.Statement
  intro _ w h
  obtain rfl : opWordOf 0x60 0 0 = w := Option.some.inj h
  simp only [decodeOp, opCode_opWordOf]

theorem OpWords.decommission : OpWords.Statement (.decommission) := by
  unfold OpWords.Statement
  intro _ w h
  obtain rfl : opWordOf 0x61 0 0 = w := Option.some.inj h
  simp only [decodeOp, opCode_opWordOf]

theorem OpWords.restart : OpWords.Statement (.restart) := by
  unfold OpWords.Statement
  intro _ w h
  obtain rfl : opWordOf 0x62 0 0 = w := Option.some.inj h
  simp only [decodeOp, opCode_opWordOf]

theorem OpWords.resetPinAsserted : OpWords.Statement (.resetPinAsserted) := by
  unfold OpWords.Statement
  intro _ w h
  exact nomatch (show (none : Option Word32) = some w from h)

end Sys2Proof.Laws
end

