-- ==== Sys2Proof/Laws/Requests.lean ====
section
/-! SUPPORT. The requests: what an op command does where the request in progress asks for it, the value of a widened immediate, and
what the entering of an answer changes. -/

namespace Sys2Proof.Machine

open Sys2Proof.Safety

/-- On a part that is not held in reset a command has its effect. -/
theorem State.live_of_free {s : State} (h : s.pins.resetHeld = false) (t : State) : s.live t = .next t := by
  unfold State.live
  rw [h]
  rfl

/-- The widened immediate is the pending widen times 4096 plus the immediate (R189). -/
theorem widened_eq_valueOf (p : Progress) (imm : BitVec 12) : widened p.widen imm = valueOf p imm := by
  unfold widened valueOf
  apply BitVec.eq_of_toNat_eq
  have hi := imm.isLt
  cases h : p.widen with
  | none => simp
  | some v =>
    have hv := v.isLt
    simp only [Option.map_some, Option.getD_some, BitVec.toNat_ofNat]
    rw [BitVec.toNat_append, ← Nat.shiftLeft_add_eq_or_of_lt hi, Nat.shiftLeft_eq]
    omega

/-- An op without an immediate that the request in progress asks for. -/
theorem runOp_next {s : State} {c : Instr} {p : Progress} (h : Runs s c p) (body : Rec → State → State × Answer) :
    s.live (s.runOp c body) = .next ((body p.context s).1.opDone (body p.context s).2) := by
  rw [State.live_of_free h.live]
  unfold State.runOp
  rw [h.asked]

/-- An op with an immediate that the request in progress asks for. -/
theorem runImm_next {s : State} {c : Instr} {p : Progress} (h : Runs s c p) (imm : BitVec 12)
    (body : Word32 → Rec → State → State × Answer) :
    s.live (s.runImm c imm body) =
      .next ((body (valueOf p imm) p.context (consumed s p)).1.opDone (body (valueOf p imm) p.context (consumed s p)).2) := by
  rw [State.live_of_free h.live]
  unfold State.runImm
  rw [h.asked, ← widened_eq_valueOf]
  rfl

/-- The request in progress that asks for a command. -/
theorem runs_cur {s : State} {c : Instr} {p : Progress} (h : Runs s c p) : s.mgu.cur = some p ∧ p.ops ≠ [] :=
  State.asked_cur h.asked

@[simp] theorem State.opDone_meu (s : State) (a : Answer) : (s.opDone a).meu = s.meu := by
  unfold State.opDone State.goOn
  split
  · split <;> rfl
  · rfl

@[simp] theorem State.opDone_pru (s : State) (a : Answer) : (s.opDone a).pru = s.pru := by
  unfold State.opDone State.goOn
  split
  · split <;> rfl
  · rfl

@[simp] theorem State.opDone_efu (s : State) (a : Answer) : (s.opDone a).efu = s.efu := by
  unfold State.opDone State.goOn
  split
  · split <;> rfl
  · rfl

@[simp] theorem State.opDone_bcu (s : State) (a : Answer) : (s.opDone a).bcu = s.bcu := by
  unfold State.opDone State.goOn
  split
  · split <;> rfl
  · rfl

@[simp] theorem State.opDone_rcc (s : State) (a : Answer) : (s.opDone a).rcc = s.rcc := by
  unfold State.opDone State.goOn
  split
  · split <;> rfl
  · rfl

@[simp] theorem State.opDone_fru (s : State) (a : Answer) : (s.opDone a).fru = s.fru := by
  unfold State.opDone State.goOn
  split
  · split <;> rfl
  · rfl

@[simp] theorem State.opDone_hnc (s : State) (a : Answer) : (s.opDone a).hnc = s.hnc := by
  unfold State.opDone State.goOn
  split
  · split <;> rfl
  · rfl

@[simp] theorem State.opDone_recd (s : State) (a : Answer) : (s.opDone a).recd = s.recd := by
  unfold State.opDone State.goOn
  split
  · split <;> rfl
  · rfl

@[simp] theorem State.opDone_evu (s : State) (a : Answer) : (s.opDone a).evu = s.evu := by
  unfold State.opDone State.goOn
  split
  · split <;> rfl
  · rfl

@[simp] theorem State.opDone_pins (s : State) (a : Answer) : (s.opDone a).pins = s.pins := by
  unfold State.opDone State.goOn
  split
  · split <;> rfl
  · rfl

@[simp] theorem State.opDone_mono (s : State) (a : Answer) : (s.opDone a).mono = s.mono := by
  unfold State.opDone State.goOn
  split
  · split <;> rfl
  · rfl

@[simp] theorem State.opDone_pending (s : State) (a : Answer) : (s.opDone a).pending = s.pending := by
  unfold State.opDone State.goOn
  split
  · split <;> rfl
  · rfl

@[simp] theorem State.opDone_queue (s : State) (a : Answer) : (s.opDone a).mgu.queue = s.mgu.queue := by
  unfold State.opDone State.goOn
  split
  · split <;> rfl
  · rfl

@[simp] theorem State.opDone_offset (s : State) (a : Answer) : (s.opDone a).mgu.offset = s.mgu.offset := by
  unfold State.opDone State.goOn
  split
  · split <;> rfl
  · rfl

@[simp] theorem State.opDone_part (s : State) (a : Answer) : (s.opDone a).mgu.part = s.mgu.part := by
  unfold State.opDone State.goOn
  split
  · split <;> rfl
  · rfl

@[simp] theorem State.opDone_own (s : State) (a : Answer) : (s.opDone a).riu.own = s.riu.own := by
  unfold State.opDone State.goOn
  split
  · split <;> rfl
  · rfl

@[simp] theorem State.opDone_inUp (s : State) (a : Answer) : (s.opDone a).riu.inUp = s.riu.inUp := by
  unfold State.opDone State.goOn
  split
  · split <;> rfl
  · rfl

@[simp] theorem State.opDone_inTimer (s : State) (a : Answer) : (s.opDone a).riu.inTimer = s.riu.inTimer := by
  unfold State.opDone State.goOn
  split
  · split <;> rfl
  · rfl

@[simp] theorem State.opDone_checkFail (s : State) (a : Answer) : (s.opDone a).riu.checkFail = s.riu.checkFail := by
  unfold State.opDone State.goOn
  split
  · split <;> rfl
  · rfl

@[simp] theorem State.opDone_overrun (s : State) (a : Answer) : (s.opDone a).riu.overrun = s.riu.overrun := by
  unfold State.opDone State.goOn
  split
  · split <;> rfl
  · rfl

@[simp] theorem State.opDone_fwd (s : State) (a : Answer) : (s.opDone a).riu.fwd = s.riu.fwd := by
  unfold State.opDone State.goOn
  split
  · split <;> rfl
  · rfl

@[simp] theorem State.opDone_outPlaces (s : State) (a : Answer) : (s.opDone a).riu.outPlaces = s.riu.outPlaces := by
  unfold State.opDone State.goOn
  split
  · split <;> rfl
  · rfl

@[simp] theorem State.opDone_capQueue (s : State) (a : Answer) : (s.opDone a).riu.capQueue = s.riu.capQueue := by
  unfold State.opDone State.goOn
  split
  · split <;> rfl
  · rfl

@[simp] theorem State.opDone_lastIn (s : State) (a : Answer) : (s.opDone a).riu.lastIn = s.riu.lastIn := by
  unfold State.opDone State.goOn
  split
  · split <;> rfl
  · rfl

@[simp] theorem State.opDone_sending (s : State) (a : Answer) : (s.opDone a).riu.sending = s.riu.sending := by
  unfold State.opDone State.goOn
  split
  · split <;> rfl
  · rfl

@[simp] theorem consumed_meu (s : State) (p : Progress) : (consumed s p).meu = s.meu := rfl

@[simp] theorem consumed_pru (s : State) (p : Progress) : (consumed s p).pru = s.pru := rfl

@[simp] theorem consumed_efu (s : State) (p : Progress) : (consumed s p).efu = s.efu := rfl

@[simp] theorem consumed_bcu (s : State) (p : Progress) : (consumed s p).bcu = s.bcu := rfl

@[simp] theorem consumed_rcc (s : State) (p : Progress) : (consumed s p).rcc = s.rcc := rfl

@[simp] theorem consumed_fru (s : State) (p : Progress) : (consumed s p).fru = s.fru := rfl

@[simp] theorem consumed_hnc (s : State) (p : Progress) : (consumed s p).hnc = s.hnc := rfl

@[simp] theorem consumed_recd (s : State) (p : Progress) : (consumed s p).recd = s.recd := rfl

@[simp] theorem consumed_evu (s : State) (p : Progress) : (consumed s p).evu = s.evu := rfl

@[simp] theorem consumed_pins (s : State) (p : Progress) : (consumed s p).pins = s.pins := rfl

@[simp] theorem consumed_mono (s : State) (p : Progress) : (consumed s p).mono = s.mono := rfl

@[simp] theorem consumed_pending (s : State) (p : Progress) : (consumed s p).pending = s.pending := rfl

@[simp] theorem consumed_riu (s : State) (p : Progress) : (consumed s p).riu = s.riu := rfl

@[simp] theorem consumed_queue (s : State) (p : Progress) : (consumed s p).mgu.queue = s.mgu.queue := rfl

@[simp] theorem consumed_offset (s : State) (p : Progress) : (consumed s p).mgu.offset = s.mgu.offset := rfl

@[simp] theorem consumed_part (s : State) (p : Progress) : (consumed s p).mgu.part = s.mgu.part := rfl

@[simp] theorem consumed_cur (s : State) (p : Progress) : (consumed s p).mgu.cur = some { p with widen := none } := rfl

end Sys2Proof.Machine
end

