-- ==== Sys2Proof/Laws/Reasons.lean ====
section
/-! SUPPORT. The block sets: adding and removing a reason sets that reason in that bay and no other, whatever sequence it cancels;
the derivation of the FIRE reasons leaves FIRE exactly where it belongs (R81, R101). -/

namespace Sys2Proof.Machine

open Sys2Proof.Safety

/-- All that maskS keeps but for the block sets. -/
def State.maskR (s : State) : State := let m := s.maskS; { m with rcc := m.rcc.each (fun _ => RecloseRecord.cold) }

theorem State.maskR_of_maskS {s t : State} (h : t.maskS = s.maskS) : t.maskR = s.maskR := by
  unfold State.maskR; rw [h]

theorem State.setRcl_maskR (s : State) (b : Bay) (x : RecloseRecord) : (s.setRcl b x).maskR = s.maskR := by
  have : ((s.rcc.put b x).each RecloseRecord.blocks).each (fun _ => RecloseRecord.cold)
      = (s.rcc.each RecloseRecord.blocks).each (fun _ => RecloseRecord.cold) := by
    apply Vector.ext_look
    intro j
    simp
  unfold State.maskR State.maskS State.maskE State.setRcl
  dsimp only
  rw [this]

theorem State.putReason_maskR (s : State) (b : Bay) (r : BlockReason) (v : Bool) :
    (s.putReason b r v).maskR = s.maskR := s.setRcl_maskR b _

theorem closedS_maskR (s₀ : State) : ClosedS (fun t => t.maskR = s₀.maskR) where
  blind := fun _ _ h hs => (State.maskR_of_maskS (State.maskS_of_maskE h)).trans hs
  slot := fun _ _ _ _ hs => hs
  issue := fun _ _ _ _ _ _ hs => hs
  out := fun _ _ _ hs => hs
  rcl := fun s b x _ hs => (s.setRcl_maskR b x).trans hs

@[simp] theorem State.addReason_maskR (s : State) (b : Bay) (r : BlockReason) : (s.addReason b r).maskR = s.maskR :=
  (closedS_maskR s).addReason (s.putReason_maskR b r true) rfl

@[simp] theorem State.removeReason_maskR (s : State) (b : Bay) (r : BlockReason) :
    (s.removeReason b r).maskR = s.maskR :=
  removeReason_closed (P := fun t => t.maskR = s.maskR) (s.putReason_maskR b r false) rfl

@[simp] theorem State.deriveFire_maskR (s : State) : s.deriveFire.1.maskR = s.maskR :=
  (closedS_maskR s).deriveFire (fun t b v h => (t.putReason_maskR b .fire v).trans h) rfl

theorem State.maskB_of_maskR_aux {s t : State} (h : t.maskR = s.maskR) :
    ({ t with rcc := s.rcc } : State).maskS = s.maskS := by
  have := congrArg (fun u : State => { u with rcc := s.rcc.each RecloseRecord.blocks }) h
  exact this

/-- What maskR keeps is all that the slots and the reclose controller leave as it was. -/
theorem onlySlots_of_maskR {s t : State} (h : t.maskR = s.maskR) : OnlySlots s t := by
  have k := onlySlots_of_mask (State.maskB_of_maskR_aux h)
  exact ⟨⟨⟨⟨k.sources, k.groups, k.curves, k.capabilities, k.regime, k.huntTable, k.requests, k.ring, k.pins, k.mono, k.pending,
    k.segments, k.readouts, k.reports, k.factors, k.channels⟩, k.meu, k.efu, k.latest, k.counts⟩, k.pru, k.status, k.backup,
    k.part⟩, k.fru, k.hnc, k.records, k.bare⟩

theorem State.maskR_fru {s t : State} (h : t.maskR = s.maskR) : t.fru = s.fru := (onlySlots_of_maskR h).fru
theorem State.maskR_hnc {s t : State} (h : t.maskR = s.maskR) : t.hnc = s.hnc := (onlySlots_of_maskR h).hnc
theorem State.maskR_mgu {s t : State} (h : t.maskR = s.maskR) : t.mgu = s.mgu := by
  have := congrArg (fun u : State => u.mgu) h; exact this
theorem State.maskR_cap {s t : State} (h : t.maskR = s.maskR) : t.bcu.cap = s.bcu.cap :=
  (onlySlots_of_maskR h).capabilities

/-! ### One reason -/

theorem BlockSet.has_set (x : BlockSet) (r r' : BlockReason) (v : Bool) :
    (x.set r v).has r' = if r' = r then v else x.has r' := by
  cases r <;> cases r' <;> rfl

theorem State.putReason_block (s : State) (b c : Bay) (r : BlockReason) (v : Bool) :
    ((s.putReason b r v).rcl c).block = if c = b then (s.rcl b).block.set r v else (s.rcl c).block := by
  unfold State.putReason State.setRcl State.rcl
  simp only [Vector.look_put]
  by_cases h : b = c
  · subst h; simp
  · simp [h, Ne.symm h]

theorem State.addReason_block (s : State) (b c : Bay) (r : BlockReason) :
    ((s.addReason b r).rcl c).block.has r = (if c = b then true else (s.rcl c).block.has r) ∧
    ∀ r', r' ≠ r → ((s.addReason b r).rcl c).block.has r' = (s.rcl c).block.has r' := by
  unfold State.addReason
  split
  · next h =>
    refine ⟨?_, fun _ _ => rfl⟩
    split
    · next e => subst e; exact h
    · rfl
  · have hb : ((if ((s.putReason b r true).runs b && (((s.putReason b r true).rcl b).state == .dead ||
        (s.putReason b r true).isWaiting b)) = true then (s.putReason b r true).cancelSequence b r
        else s.putReason b r true).rcl c).block = ((s.putReason b r true).rcl c).block := by
      split
      · exact State.maskS_block ((closedS_mask (s.putReason b r true)).cancelSequence rfl) c
      · rfl
    dsimp only
    rw [hb, s.putReason_block]
    constructor
    · split <;> simp [BlockSet.has_set]
    · intro r' hr
      split
      · next e => subst e; simp [BlockSet.has_set, hr]
      · rfl

theorem State.removeReason_block (s : State) (b c : Bay) (r : BlockReason) :
    ((s.removeReason b r).rcl c).block.has r = (if c = b then false else (s.rcl c).block.has r) ∧
    ∀ r', r' ≠ r → ((s.removeReason b r).rcl c).block.has r' = (s.rcl c).block.has r' := by
  unfold State.removeReason
  split
  · rw [s.putReason_block]
    constructor
    · split <;> simp [BlockSet.has_set]
    · intro r' hr
      split
      · next e => subst e; simp [BlockSet.has_set, hr]
      · rfl
  · next h =>
    refine ⟨?_, fun _ _ => rfl⟩
    split
    · next e => subst e; simpa using h
    · rfl

/-! ### The derivation of the FIRE reasons (R101) -/

theorem State.shouldBurn_of_maskR {s t : State} (h : t.maskR = s.maskR) (b : Bay) : t.shouldBurn b = s.shouldBurn b := by
  unfold State.shouldBurn State.runs State.protecting State.fireRecord State.cap
  rw [State.maskR_mgu h, State.maskR_fru h, State.maskR_cap h]

theorem deriveBay_maskR (p : State × BitVec 8) (b : Bay) : (deriveBay p b).1.maskR = p.1.maskR := by
  unfold deriveBay
  dsimp only
  split
  · simp
  · split <;> simp

theorem deriveBay_block (p : State × BitVec 8) (b c : Bay) :
    ((deriveBay p b).1.rcl c).block.fire = (if c = b then p.1.shouldBurn b else (p.1.rcl c).block.fire) ∧
    ∀ r, r ≠ .fire → ((deriveBay p b).1.rcl c).block.has r = (p.1.rcl c).block.has r := by
  unfold deriveBay
  dsimp only
  split
  · next h =>
    have := p.1.addReason_block b c .fire
    simp only [Bool.and_eq_true, Bool.not_eq_true'] at h
    rw [h.1]
    exact this
  · split
    · next h =>
      have := p.1.removeReason_block b c .fire
      simp only [Bool.and_eq_true, Bool.not_eq_true'] at h
      rw [h.1]
      exact this
    · next h1 h2 =>
      refine ⟨?_, fun _ _ => rfl⟩
      split
      · next e =>
        subst e
        cases ha : p.1.shouldBurn c <;> cases hb : (p.1.rcl c).block.fire <;> simp_all
      · rfl

theorem deriveFold_block (l : List Bay) (hl : l.Nodup) (p : State × BitVec 8) (c : Bay) :
    ((l.foldl deriveBay p).1.rcl c).block.fire = (if c ∈ l then p.1.shouldBurn c else (p.1.rcl c).block.fire) ∧
    ∀ r, r ≠ .fire → ((l.foldl deriveBay p).1.rcl c).block.has r = (p.1.rcl c).block.has r := by
  induction l generalizing p with
  | nil => simp
  | cons b l ih =>
    obtain ⟨hb, hl⟩ := List.nodup_cons.mp hl
    obtain ⟨h1, h2⟩ := ih hl (deriveBay p b)
    obtain ⟨k1, k2⟩ := deriveBay_block p b c
    rw [List.foldl_cons]
    refine ⟨?_, fun r hr => (h2 r hr).trans (k2 r hr)⟩
    rw [h1, k1, State.shouldBurn_of_maskR (deriveBay_maskR p b)]
    by_cases hc : c = b
    · subst hc; simp [hb]
    · simp [hc]

theorem mem_allBays (b : Bay) : b ∈ allBays := by revert b; decide

/-- After the derivation a bay carries FIRE exactly where it should (R101). -/
theorem State.deriveFire_fire (s : State) (b : Bay) : (s.deriveFire.1.rcl b).block.fire = s.shouldBurn b := by
  unfold State.deriveFire
  rw [(deriveFold_block allBays (by decide) (s, 0) b).1, if_pos (mem_allBays b)]

theorem State.deriveFire_other (s : State) (b : Bay) (r : BlockReason) (hr : r ≠ .fire) :
    (s.deriveFire.1.rcl b).block.has r = (s.rcl b).block.has r := by
  unfold State.deriveFire
  exact (deriveFold_block allBays (by decide) (s, 0) b).2 r hr

end Sys2Proof.Machine
end

