-- ==== Sys2Proof/Laws/Slots.lean ====
section
/-! SUPPORT. What the shared operations of the slots do, said once: judging and placing a request, its issue at a FREE slot with nothing
else pending, and an entry to LOCKOUT. -/

namespace Sys2Proof.Machine

open Sys2Proof.Safety

/-! ### Judging (R51) -/

/-- A request that none of the first four checks of R51 stops, and that is no second MANAGEMENT request, is accepted. -/
theorem State.judgeReq_none {s : State} {n : Rec} {c : ReqClass} {cmd : Command} (hs : (s.cap n).inService = true)
    (hd : cmd = .closing → s.mgu.part ≠ .standdown) (hl : (s.status n).localMode = false)
    (hi : cmd = .closing → (s.status n).interlock = false) (hb : c = .management → (s.slot n).pend.management = none) :
    s.judgeReq n c cmd = none := by
  unfold State.judgeReq
  by_cases h : cmd = .closing
  · by_cases k : c = .management
    · simp [hs, hd h, hl, hi h, hb k]
    · simp [hs, hd h, hl, hi h, k]
  · by_cases k : c = .management
    · simp [hs, hl, h, hb k]
    · simp [hs, hl, h, k]

/-! ### Issue (R52) -/

theorem Pending.none_get (c : ReqClass) : Pending.none.get c = Option.none := by cases c <;> rfl

theorem Pending.none_set (c : ReqClass) : Pending.none.set c Option.none = Pending.none := by cases c <;> rfl

theorem Pending.set_get (p : Pending) (c d : ReqClass) (v : Option Command) :
    (p.set c v).get d = if c = d then v else p.get d := by cases c <;> cases d <;> rfl

/-- A slot with nothing pending issues nothing. -/
theorem State.issueFrom_nothing {s : State} {n : Rec} (h : (s.slot n).pend = Pending.none) (cs : List ReqClass) :
    State.issueFrom cs n s = (s, none) := by
  induction cs with
  | nil => rfl
  | cons c cs ih =>
    unfold State.issueFrom
    rw [h, Pending.none_get]
    exact ih

/-- With one request pending, no NO_CHANGE and no CLOSE that R52 holds back, that request is issued. -/
theorem State.issueFrom_one {s : State} {n : Rec} {c : ReqClass} {cmd : Command}
    (h : (s.slot n).pend = Pending.none.set c (some cmd)) (hn : cmd ≠ .indicate .noChange)
    (hc : cmd = .closing → s.closeBlocked n = none) :
    State.issueFrom classOrder n s = (s.issueCmd n c cmd, none) := by
  have key : ∀ cs : List ReqClass, c ∈ cs → State.issueFrom cs n s = (s.issueCmd n c cmd, none) := by
    intro cs hm
    induction cs with
    | nil => cases hm
    | cons d cs ih =>
      unfold State.issueFrom
      rw [h, Pending.set_get, Pending.none_get]
      by_cases hd : c = d
      · subst hd
        rw [if_pos rfl]
        have hx : (if cmd == .closing then s.closeBlocked n else none) = none := by
          split
          · next e => exact hc (by simpa using e)
          · rfl
        cases cmd with
        | indicate a => cases a <;> first | exact absurd rfl hn | rfl
        | opening => rfl
        | closing => dsimp only; rw [hx]
        | interlock e => rfl
      · simp only [hd, if_false]
        exact ih ((List.mem_cons.mp hm).resolve_left hd)
  exact key _ (by cases c <;> decide)

theorem State.setPend_idem (s : State) (n : Rec) (c : ReqClass) (v w : Option Command) :
    (s.setPend n c v).setPend n c w = s.setPend n c w := by
  unfold State.setPend State.setSlot State.slot
  simp only [Vector.look_put_same]
  congr 2
  refine Vector.ext_look fun i => ?_
  simp only [Vector.look_put]
  split
  · cases c <;> rfl
  · rfl

/-- The issue of a command whose request was pending: the request is no part of what follows. -/
theorem State.issueCmd_setPend (s : State) (n : Rec) (c : ReqClass) (v : Option Command) (cmd : Command) :
    (s.setPend n c v).issueCmd n c cmd = s.issueCmd n c cmd := by
  have h : (s.setPend n c v).setSlot n { (s.setPend n c v).slot n with
        state := .inFlight { cmd := cmd, tag := nextTag ((s.setPend n c v).slot n).lastTag, cls := c, issued := s.mono,
                             tripAttached := c == .trip, timer := commandMs cmd },
        pend := ((s.setPend n c v).slot n).pend.set c none, lastTag := nextTag ((s.setPend n c v).slot n).lastTag } =
      s.setSlot n { s.slot n with
        state := .inFlight { cmd := cmd, tag := nextTag (s.slot n).lastTag, cls := c, issued := s.mono,
                             tripAttached := c == .trip, timer := commandMs cmd },
        pend := (s.slot n).pend.set c none, lastTag := nextTag (s.slot n).lastTag } := by
    unfold State.setPend State.setSlot State.slot
    simp only [Vector.look_put_same]
    congr 2
    refine Vector.ext_look fun i => ?_
    simp only [Vector.look_put]
    split
    · cases c <;> rfl
    · rfl
  have hl : ((s.setPend n c v).slot n).lastTag = (s.slot n).lastTag := by
    simp [State.setPend, State.setSlot, State.slot]
  unfold State.issueCmd
  dsimp only
  rw [show (s.setPend n c v).mono = s.mono from rfl, h, hl]
  rfl

/-- An accepted request at a FREE slot with nothing pending is issued at once (R51, R52). -/
theorem State.place_issued {s : State} {n : Rec} {c : ReqClass} {cmd : Command} (hj : s.judgeReq n c cmd = none)
    (hf : (s.slot n).state = .free) (hp : (s.slot n).pend = Pending.none) (hn : cmd ≠ .indicate .noChange) :
    s.place n c cmd = .ok (s.issueCmd n c cmd) := by
  unfold State.place
  rw [hj, State.tellReplaced_eq]
  dsimp only
  unfold State.issueNext
  have h1 : ((s.setPend n c (some cmd)).slot n).state = .free := by simp [State.setPend, State.setSlot, State.slot, ← hf]
  have h2 : ((s.setPend n c (some cmd)).slot n).pend = Pending.none.set c (some cmd) := by
    rw [← hp]; simp [State.setPend, State.setSlot, State.slot]
  rw [if_pos (by rw [h1]; rfl), State.issueFrom_one h2 hn, State.issueCmd_setPend]
  intro e
  subst e
  have hj' : s.closeBlocked n = none := by
    unfold State.judgeReq at hj
    unfold State.closeBlocked
    split at hj
    · cases hj
    · by_cases a : s.mgu.part = .standdown
      · simp [a] at hj
      · by_cases b : (s.status n).localMode = true
        · simp [a, b] at hj
        · by_cases d : (s.status n).interlock = true
          · simp [a, b, d] at hj
          · simp [a, b, d]
  exact hj'

/-- The slot after an issue (R52). -/
theorem State.issueCmd_slot (s : State) (n : Rec) (c : ReqClass) (cmd : Command) :
    (s.issueCmd n c cmd).slot n = (s.slot n).issued c cmd s.mono (commandMs cmd) := by
  have h : ∀ (t : State) (b : Bay), (t.rccIssued b).slot n = t.slot n := by
    intro t b; unfold State.rccIssued; split <;> rfl
  unfold State.issueCmd
  dsimp only
  split
  · rw [h]; simp [State.slot, State.setSlot, State.setOutPlace, Slot.issued]
  · simp [State.slot, State.setSlot, State.setOutPlace, Slot.issued]

/-- The out-place after an issue holds the BAYCMD frame (R52, R183). -/
theorem State.issueCmd_out (s : State) (n : Rec) (c : ReqClass) (cmd : Command) :
    (s.issueCmd n c cmd).riu.outPlaces.look n = some (s.bayCmdFrame n cmd (nextTag (s.slot n).lastTag)) := by
  have h : ∀ (t : State) (b : Bay), (t.rccIssued b).riu = t.riu := by
    intro t b; unfold State.rccIssued; split <;> rfl
  unfold State.issueCmd
  dsimp only
  split
  · rw [h]; simp [State.setOutPlace, State.bayCmdFrame, State.setSlot, State.cap, State.ownByte]
  · simp [State.setOutPlace, State.bayCmdFrame, State.setSlot, State.cap, State.ownByte]

/-- An issue of any class but RECLOSE tells no reclose record. -/
theorem State.issueCmd_rcc (s : State) (n : Rec) (c : ReqClass) (cmd : Command) (hc : c ≠ .reclose) :
    (s.issueCmd n c cmd).rcc = s.rcc := by
  unfold State.issueCmd
  dsimp only
  split
  · exact absurd rfl hc
  · rfl

/-! ### The reclose record -/

theorem State.completeNoChange_rcc (s : State) (n : Rec) (c : ReqClass) (cmd : Command) :
    (s.completeNoChange n c cmd).rcc = s.rcc := rfl

/-- With no RECLOSE request pending, what a slot issues leaves the reclose records as they are. -/
theorem State.issueFrom_rcc (cs : List ReqClass) {s : State} {n : Rec} (h : (s.slot n).pend.reclose = none) :
    (State.issueFrom cs n s).1.rcc = s.rcc := by
  induction cs generalizing s with
  | nil => rfl
  | cons c cs ih =>
    unfold State.issueFrom
    split
    · exact ih h
    · next hc =>
      refine (ih ?_).trans (s.completeNoChange_rcc n c _)
      simp only [State.completeNoChange, State.setResult, State.setPend, State.setSlot, State.slot, Vector.look_put_same]
      cases c <;> first | exact h | rfl
    · next cmd _ hc =>
      have hr : c ≠ .reclose := by
        intro e; subst e; rw [show (s.slot n).pend.get .reclose = (s.slot n).pend.reclose from rfl, h] at hc; cases hc
      split
      · next code _ =>
        have hp : ((s.setPend n c none).slot n).pend.reclose = none := by
          simp only [State.setPend, State.setSlot, State.slot, Vector.look_put_same]
          cases c <;> first | exact h | rfl
        have hw : (s.withdrawAtIssue n c cmd code).rcc = s.rcc ∧
            ((s.withdrawAtIssue n c cmd code).slot n).pend.reclose = none := by
          unfold State.withdrawAtIssue
          dsimp only
          split
          · exact absurd rfl hr
          · refine ⟨rfl, ?_⟩
            simp only [State.mgmtWithdrawn, State.setResult]
            simpa [State.setSlot, State.slot] using hp
          · exact ⟨rfl, hp⟩
        exact (ih hw.2).trans hw.1
      · exact s.issueCmd_rcc n c cmd hr

/-- The reclose record after an entry to LOCKOUT (R79). -/
theorem State.lock_rcl {s : State} {b : Bay} {cause : LockoutCause} (h : s.canLock b = true) :
    (s.lock b cause).rcl b = { s.rcl b with
      state := .lockout cause, deadTimer := none, springTimer := none, reclaimTimer := .stopped } := by
  have hp : ∀ t : State, ∀ a, ((t.pendLamp (bayRec b) a).rcc = t.rcc ∧
      ((t.pendLamp (bayRec b) a).slot (bayRec b)).pend.reclose = (t.slot (bayRec b)).pend.reclose) := by
    intro t a
    unfold State.pendLamp
    split
    · exact ⟨rfl, by simp [State.setPend, State.setSlot, State.slot, Pending.set]⟩
    · exact ⟨rfl, rfl⟩
  have h1 : (s.lockPend b cause).rcl b = { s.rcl b with
      state := .lockout cause, deadTimer := none, springTimer := none, reclaimTimer := .stopped } := by
    unfold State.lockPend State.rcl
    dsimp only
    rw [(hp _ _).1, State.maskE_rcc (State.occur_maskE _ _ _ _)]
    simp [State.setRcl, State.setPend, State.setSlot]
  have h2 : ((s.lockPend b cause).slot (bayRec b)).pend.reclose = none := by
    unfold State.lockPend
    dsimp only
    rw [(hp _ _).2]
    unfold State.slot
    rw [State.maskE_bcu (State.occur_maskE _ _ _ _)]
    simp [State.setRcl, State.setPend, State.setSlot, State.slot, Pending.set]
  unfold State.lock
  rw [if_pos h]
  unfold State.issueNext
  split
  · rw [← h1]
    unfold State.rcl
    rw [State.issueFrom_rcc _ h2]
  · exact h1

end Sys2Proof.Machine
end

