-- ==== Sys2Proof/Laws/Stack.lean ====
section
/-! SUPPORT. The operations on the setting-group stack keep its shape (R94 to R96, R99, R100, R106). -/

namespace Sys2Proof.Machine

open Sys2Proof.Safety

/-- A stack stands in one of the orders of R94 and R106. -/
abbrev Shape (lock : Bool) (l : List StackEntry) : Prop := l.map (fun e => e.origin) ∈ stackShapes lock

/-! ### The same operations on the origins alone -/

def insertBelowO (o p : Origin) : List Origin → List Origin
  | [] => [p]
  | x :: xs => if x == o then p :: x :: xs else x :: insertBelowO o p xs

theorem insertBelow_origins (o : Origin) (e : StackEntry) (l : List StackEntry) :
    (insertBelow o e l).map (fun e => e.origin) = insertBelowO o e.origin (l.map (fun e => e.origin)) := by
  induction l with
  | nil => rfl
  | cons x xs ih =>
    unfold insertBelow
    simp only [List.map_cons, insertBelowO]
    split
    · rfl
    · rw [List.map_cons, ih]

theorem hasOrigin_origins (o : Origin) (l : List StackEntry) :
    hasOrigin o l = (l.map (fun e => e.origin)).contains o := by
  unfold hasOrigin
  rw [List.contains_eq_any_beq, List.any_map]
  exact congrArg (fun f => List.any l f) (funext fun e => by
    simp only [Function.comp]
    exact Bool.beq_comm)

theorem removeEntry_origins (o : Origin) (l : List StackEntry) :
    (removeEntry o l).map (fun e => e.origin) = (l.map (fun e => e.origin)).filter (fun p => p != o) := by
  unfold removeEntry
  rw [List.filter_map]
  rfl

theorem replaceGroup_origins (o : Origin) (g : GroupNo) (l : List StackEntry) :
    (replaceGroup o g l).map (fun e => e.origin) = l.map (fun e => e.origin) := by
  unfold replaceGroup
  rw [List.map_map]
  refine List.map_congr_left (fun e _ => ?_)
  simp only [Function.comp]
  split <;> rfl

def insertEntryO (lock : Bool) (p : Origin) (l : List Origin) : List Origin :=
  match p with
  | .hunt => l ++ [p]
  | .fire => insertBelowO .hunt p l
  | .manual => if lock && l.contains .fire then insertBelowO .fire p l else insertBelowO .hunt p l
  | .base => p :: l

theorem insertEntry_origins (lock : Bool) (e : StackEntry) (l : List StackEntry) :
    (insertEntry lock e l).map (fun e => e.origin) = insertEntryO lock e.origin (l.map (fun e => e.origin)) := by
  unfold insertEntry insertEntryO
  rw [hasOrigin_origins]
  cases h : e.origin <;> simp only
  · rw [List.map_cons, h]
  · split <;> rw [insertBelow_origins, h]
  · rw [insertBelow_origins, h]
  · rw [List.map_append, List.map_singleton, h]

def lockOrderO (l : List Origin) : List Origin :=
  if l.contains .manual then
    if (l.dropWhile (fun o => o != .manual)).contains .fire || !l.contains .fire then l
    else insertBelowO .fire .manual (l.filter (fun o => o != .manual))
  else l

theorem lockOrder_origins (l : List StackEntry) :
    (lockOrder l).map (fun e => e.origin) = lockOrderO (l.map (fun e => e.origin)) := by
  unfold lockOrder lockOrderO
  rw [← hasOrigin_origins, ← hasOrigin_origins]
  have hd : (l.map (fun e => e.origin)).dropWhile (fun o => o != .manual)
      = (l.dropWhile (fun e => e.origin != .manual)).map (fun e => e.origin) := by
    rw [List.dropWhile_map]; rfl
  rw [hd, ← hasOrigin_origins]
  cases hf : l.find? (fun e => e.origin == .manual) with
  | none =>
    have : hasOrigin .manual l = false := by
      unfold hasOrigin
      rw [List.find?_eq_none] at hf
      simpa using hf
    rw [this]
    simp
  | some m =>
    have h1 : hasOrigin .manual l = true := by
      unfold hasOrigin
      rw [List.any_eq_true]
      exact ⟨m, List.mem_of_find?_eq_some hf, List.find?_some (p := fun e : StackEntry => e.origin == .manual) hf⟩
    have h2 : m.origin = .manual := by
      have := List.find?_some (p := fun e : StackEntry => e.origin == .manual) hf
      simpa using this
    rw [h1]
    simp only [if_true]
    split
    · rfl
    · rw [insertBelow_origins, removeEntry_origins, h2]

/-! ### The shape is kept -/

theorem replaceGroup_shape {lock : Bool} {l : List StackEntry} (o : Origin) (g : GroupNo) (h : Shape lock l) :
    Shape lock (replaceGroup o g l) := by
  unfold Shape
  rw [replaceGroup_origins]
  exact h

theorem removeEntry_shape {lock : Bool} {l : List StackEntry} (o : Origin) (ho : o ≠ .base) (h : Shape lock l) :
    Shape lock (removeEntry o l) := by
  unfold Shape at *
  rw [removeEntry_origins]
  have : ∀ lock, ∀ o, o ≠ Origin.base → ∀ os ∈ stackShapes lock, os.filter (fun p => p != o) ∈ stackShapes lock := by
    intro lock o ho
    cases lock <;> cases o <;> first | exact absurd rfl ho | decide
  exact this lock o ho _ h

/-- An entry placed by R96 keeps the shape. -/
theorem placeEntry_shape {lock : Bool} {l : List StackEntry} (e : StackEntry) (h : Shape lock l) :
    Shape lock (placeEntry lock e l) := by
  unfold placeEntry
  split
  · exact replaceGroup_shape _ _ h
  · next hn =>
    rw [hasOrigin_origins] at hn
    unfold Shape at *
    rw [insertEntry_origins]
    have : ∀ lock, ∀ o, ∀ os ∈ stackShapes lock, ¬ os.contains o = true → insertEntryO lock o os ∈ stackShapes lock := by
      intro lock o
      cases lock <;> cases o <;> decide
    exact this lock _ _ h hn

/-- The order that the lock sets stands (R106). -/
theorem lockOrder_shape {lock : Bool} {l : List StackEntry} (h : Shape lock l) : Shape true (lockOrder l) := by
  unfold Shape at *
  rw [lockOrder_origins]
  have : ∀ lock, ∀ os ∈ stackShapes lock, lockOrderO os ∈ stackShapes true := by
    intro lock
    cases lock <;> decide
  exact this lock _ h

/-- An order that stands under the lock stands without it. -/
theorem unlock_shape {lock : Bool} {l : List StackEntry} (h : Shape lock l) : Shape false l := by
  have : ∀ lock, ∀ os ∈ stackShapes lock, os ∈ stackShapes false := by
    intro lock
    cases lock <;> decide
  exact this lock _ h

/-- The FIRE stack step keeps the shape (R100). -/
theorem fireStep_shape {s : State} (h : Shape s.fru.seasonLock s.fru.stack) : Shape s.fru.seasonLock s.fireStep.1 := by
  unfold State.fireStep
  dsimp only
  split
  · split
    · exact removeEntry_shape _ (by decide) h
    · exact h
  · split
    · exact placeEntry_shape _ h
    · exact h

/-! ### What stands after a removal -/

/-- After a removal the origin stands in the stack no more. -/
theorem hasOrigin_removeEntry (o : Origin) (l : List StackEntry) : hasOrigin o (removeEntry o l) = false := by
  unfold hasOrigin removeEntry
  rw [List.any_eq_false]
  intro e he
  have := (List.mem_filter.mp he).2
  simpa using this

end Sys2Proof.Machine
end

