-- ==== Sys2Proof/Tests/Slice0.lean ====
section
/-! SUPPORT. Tests: an ill-formed term for every check of WellFormed, op words written out from the op code table of chapter 10,
worked examples of the manual one step at a time, and for every statement states and operands that meet its hypotheses.  Expected
results come from the manual's tables and examples. -/

namespace Sys2Proof.Tests

open Sys2Proof Sys2Proof.Machine Sys2Proof.Safety

set_option Elab.async false

/-! ### A small station -/

/-- The curve of chapter 2, Example: building a curve. -/
def curve : Curve :=
  { count := some 4
    m := (((Curve.cold.m.put 0 (some 64)).put 1 (some 128)).put 2 (some 256)).put 3 (some 512)
    inc := (((Curve.cold.inc.put 0 (some 2000)).put 1 (some 20000)).put 2 (some 60000)).put 3 (some 120000) }

/-- A bay record: shots 3, dead times 500, 5000 and 15000 ms and reclaim 30000 ms, as in the example of chapter 4. -/
def bayRecord : BayRecord :=
  (#v[8000, 400, 0, 50, 255, 50, 100, 0, 50, 255, 50, 500000, 15, 400, 0, 1, 4, 3, 1, 1, 500, 5000, 15000, 15000, 30000] :
    Vector Nat 25).map some

/-- A setting group that is VALID; its station part is that of the NVD example of chapter 6. -/
def group : Group :=
  { bays := Vector.replicate 8 bayRecord, station := #v[some 100, some 60, some 4, some 3] }

/-- A bay's capability record with everything the F8 can use. -/
def capability (addr : Nat) : Capability :=
  { addr := some addr, inService := true, recloseCap := true, sefCap := true, hasLocal := true, hasInterlock := true,
    hasSpring := true }

/-- A bay reported CLOSED. -/
def closedBay : BayStatus :=
  { BayStatus.cold with position := .closed, presence := true, spring := true, silence := some 1000, springReported := true }

/-- A station of eight bays at addresses 10 to 17 and an incomer at 40, with VALID groups, at level OFF. -/
def station (part : PartState) : State :=
  let s := State.reset
  { s with
    mgu := { s.mgu with part := part }
    pru := { s.pru with groups := Vector.replicate 6 group, curves := Vector.replicate 8 curve }
    bcu := { s.bcu with
      cap := #v[capability 10, capability 11, capability 12, capability 13, capability 14, capability 15, capability 16,
                capability 17, { Capability.cold with addr := some 40, inService := true }]
      status := Vector.replicate 9 closedBay }
    fru := { s.fru with commanded := 0, effective := 0 }
    rcc := Vector.replicate 8 { RecloseRecord.cold with
      state := .idleClosed, lastDefinite := some .closed, block := { RecloseRecord.cold.block with capability := false } } }

/-- A request in progress that has one op left, the one for the command. -/
def req (c : Instr) (n : Rec) (x : Option (BitVec 20)) : Progress :=
  { tag := 260, stop := false, src := 7, opCount := 1, ops := [(opWord c).getD 0], entries := [], blocks := [], widen := x,
    context := n }

/-- The state with that request in progress, at a bay context and with a pending widen. -/
def asking (c : Instr) (n : Rec) (x : Option (BitVec 20)) (s : State) : State := s.setCur (some (req c n x))

/-- The command is carried out in that state. -/
def Asked (c : Instr) (n : Rec) (x : Option (BitVec 20)) (s : State) : Prop := Runs (asking c n x s) c (req c n x)

theorem asked_of {c : Instr} {n : Rec} {x : Option (BitVec 20)} {s : State} (live : s.pins.resetHeld = false)
    (word : opMatches c ((opWord c).getD 0) = true) : Asked c n x s := by
  refine ⟨live, ?_⟩
  simpa [State.asked, asking, req, State.setCur] using word

/-- The pending widen and the immediate that carry a value. -/
def wide (v : Nat) : Option (BitVec 20) := if v < 4096 then none else some (BitVec.ofNat 20 (v / 4096))
def low (v : Nat) : BitVec 12 := BitVec.ofNat 12 v

/-- A write of a value at an address is carried out: the row is the address and the value. -/
def Row (c : BitVec 8 → BitVec 12 → Instr) (n : Rec) (s : State) (q : Nat × Nat) : Prop :=
  let i := c (BitVec.ofNat 8 q.1) (low q.2)
  Asked i n (wide q.2) s ∧ (valueOf (req i n (wide q.2)) (low q.2)).toNat = q.2 ∧ (BitVec.ofNat 8 q.1).toNat = q.1

theorem rows_of {c : BitVec 8 → BitVec 12 → Instr} {n : Rec} {s : State} {l : List (Nat × Nat)}
    (live : s.pins.resetHeld = false)
    (words : (l.all fun q =>
      let i := c (BitVec.ofNat 8 q.1) (low q.2)
      opMatches i ((opWord i).getD 0) && (valueOf (req i n (wide q.2)) (low q.2)).toNat == q.2 &&
        (BitVec.ofNat 8 q.1).toNat == q.1) = true) : ∀ q ∈ l, Row c n s q := by
  intro q h
  have k := List.all_eq_true.mp words q h
  simp only [Bool.and_eq_true, beq_iff_eq] at k
  exact ⟨asked_of live k.1.1, k.1.2, k.2⟩

/-- An op with a value is carried out. -/
def Imm (c : BitVec 12 → Instr) (n : Rec) (s : State) (v : Nat) : Prop :=
  Asked (c (low v)) n (wide v) s ∧ (valueOf (req (c (low v)) n (wide v)) (low v)).toNat = v

theorem imms_of {c : BitVec 12 → Instr} {n : Rec} {s : State} {l : List Nat} (live : s.pins.resetHeld = false)
    (words : (l.all fun v => opMatches (c (low v)) ((opWord (c (low v))).getD 0) &&
      (valueOf (req (c (low v)) n (wide v)) (low v)).toNat == v) = true) : ∀ v ∈ l, Imm c n s v := by
  intro v h
  have k := List.all_eq_true.mp words v h
  simp only [Bool.and_eq_true, beq_iff_eq] at k
  exact ⟨asked_of live k.1, k.2⟩

/-- The state after a command. -/
def after (c : Instr) (s : State) : State :=
  match exec c s with
  | .next t => t
  | _ => s

/-! ### Ill-formed terms -/

theorem test_long_sample_illFormed : (Instr.sampleFrame 63 9 (List.replicate 1025 0)).wellFormed = false := by decide +kernel
theorem test_long_baystat_illFormed : (Instr.baystatFrame 63 9 (List.replicate 1025 0)).wellFormed = false := by decide +kernel
theorem test_long_request_illFormed : (Instr.mgmtReqFrame 1 9 (List.replicate 1025 0)).wellFormed = false := by decide +kernel
theorem test_known_badOp_illFormed : (Instr.badOp 0x62000000).wellFormed = false := by decide
theorem test_plain_write_illFormed : (Instr.write 0x100 1).wellFormed = false := by decide
theorem test_writeSource_illFormed :
    (Instr.writeSource 3 1).wellFormed = false ∧ (Instr.writeSource 0xC0 1).wellFormed = false := by decide
theorem test_writeCapability_illFormed : (Instr.writeCapability 7 1).wellFormed = false := by decide
theorem test_writeGroup_illFormed :
    (Instr.writeGroup 25 1).wellFormed = false ∧ (Instr.writeGroup 0xC0 1).wellFormed = false := by decide
theorem test_writeCurve_illFormed : (Instr.writeCurve true 1 2).wellFormed = false := by decide
theorem test_writeFireMap_illFormed :
    (Instr.writeFireMap 5 1).wellFormed = false ∧ (Instr.writeFireMap 0xA0 1).wellFormed = false := by decide
theorem test_writeHuntTable_illFormed :
    (Instr.writeHuntTable 5 1).wellFormed = false ∧ (Instr.writeHuntTable 32 1).wellFormed = false := by decide
theorem test_writeSegment_illFormed : (Instr.writeSegment 4 1).wellFormed = false := by decide
theorem test_writeCaptureConfig_illFormed :
    (Instr.writeCaptureConfig 5 1).wellFormed = false ∧ (Instr.writeCaptureConfig 0x40 1).wellFormed = false := by decide
theorem test_writeEventConfig_illFormed :
    (Instr.writeEventConfig 2 1).wellFormed = false ∧ (Instr.writeEventConfig 0xC0 1).wellFormed = false := by decide

/-! ### Op words, from chapter 10 and the example of chapter 11 -/

theorem test_word_bayContext : decodeOp 0x01000003 = .bayContext 3 := by decide
theorem test_word_widen : decodeOp 0x02004000 = .widen 4 0 ∧ decodeOp 0x02000004 = .widen 0 4 := by decide
theorem test_word_write : decodeOp 0x103B4E20 = .writeGroup 180 3616 := by decide
theorem test_word_write_unwritable : decodeOp 0x103BF001 = .write 0x3BF 1 := by decide
theorem test_word_read : decodeOp 0x113BF000 = .read 959 := by decide
theorem test_word_pushManual : decodeOp 0x21000005 = .pushManual 5 := by decide
theorem test_word_setFireLevel : decodeOp 0x28000004 = .setFireLevel 4 := by decide
theorem test_word_blockRange : decodeOp 0x34000023 = .blockRange 35 := by decide
theorem test_word_restart : decodeOp 0x62000000 = .restart := by decide
theorem test_word_badOp : decodeOp 0x37000000 = .badOp 0x37000000 := by decide

/-! ### Worked values of the manual -/

/-- The standard check value of the CRC that chapter 10 names: polynomial 0x1021 from 0xFFFF, over the digits 1 to 9. -/
theorem test_check : crc16 [0x31, 0x32, 0x33, 0x34, 0x35, 0x36, 0x37, 0x38, 0x39] = 0x29B1 := by decide +kernel

/-- Chapter 2, Example: building a curve. -/
theorem test_curve_validity :
    curve.failure = none ∧ ({ curve with inc := curve.inc.put 3 (some 40000) }).failure = some (4, 3) ∧
      ({ Curve.cold with count := some 4 }).failure = some (1, 0) := by decide +kernel

/-- Chapter 2, Example: a trip from evaluation to confirmation: multiple 1440, increment 120000, halved TMS, full scale. -/
theorem test_accumulator_trips :
    multiple 9000 400 = 1440 ∧ accStep curve.points 50 500000 400 9000 16600000 = (16777216, true) ∧
      accStep curve.points 50 500000 400 0 16777216 = (16277216, false) := by decide +kernel

/-- Chapter 6, Example: an SEF run, its last row. -/
theorem test_sef_cap : sefStep true 400 299 = (300, false) ∧ sefStep true 200 300 = (200, true) := by decide

/-- Chapter 11, the widen of −100. -/
theorem test_widen_negative : (widened (some 0xFFFFF) 0xF9C).toInt = -100 := by decide

/-- Chapter 11, Example: setting the clock. -/
theorem test_setTime :
    let s := asking (.setTime 2560) 0 (some 244140) { station .active with mono := 7200000 }
    (after (.setTime 2560) s).stamp = 1000000000 ∧ (after (.setTime 2560) s).mgu.offset = 992800000 := by decide +kernel

/-- Chapter 5, a fire-season day, 11:00: FIRE goes on top of the MANUAL entry pushed earlier. -/
theorem test_setFireLevel :
    let s := station .active
    let s := { s with fru := { s.fru with
      commanded := 1, effective := 1, fireMap := s.fru.fireMap.put 2 { s.fru.fireMap.look 2 with group := some 2 },
      stack := [⟨.base, 0, 0⟩, ⟨.manual, 1, 0⟩] } }
    (after (.setFireLevel 2) (asking (.setFireLevel 2) 0 none s)).fru.stack =
      [⟨.base, 0, 0⟩, ⟨.manual, 1, 0⟩, ⟨.fire, 2, 0⟩] := by decide +kernel

/-- Chapter 5, the season lock through a ban: MANUAL moves directly below FIRE. -/
theorem test_seasonLock :
    let s := station .active
    let s := { s with fru := { s.fru with stack := [⟨.base, 0, 0⟩, ⟨.fire, 2, 0⟩, ⟨.manual, 1, 0⟩] } }
    (after .seasonLock (asking .seasonLock 0 none s)).fru.stack = [⟨.base, 0, 0⟩, ⟨.manual, 1, 0⟩, ⟨.fire, 2, 0⟩] := by
  decide +kernel

/-- A bay in DEAD whose dead time has run out, with last tag 41 (chapter 3, Example: a trip overtakes a reclose). -/
def deadBay : State :=
  let s := station .active
  let s := s.setSlot 3 { s.slot 3 with lastTag := 41 }
  let s := s.setStatus 3 { s.status 3 with position := .opened }
  s.setRcl 3 { s.rcl 3 with state := .dead, deadTimer := some 0, lastDefinite := some .opened }

/-- Chapter 3, the same example, 0 ms. -/
theorem test_deadTimerExpiry :
    ((after (.deadTimerExpiry 3) deadBay).slot 3).lastTag = 42 ∧
      ((after (.deadTimerExpiry 3) deadBay).rcl 3).state = .closing .issued ∧
      ((after (.deadTimerExpiry 3) deadBay).rcl 3).shots = 1 := by decide +kernel

/-- Chapter 3, the same example, 66 ms: the CLOSE that was echoed completes when the position is reported CLOSED. -/
theorem test_baystat_completes :
    let f : Flight := { cmd := .closing, tag := 42, cls := .reclose, issued := 0, tripAttached := false, timer := 184 }
    let s := (deadBay.setSlot 3 { deadBay.slot 3 with lastTag := 42, state := .echoed f }).setRcl 3
      { deadBay.rcl 3 with state := .closing .issued, shots := 1, deadTimer := none }
    let t := after (.baystatFrame 63 13 [2, 4, 4, 0, 0]) s
    (t.slot 3).state = .free ∧ (t.rcl 3).state = .reclaim ∧ (t.rcl 3).reclaimTimer = .running 30000 := by decide +kernel

/-- A trip OPEN whose time has run out at slot 6, and the backup free (chapter 3, Example: a breaker fail). -/
def failedTrip : State :=
  let s := station .active
  let s := s.setElem 6 { s.elem 6 with latch := some .ptoc }
  let f : Flight := { cmd := .opening, tag := 9, cls := .trip, issued := 0, tripAttached := true, timer := 0 }
  s.setSlot 6 { s.slot 6 with lastTag := 9, state := .inFlight f }

/-- Chapter 3, the same example, 120 ms. -/
theorem test_commandTimeout :
    let t := after (.commandTimeout 6) failedTrip
    t.bcu.backupFlag = true ∧ t.mgu.part = .active ∧ (t.rcl 6).state = .lockout .breakerFail ∧ (t.slot 8).lastTag = 1 ∧
      t.recd.count = 1 := by decide +kernel

/-- R82: base 6 and count 4 are clipped to bays 6 and 7. -/
theorem test_blockRange_clips :
    let t := after (.blockRange 0x64) (asking (.blockRange 0x64) 0 none (station .active))
    (allBays.map fun b => (t.rcl b).block.manual) = [false, false, false, false, false, false, true, true] := by
  decide +kernel

/-- R196: a held part takes no command. -/
theorem test_reset_holds :
    let s := after .resetPinAsserted (station .active)
    after .outTake s = s ∧ (after (.coldReset 63) s).mgu.part = .bypass := by decide +kernel

/-! ### States and operands that meet the hypotheses of the statements

Each theorem is named after its statement.  A row of a write is its address and its value; the values are at the bounds of the
statement's clauses. -/

theorem witness_StepRunsFront : ({ station .active with pending := [.outTake] } : State).pending = .outTake :: [] := rfl

/-- A request that waits. -/
def waiting : Request := { tag := 260, stop := true, ops := [0x22000000, 0x28000001], src := 7 }

/-- A readout in progress of 33 rows. -/
def readout : Readout := { chan := 1, next := 0, left := 33, dest := 7 }

theorem witness_IdleStepGoesOn :
    let s := station .active
    let held : State := { s with pins := { s.pins with resetHeld := true } }
    let reading : State := { s with recd := { s.recd with readouts := [readout] } }
    let queued : State := { s with mgu := { s.mgu with queue := [waiting] } }
    let busy := asking .popManual 0 none s
    (held.pending = [] ∧ held.pins.resetHeld = true) ∧
    (reading.pending = [] ∧ reading.pins.resetHeld = false ∧ reading.canPlaceBlock = true) ∧
    (busy.pending = [] ∧ busy.canPlaceBlock = false ∧ busy.nextOp = some .popManual) ∧
    (queued.pending = [] ∧ queued.nextOp = none ∧ queued.canStart = true) ∧
    (s.pending = [] ∧ s.canPlaceBlock = false ∧ s.nextOp = none ∧ s.canStart = false) ∧
    -- timers at 1, whose expiry the tick puts in the queue
    (let s := deadBay.setRcl 3 { deadBay.rcl 3 with deadTimer := some 1 }
     let s := s.setStatus 8 { s.status 8 with silence := some 1 }
     s.tick.dueEvents = [.baystatSilenceExpiry 8, .deadTimerExpiry 3]) := by decide +kernel

theorem witness_OpWordsDecode :
    (Instr.writeEventConfig 0xB9 4095).wellFormed = true ∧
      opWord (.writeEventConfig 0xB9 4095) = some 0x10FB9FFF ∧
      (Instr.badOp 0xFFFFFFFF).wellFormed = true ∧ opWord (.badOp 0xFFFFFFFF) = some 0xFFFFFFFF := by decide +kernel

theorem witness_RequestStarts :
    let s := station .active
    let s : State := { s with mgu := { s.mgu with queue := [waiting] }, riu := { s.riu with replies := [buildFrame 7 1 0x32 []] } }
    s.pins.resetHeld = false ∧ s.mgu.cur = none ∧ s.riu.replies.length = 1 ∧ s.mgu.queue = waiting :: [] ∧
      (station .active).mgu.queue = [] := by decide +kernel

theorem witness_OpAnswerEntered :
    let go : Progress := { waiting.start with stop := true }
    let last : Progress := { go with ops := [0x22000000] }
    let s := station .active
    ((s.setCur (some go)).mgu.cur = some go ∧ go.ops = 0x22000000 :: [0x28000001] ∧ ([0x28000001] : List Word32) ≠ [] ∧
      (go.stop && (ResultCode.ok != .ok)) = false ∧ (go.stop && (ResultCode.badArg != .ok)) = true) ∧
    ((s.setCur (some last)).mgu.cur = some last ∧ last.ops = 0x22000000 :: []) ∧
    (let p := req (.readRecords 1) 0 none
     p.stop = false ∧ p.size + 3 + (1021 - p.size) = 1024 ∧ p.size + 3 + (1022 - p.size) = 1025) ∧
    (let a : Answer := { code := .ok, value := 1, block := some [7, 8, 9] }
     a.block = some [7, 8, 9] ∧ last.size + 3 + 3 ≤ 1024 ∧ go.size + 3 + 3 ≤ 1024) := by decide +kernel

theorem witness_WidenPends :
    Asked (.badOp 0x37000000) 0 none (station .active) ∧ Asked (.widen 0xFFF 0xFFF) 0 (some 1) (station .active) :=
  ⟨asked_of rfl (by decide), asked_of rfl (by decide)⟩

theorem witness_BayContextJudged : ∀ v ∈ [0, 8, 9, 4095, 4096], Imm .bayContext 0 (station .active) v :=
  imms_of rfl (by decide +kernel)

theorem witness_WriteJudgedByItsTable :
    ∀ t ∈ [0x100, 0x200, 0x300, 0x400, 0x500, 0x800, 0xA00, 0xC00, 0xD00, 0xF00, 0x000, 0x501, 0xFFF].map (BitVec.ofNat 12),
      Asked (.write t 1) 0 none (station .unconfigured) := by
  intro t h
  exact asked_of rfl (List.all_eq_true.mp
    (show (([0x100, 0x200, 0x300, 0x400, 0x500, 0x800, 0xA00, 0xC00, 0xD00, 0xF00, 0x000, 0x501, 0xFFF].map
      (BitVec.ofNat 12)).all fun t => opMatches (.write t 1) ((opWord (.write t 1)).getD 0)) = true by decide +kernel) t h)

/-- A source table in which entries 0 and 3 are in use, and 1 and 4 are not. -/
def sources (part : PartState) : State :=
  let s := station part
  { s with meu := { s.meu with table := (((s.meu.table.put 0 ⟨some 30, some .bus, true⟩).put 1 ⟨some 30, some (.bay 0), false⟩).put
      3 ⟨some 33, some (.bay 3), true⟩).put 4 ⟨some 34, some (.bay 4), false⟩ } }

theorem witness_SourceWriteRefused :
    (∀ q ∈ [(0x00, 0), (0x00, 63), (0x00, 1), (0x00, 33), (0x01, 9), (0x01, 3), (0x22, 1), (0x12, 1), (0x02, 2)],
      Row .writeSource 0 (sources .unconfigured) q) ∧
    (∀ q ∈ [(0xB2, 1)], Row .writeSource 0 (sources .active) q) ∧
    (let s := sources .unconfigured
     (s.src 0).inUse = true ∧ (s.src 3).inUse = true ∧ (s.src 3).addr = some 33 ∧ (s.src 3).role = roleOf 3 ∧
      (s.src 2).addr = none ∧ (s.src 1).addr = (s.src 0).addr ∧ s.riu.own.toNat = 1) :=
  ⟨rows_of rfl (by decide +kernel), rows_of rfl (by decide +kernel), by decide +kernel⟩

theorem witness_SourceWriteStored :
    (∀ q ∈ [(0x00, 62), (0x00, 30), (0x01, 0), (0x01, 8), (0x02, 0), (0x42, 1), (0x10, 2)],
      Row .writeSource 0 (sources .unconfigured) q) ∧
    (let s := sources .unconfigured
     (s.src 4).addr = some 34 ∧ (s.src 4).role = roleOf 4 ∧ (s.src 0).role = roleOf 8 ∧
      ∀ f : SrcIx, f ≠ 4 → (s.src f).inUse = true → (s.src f).addr ≠ some 34 ∧ (s.src f).role ≠ roleOf 4) :=
  ⟨rows_of rfl (by decide +kernel), by decide +kernel⟩

theorem witness_GroupWriteJudged :
    (∀ q ∈ [(180, 100), (180, 180000), (180, 99), (180, 180001), (184, 600000), (160, 0)],
      Row .writeGroup 3 (station .active) q) ∧
    (∀ q ∈ [(0, 500)], Row .writeGroup 3 (station .active) q) ∧
    (∀ q ∈ [(0, 20), (0, 801), (3, 200), (4, 7), (24, 1000)], Row .writeGroup 8 (station .unconfigured) q) ∧
    (∀ q ∈ [(0, 500, 499), (0, 40000, 40001), (1, 50, 49), (1, 20000, 20001), (2, 7, 8), (3, 5, 4), (10, 150, 151), (4, 255, 254),
        (6, 20, 19), (6, 10000, 10001), (11, 16777216, 16777217), (12, 2, 1), (12, 2000, 2001), (13, 1, 0), (13, 12000, 12001),
        (14, 1, 2), (16, 1, 0), (16, 1000, 1001), (17, 4, 5), (23, 180000, 180001), (24, 1000, 999), (24, 600000, 600001)],
      bayFieldOk q.1 q.2.1 = true ∧ bayFieldOk q.1 q.2.2 = false) ∧
    (∀ q ∈ [(0, 20, 19), (0, 800, 801), (1, 799, 800), (2, 2000, 2001), (3, 200, 201), (3, 1, 0)],
      stationFieldOk q.1 q.2.1 = true ∧ stationFieldOk q.1 q.2.2 = false) ∧
    bayFieldOk 20 100 = true ∧ bayFieldOk 20 180000 = true ∧ bayFieldOk 20 99 = false ∧ bayFieldOk 20 180001 = false ∧
    (∃ e ∈ (station .active).fru.stack, e.group = 0) ∧ (¬ ∃ e ∈ (station .active).fru.stack, e.group = 5) :=
  ⟨rows_of rfl (by decide +kernel), rows_of rfl (by decide +kernel), rows_of rfl (by decide +kernel), by decide +kernel⟩

theorem witness_CurveWriteJudged :
    (∀ q ∈ [(0, 2), (0, 16), (224, 1), (224, 17)], Row (.writeCurve true) 0 (station .unconfigured) q) ∧
    (∀ q ∈ [(0, 1), (15, 2560), (224, 2561), (16, 16777216), (255, 1), (255, 16777217), (0, 0)],
      Row (.writeCurve false) 0 (station .unconfigured) q) ∧
    (∀ q ∈ [(0, 1)], Row (.writeCurve false) 0 (station .active) q) ∧
    (station .active).curveInUse 0 = true ∧ (station .unconfigured).curveInUse 7 = false := by
  refine ⟨?_, rows_of rfl (by decide +kernel), rows_of rfl (by decide +kernel), by decide +kernel, by decide +kernel⟩
  exact rows_of rfl (by decide +kernel)

/-- Record 5 without an address, and slot 6 busy. -/
def partlyLoaded : State :=
  let s := station .unconfigured
  let f : Flight := { cmd := .indicate .on, tag := 9, cls := .management, issued := 0, tripAttached := false, timer := 7 }
  (s.setCap 5 Capability.cold).setSlot 6 { s.slot 6 with lastTag := 9, state := .inFlight f }

theorem witness_CapabilityWriteRefused :
    (∀ q ∈ [(0, 62)], Row .writeCapability 0 (station .standdown) q) ∧
    (∀ q ∈ [(2, 0), (6, 1)], Row .writeCapability 8 partlyLoaded q) ∧
    (∀ q ∈ [(0, 0), (0, 63), (0, 1), (0, 11), (1, 1), (1, 2), (6, 2)], Row .writeCapability 5 partlyLoaded q) ∧
    (∀ q ∈ [(0, 62), (1, 0), (1, 1), (2, 0), (6, 1)], Row .writeCapability 6 partlyLoaded q) ∧
    (partlyLoaded.cap 5).addr = none ∧ (partlyLoaded.cap 1).addr = some 11 ∧ (partlyLoaded.slot 6).busy = true ∧
    (∀ m, (partlyLoaded.cap m).addr ≠ some 62) :=
  ⟨rows_of rfl (by decide +kernel), rows_of rfl (by decide +kernel), rows_of rfl (by decide +kernel),
    rows_of rfl (by decide +kernel), by decide +kernel⟩

theorem witness_CapabilityWriteStored :
    (∀ q ∈ [(0, 62), (0, 2), (1, 0), (1, 1), (2, 0), (2, 1), (3, 0), (4, 0), (5, 0), (6, 0)],
      Row .writeCapability 0 (station .unconfigured) q) ∧
    (∀ v ∈ [0, 2, 62, 63], Imm .setBackupAddr 0 (station .unconfigured) v) ∧
    (∀ v ∈ [0], Imm .setBackupAddr 0 (station .active) v) ∧
    (let s := station .unconfigured
     (∀ n, (s.slot n).busy = false) ∧ (∀ m, (s.cap m).addr ≠ some 62 ∧ (s.cap m).addr ≠ some 2) ∧
      (s.cap 0).recloseCap = true) :=
  ⟨rows_of rfl (by decide +kernel), imms_of rfl (by decide +kernel), imms_of rfl (by decide +kernel), by decide +kernel⟩

/-- The groups are all unset. -/
def noGroups (part : PartState) : State :=
  let s := station part
  { s with pru := { s.pru with groups := Vector.replicate 6 Group.cold } }

/-- The season lock is engaged. -/
def locked : State :=
  let s := station .active
  { s with fru := { s.fru with seasonLock := true } }

theorem witness_FireMapWriteRefused :
    (∀ q ∈ [(0, 6), (128, 254), (0, 256), (1, 256), (2, 5), (3, 2), (132, 12001)], Row .writeFireMap 0 locked q) ∧
    (∀ q ∈ [(0, 5), (0, 255), (1, 255), (2, 4), (3, 1), (132, 12000)], Row .writeFireMap 0 locked q) ∧
    (∀ q ∈ [(0, 0), (0, 5)], Row .writeFireMap 0 (noGroups .active) q) ∧
    locked.fru.seasonLock = true ∧ (noGroups .active).fru.effective = 0 ∧ (noGroups .active).groupValid 5 = false :=
  ⟨rows_of rfl (by decide +kernel), rows_of rfl (by decide +kernel), rows_of rfl (by decide +kernel), by decide +kernel⟩

theorem witness_FireMapWriteStored :
    (∀ q ∈ [(0, 255), (0, 0), (0, 5), (1, 255), (2, 4), (3, 1), (4, 12000), (128, 0), (129, 0), (132, 0)],
      Row .writeFireMap 0 (station .active) q) ∧
    (station .active).fru.seasonLock = false ∧ (station .active).groupValid 5 = true ∧ (station .active).fru.effective = 0 :=
  ⟨rows_of rfl (by decide +kernel), by decide +kernel⟩

/-- Bay 4 stands in plan position 7, and bay 7 is not in service. -/
def planned (st : HuntState) : State :=
  let s := station .active
  let s := s.setCap 7 { s.cap 7 with inService := false }
  s.setHnc { s.hnc with state := st, table := { s.hnc.table with plan := s.hnc.table.plan.put 7 ⟨some 4, 3000⟩ } }

theorem witness_HuntTableWriteJudged :
    (∀ q ∈ [(0, 1), (0, 2), (1, 255), (1, 5), (1, 6), (1, 256), (2, 1000), (2, 600000), (2, 999), (3, 600001), (3, 1000), (4, 1),
        (4, 5), (4, 0), (4, 6), (17, 500), (31, 60000), (17, 499), (31, 60001), (16, 8), (30, 254), (16, 255), (16, 4), (16, 7),
        (16, 0), (30, 4)], Row .writeHuntTable 0 (planned .idle) q) ∧
    (∀ q ∈ [(0, 1)], Row .writeHuntTable 0 (planned .waiting) q) ∧
    ((planned .idle).hnc.table.plan.look 7).bay = some 4 ∧ ((planned .idle).cap 7).inService = false :=
  ⟨rows_of rfl (by decide +kernel), rows_of rfl (by decide +kernel), by decide +kernel⟩

/-- Channel 1 is ARMED. -/
def armed : State :=
  let s := station .active
  s.setChan 1 { s.chan 1 with state := .armed }

theorem witness_RecorderWriteJudged :
    (∀ q ∈ [(0, 7), (248, 255), (0, 8), (0, 254), (1, 4294934528), (1, 32767), (2, 32768), (2, 4294934527), (251, 255), (3, 256)],
      Row .writeSegment 0 (station .active) q) ∧
    (∀ q ∈ [(0, 23), (0, 24), (1, 7), (1, 8), (2, 4), (2, 5), (3, 1), (51, 64), (3, 0), (3, 65), (4, 1), (52, 2)],
      Row .writeCaptureConfig 0 (station .active) q) ∧
    (∀ q ∈ [(16, 0)], Row .writeCaptureConfig 0 armed q) ∧
    (BitVec.ofNat 32 4294934528).toInt = -32768 ∧ (BitVec.ofNat 32 4294934527).toInt = -32769 ∧
    (armed.chan 1).state = .armed :=
  ⟨rows_of rfl (by decide +kernel), rows_of rfl (by decide +kernel), rows_of rfl (by decide +kernel), by decide +kernel⟩

theorem witness_EventWriteJudged :
    (∀ q ∈ [(0, 1), (184, 0), (0, 2), (185, 7), (1, 8)], Row .writeEventConfig 0 (station .active) q) ∧
    ((station .active).fac 23).enable = false :=
  ⟨rows_of rfl (by decide +kernel), by decide +kernel⟩

/-- Targets at the first and last field of every target table and next to them. -/
def targets : List (BitVec 12) :=
  [0x000, 0x005, 0x00B, 0x00E, 0x00F, 0x0FF, 0x100, 0x1B7, 0x108, 0x1C0, 0x200, 0x206, 0x207, 0x210, 0x216, 0x217, 0x220, 0x22A,
   0x22B, 0x300, 0x303, 0x304, 0x318, 0x319, 0x31E, 0x3BF, 0x3C0, 0x400, 0x4FF, 0x500, 0x5E3, 0x504, 0x600, 0x605, 0x606, 0x610,
   0x618, 0x619, 0x700, 0x702, 0x705, 0x706, 0x708, 0x70F, 0x710, 0x715, 0x716, 0x800, 0x884, 0x885, 0x8A0, 0x900, 0x902, 0x903,
   0xA00, 0xA04, 0xA05, 0xA10, 0xA1F, 0xA20, 0xB00, 0xB09, 0xB0A, 0xB40, 0xB5F, 0xB60, 0xC00, 0xCFB, 0xCFC, 0xD00, 0xD04, 0xD05,
   0xD08, 0xD3D, 0xD3E, 0xD40, 0xE00, 0xEBF, 0xEC0, 0xF00, 0xFBA, 0xFBB, 0xFC0].map (BitVec.ofNat 12)

/-- Three records, in slots 15, 0 and 1. -/
def recorded : State :=
  let s := station .active
  let s : State := { s with recd := { s.recd with top := 14 } }
  ((s.bayRecord 3 .huntFound).bayRecord 4 .huntFound).bayRecord 5 .breakerFail

theorem witness_ReadsAnswer :
    (∀ n ∈ [5, 8], ∀ t ∈ targets, Asked (.read t) n none partlyLoaded) ∧
    (∀ v ∈ [0, 1, 2, 3], Imm .readStatus 0 (station .active) v) ∧
    (∀ v ∈ [0, 1, 16, 17], Imm .readRecords 0 (station .active) v) ∧ (station .active).recd.count = 0 ∧
    -- fewer records asked for than there are, as many, and more; the newest in slot 1
    (∀ v ∈ [1, 2, 3, 16], Imm .readRecords 0 recorded v) ∧ recorded.recd.count = 3 ∧ recorded.recd.top = 1 ∧
    (∀ k, k < 3 → recorded.recd.ring.look (recorded.recd.top - Fin.ofNat 16 k) ≠ none) ∧
    (recorded.newestRecords 16).map (fun r => r.bay) = [5, 4, 3] := by
  refine ⟨fun n _ t h => asked_of rfl ?_, imms_of rfl (by decide +kernel), imms_of rfl (by decide +kernel), rfl,
    imms_of rfl (by decide +kernel), by decide +kernel⟩
  exact List.all_eq_true.mp (show (targets.all fun t => opMatches (.read t) ((opWord (.read t)).getD 0)) = true
    by decide +kernel) t h

/-- Channel 1 is DONE with 64 rows. -/
def captured : State :=
  let s := station .active
  let z : Quad := { a := 0, b := 0, c := 0, n := 0 }
  s.setChan 1 { s.chan 1 with state := .done, rows := List.replicate 64 ⟨0, false, z, none⟩ }

theorem witness_CaptureReadout :
    (∀ v ∈ [0x1000000, 0x4000001, 0x1000001, 0x1000040, 0x1000041, 0x1020020, 0x1020021, 0x0000001],
      Imm .readCapture 0 captured v) ∧
    (captured.chan 1).rows.length = 64 ∧ (captured.chan 0).rows = [] ∧ captured.recd.readouts = [] ∧
    -- two blocks where one place is free
    (let s : State := { captured with riu := { captured.riu with capQueue := List.replicate 3 (buildFrame 7 1 0x42 []) } }
     s.recd.readouts = [] ∧ min (4 - s.riu.capQueue.length) ((64 + 31) / 32) = 1 ∧ ¬ 64 ≤ 32 * 1) ∧
    (let s : State := { captured with recd := { captured.recd with readouts := [readout] } }
     s.recd.readouts = readout :: [] ∧ s.riu.capQueue.length < 4 ∧ 32 < readout.left ∧ (∃ r ∈ s.recd.readouts, r.chan = 1)) :=
  ⟨imms_of rfl (by decide +kernel), by decide +kernel⟩

/-- A stack in an order of R96, with the season lock as given. -/
def stacked (lock : Bool) (l : List Origin) : State :=
  let s := station .active
  { s with fru := { s.fru with seasonLock := lock, stack := l.map (fun o => ⟨o, 1, 0⟩) } }

theorem witness_StackOpsAct :
    (∀ v ∈ [5, 6], Imm .selectBaseGroup 0 (station .active) v) ∧ (∀ v ∈ [5, 6], Imm .pushManual 0 (station .active) v) ∧
    (∀ v ∈ [0], Imm .selectBaseGroup 0 (noGroups .active) v) ∧
    (∀ v ∈ [5], Imm .pushManual 0 (stacked true [.base, .fire, .hunt]) v) ∧
    (∀ v ∈ [5], Imm .pushManual 0 (stacked true [.base, .manual, .fire]) v) ∧
    (∀ v ∈ [5], Imm .pushManual 0 (stacked false [.base, .fire, .hunt]) v) ∧
    Asked .popManual 0 none (stacked false [.base, .manual]) ∧ Asked .popManual 0 none (station .active) ∧
    (station .active).groupValid 5 = true ∧ (noGroups .active).groupValid 0 = false ∧
    (stacked true [.base, .fire, .hunt]).fru.stack = [⟨.base, 1, 0⟩] ++ ⟨.fire, 1, 0⟩ :: [⟨.hunt, 1, 0⟩] :=
  ⟨imms_of rfl (by decide +kernel), imms_of rfl (by decide +kernel), imms_of rfl (by decide +kernel),
    imms_of rfl (by decide +kernel), imms_of rfl (by decide +kernel), imms_of rfl (by decide +kernel),
    asked_of rfl (by decide), asked_of rfl (by decide), by decide +kernel⟩

theorem witness_FireLevelFormed :
    (∀ v ∈ [0, 4, 5], Imm .setFireLevel 0 (station .active) v) ∧ (∀ v ∈ [4], Imm .setFireLevel 0 (station .bypass) v) ∧
    (station .active).pins.resetHeld = false ∧ (max 4 (station .active).fru.pinLevel ≠ (station .active).fru.effective) ∧
    (max 0 (station .active).fru.pinLevel = (station .active).fru.effective) :=
  ⟨imms_of rfl (by decide +kernel), imms_of rfl (by decide +kernel), by decide +kernel⟩

theorem witness_SeasonLockJudged :
    Asked .seasonLock 0 none locked ∧ Asked .seasonLock 0 none (stacked false [.base, .fire, .manual, .hunt]) ∧
    Asked .seasonLock 0 none (stacked false [.base, .manual, .fire]) ∧ Asked .seasonLock 0 none (station .active) ∧
    Asked .seasonUnlock 0 none (station .active) ∧ Asked .seasonUnlock 0 none locked ∧
    (stacked false [.base, .fire, .manual, .hunt]).fru.stack =
      [⟨.base, 1, 0⟩] ++ ⟨.fire, 1, 0⟩ :: ⟨.manual, 1, 0⟩ :: [⟨.hunt, 1, 0⟩] ∧ locked.fru.effective = 0 ∧
    ({ locked with fru := { locked.fru with effective := 4 } } : State).fru.effective ≠ 0 :=
  ⟨asked_of rfl (by decide), asked_of rfl (by decide), asked_of rfl (by decide), asked_of rfl (by decide),
    asked_of rfl (by decide), asked_of rfl (by decide), by decide +kernel⟩

/-- Bay 3 is OPEN and in LOCKOUT. -/
def lockedOut : State :=
  let s := station .active
  let s := s.setStatus 3 { s.status 3 with position := .opened }
  s.setRcl 3 { s.rcl 3 with state := .lockout .shotsExhausted, shots := 3, lastDefinite := some .opened }

theorem witness_SwitchingActs :
    Asked .bayOpen 3 none lockedOut ∧ Asked .bayOpen 8 none lockedOut ∧ Asked .bayOpen 3 none deadBay ∧
    Asked .bayClose 3 none lockedOut ∧ Asked .bayClose 3 none deadBay ∧ Asked .bayClose 3 none (lockedOut.setPart .standdown) ∧
    (∀ v ∈ [0, 3, 4], Imm .bayIndicate 3 lockedOut v) ∧ (∀ v ∈ [0], Imm .bayIndicate 8 lockedOut v) ∧
    (∀ v ∈ [0, 1, 2], Imm .bayInterlock 3 lockedOut v) ∧ (∀ v ∈ [0], Imm .bayInterlock 8 lockedOut v) ∧
    (lockedOut.cap 3).inService = true ∧ (lockedOut.status 3).localMode = false ∧ (lockedOut.status 3).interlock = false ∧
    (lockedOut.slot 3).pend = Pending.none ∧ (lockedOut.slot 3).state.isFree = true ∧ (deadBay.rcl 3).state = .dead ∧
    (deadBay.slot 3).lastTag = 41 ∧ (failedTrip.slot 6).state.isFree = false ∧ (failedTrip.slot 6).pend.management = none :=
  ⟨asked_of rfl (by decide), asked_of rfl (by decide), asked_of rfl (by decide), asked_of rfl (by decide),
    asked_of rfl (by decide), asked_of rfl (by decide), imms_of rfl (by decide +kernel), imms_of rfl (by decide +kernel),
    imms_of rfl (by decide +kernel), imms_of rfl (by decide +kernel), by decide +kernel⟩

theorem witness_BlockRangeActs :
    (∀ v ∈ [0x01, 0x78, 0x80, 0x81, 0x70, 0x79], Imm .blockRange 0 (station .active) v) ∧
    (∀ v ∈ [0x01, 0x78, 0x80, 0x81, 0x70, 0x79], Imm .unblockRange 0 (station .active) v) ∧
    -- bay 3 in DEAD, with MANUAL to add; bay 2 beside it in another state
    (∀ v ∈ [0x31, 0x32, 0x21], Imm .blockRange 0 deadBay v) ∧ deadBay.runs 3 = true ∧ (deadBay.rcl 3).state = .dead ∧
    (deadBay.rcl 3).block.manual = false ∧ (deadBay.rcl 2).state = .idleClosed :=
  ⟨imms_of rfl (by decide +kernel), imms_of rfl (by decide +kernel), imms_of rfl (by decide +kernel), by decide +kernel⟩

theorem witness_ResetLockoutActs :
    Asked .resetLockout 3 none lockedOut ∧ Asked .resetLockout 8 none lockedOut ∧ Asked .resetLockout 3 none deadBay ∧
    (lockedOut.rcl 3).state = .lockout .shotsExhausted ∧ (∀ c, (deadBay.rcl 3).state ≠ .lockout c) := by
  refine ⟨asked_of rfl (by decide), asked_of rfl (by decide), asked_of rfl (by decide), by decide +kernel, fun c => ?_⟩
  rw [show (deadBay.rcl 3).state = .dead by decide +kernel]
  exact RecloseState.noConfusion

/-- The backup flag is set, and slot 8 free. -/
def backedUp (part : PartState) : State := (station part).setBackup true

theorem witness_BreakerFailAcknowledged :
    Asked .ackBreakerFail 0 none (station .active) ∧ Asked .ackBreakerFail 0 none (backedUp .active) ∧
    Asked .ackBreakerFail 0 none (after (.commandTimeout 6) failedTrip) ∧
    (backedUp .active).bcu.backupFlag = true ∧ ((backedUp .active).slot 8).state = .free ∧
    ((after (.commandTimeout 6) failedTrip).slot 8).state ≠ .free :=
  ⟨asked_of rfl (by decide), asked_of rfl (by decide), asked_of (by decide +kernel) (by decide), by decide +kernel⟩

theorem witness_StanddownCleared :
    Asked .clearStanddown 0 none (station .active) ∧ Asked .clearStanddown 0 none (backedUp .standdown) ∧
    Asked .clearStanddown 0 none (station .standdown) ∧ (station .standdown).bcu.backupFlag = false :=
  ⟨asked_of rfl (by decide), asked_of rfl (by decide), asked_of rfl (by decide), rfl⟩

/-- The neutral voltage is displaced, and the hunt stands in a state with bay 4 under test. -/
def hunting (st : HuntState) : State :=
  let s := (planned st).setNvd { state := .displaced, timing := 4, confirm := 0 }
  s.setHnc { s.hnc with current := some 0, timer := some 0, cands := [⟨some 4, 3000, none, .pending⟩] }

theorem witness_HuntOpsAct :
    Asked .startHunt 0 none (hunting .idle) ∧ Asked .startHunt 0 none (station .active) ∧
    Asked .startHunt 0 none ((hunting .idle).setPart .standdown) ∧ Asked .abortHunt 0 none (station .active) ∧
    Asked .abortHunt 0 none (hunting .waiting) ∧ Asked .abortHunt 0 none (hunting .aborting) ∧
    Asked .abortHunt 0 none (hunting .dwell) ∧
    (hunting .idle).mgu.part = .active ∧ (hunting .idle).hnc.state = .idle ∧ (hunting .idle).efu.nvd.state = .displaced ∧
    (station .active).efu.nvd.state ≠ .displaced ∧ (hunting .dwell).underTest = some 4 ∧
    -- a start that tests a candidate and one that passes over every one
    ((after .startHunt (asking .startHunt 0 none (hunting .idle))).hnc.state = .opening ∧
      (let absent := (hunting .idle).setStatus 4 { (hunting .idle).status 4 with presence := false }
       (after .startHunt (asking .startHunt 0 none absent)).hnc.state = .idle)) ∧
    -- an abort that ends the hunt, one that waits for the OPEN, and one that places the restore
    ((hunting .retestDwell).hnc.state = .retestDwell ∧ ((hunting .opening).slot 4).pend.hunt = none ∧
      ((hunting .opening).setPend 4 .hunt (some .opening)).hnc.state = .opening ∧
      (after .abortHunt (asking .abortHunt 0 none (hunting .dwell))).hnc.state = .aborting ∧
      (after .abortHunt (asking .abortHunt 0 none (hunting .retestDwell))).hnc.state = .idle) :=
  ⟨asked_of rfl (by decide), asked_of rfl (by decide), asked_of rfl (by decide), asked_of rfl (by decide),
    asked_of rfl (by decide), asked_of rfl (by decide), asked_of rfl (by decide), by decide +kernel⟩

/-- Channel 2 is RUNNING and holds for TRIP; channel 3 holds for it too where a state is given. -/
def holdingTrip (other : Option ChanState) : State :=
  let s := station .active
  let s := s.setChan 2 { s.chan 2 with state := .running, holding := some 0 }
  match other with
  | some st => s.setChan 3 { s.chan 3 with state := st, holding := some 0, reportAtEnd := false }
  | none => s

theorem witness_CaptureArmed :
    (∀ v ∈ [0, 3, 4], Imm .armCapture 0 captured v) ∧ (∀ v ∈ [1], Imm .armCapture 0 armed v) ∧
    (∀ v ∈ [0, 1, 4], Imm .disarmCapture 0 captured v) ∧ (∀ v ∈ [1], Imm .disarmCapture 0 armed v) ∧
    (captured.chan 3).pre + 1 ≤ (captured.chan 3).length ∧ (captured.chan 3).state = .disarmed ∧
    (let s := captured.setChan 2 { captured.chan 2 with pre := 4, length := 4 }
     (s.chan 2).length < (s.chan 2).pre + 1 ∧ (s.chan 2).state ≠ .running) ∧
    (let s := captured.setChan 2 { captured.chan 2 with state := .running, reportAtEnd := false }
     (s.chan 2).state = .running ∧ (s.chan 2).holding = none ∧ (s.chan 2).reportAtEnd = false) ∧
    -- a RUNNING channel that holds for TRIP, alone, with channel 3 RUNNING, and with channel 3 DONE
    (∀ v ∈ [2], Imm .disarmCapture 0 (holdingTrip none) v) ∧
    (let s := holdingTrip none
     (s.chan 2).state = .running ∧ (s.chan 2).holding = some 0 ∧ (s.chan 2).reportAtEnd = true ∧
      (∀ j, j ≠ 2 → (s.chan j).holding ≠ some 0) ∧ (∀ j, (s.chan j).state ≠ .armed) ∧ s.mgu.part ≠ .bypass) ∧
    (((holdingTrip (some .running)).chan 3).state = .running ∧ ((holdingTrip (some .running)).chan 3).holding = some 0) ∧
    (let s := holdingTrip (some .done)
     let s := s.setChan 2 { s.chan 2 with reportAtEnd := false }
     (s.chan 2).reportAtEnd = false ∧ (∀ j, j ≠ 2 → (s.chan j).holding = some 0 → (s.chan j).reportAtEnd = false) ∧
      (s.chan 3).state = .done) ∧
    -- a row that reaches the target of 128, and one that does not
    (let i : Instant := ⟨5, false, ⟨1, 2, 3, 4⟩, none⟩
     let full := (holdingTrip none).setChan 2
       { (holdingTrip none).chan 2 with holding := none, rows := List.replicate 127 i }
     (full.chan 2).target = (full.chan 2).rows.length + 1 ∧ (full.chan 2).bay = 2 ∧
      (∀ j, j ≠ 2 → (full.chan j).state ≠ .running) ∧
      ((holdingTrip none).chan 2).rows.length + 1 < ((holdingTrip none).chan 2).target) :=
  ⟨imms_of rfl (by decide +kernel), imms_of rfl (by decide +kernel), imms_of rfl (by decide +kernel),
    imms_of rfl (by decide +kernel), by decide +kernel, by decide +kernel, by decide +kernel, by decide +kernel,
    imms_of rfl (by decide +kernel), by decide +kernel⟩

theorem witness_EventsCleared : ∀ v ∈ [0, 1, 16777215, 16777216], Imm .clearEvents 0 (station .active) v :=
  imms_of rfl (by decide +kernel)

theorem witness_ReportSettingsStored :
    (∀ v ∈ [7, 0, 8], Imm .setThreshold 0 (station .active) v) ∧ (∀ v ∈ [0, 1, 63, 64], Imm .setReportDest 0 (station .active) v) ∧
    (∀ v ∈ [0, 4294967295], Imm .setTime 0 (station .active) v) ∧ (station .active).evu.threshold = 7 ∧
    (station .active).riu.own.toNat = 1 :=
  ⟨imms_of rfl (by decide +kernel), imms_of rfl (by decide +kernel), imms_of rfl (by decide +kernel), by decide +kernel⟩

/-- Every role of an in-service bay and the bus has a VALID source. -/
def measured (part : PartState) : State :=
  let s := station part
  { s with meu := { s.meu with
      table := #v[⟨some 20, some (.bay 0), true⟩, ⟨some 21, some (.bay 1), true⟩, ⟨some 22, some (.bay 2), true⟩,
        ⟨some 23, some (.bay 3), true⟩, ⟨some 24, some (.bay 4), true⟩, ⟨some 25, some (.bay 5), true⟩,
        ⟨some 26, some (.bay 6), true⟩, ⟨some 27, some (.bay 7), true⟩, ⟨some 28, some .bus, true⟩, SourceEntry.cold,
        SourceEntry.cold, SourceEntry.cold]
      ctx := Vector.replicate 12 { SourceCtx.fresh with state := .valid, lastPos := some 0, fill := 32, silence := some 2 } } }

theorem witness_CommissioningActs :
    Asked .commission 0 none (station .active) ∧ Asked .commission 0 none (station .unconfigured) ∧
    Asked .commission 0 none (measured .unconfigured) ∧ Asked .decommission 0 none (station .standdown) ∧
    Asked .decommission 0 none (planned .waiting) ∧ Asked .decommission 0 none locked ∧
    Asked .decommission 0 none (station .unconfigured) ∧ Asked .decommission 0 none (station .active) ∧
    (station .unconfigured).roleValid .bus = false ∧ (measured .unconfigured).commissionFailure = none ∧
    (station .active).hnc.state = .idle ∧ (station .active).fru.seasonLock = false ∧
    -- each check failing where those before it hold, at bay 7, group 0, level 4 and position 7
    (let s := measured .unconfigured
     let unserved : State := { s with meu := { s.meu with table := s.meu.table.put 7 SourceEntry.cold } }
     let invalid : State := { s with pru := { s.pru with groups := s.pru.groups.put 0 Group.cold } }
     let unmapped : State := { s with
       pru := { s.pru with groups := s.pru.groups.put 5 Group.cold },
       fru := { s.fru with fireMap := s.fru.fireMap.put 4 { s.fru.fireMap.look 4 with group := some 5 } } }
     let unplanned := (s.setCap 7 { s.cap 7 with inService := false }).setHnc
       { s.hnc with table := { s.hnc.table with plan := s.hnc.table.plan.put 7 ⟨some 7, 3000⟩ } }
     unserved.commissionFailure = some (2 * 256 + 7) ∧ invalid.commissionFailure = some (3 * 256 + 0) ∧
      unmapped.commissionFailure = some (4 * 256 + 4) ∧ unplanned.commissionFailure = some (5 * 256 + 7) ∧
      s.fru.stack = [⟨.base, 0, 0⟩]) :=
  ⟨asked_of rfl (by decide), asked_of rfl (by decide), asked_of rfl (by decide), asked_of rfl (by decide),
    asked_of rfl (by decide), asked_of rfl (by decide), asked_of rfl (by decide), asked_of rfl (by decide), by decide +kernel⟩

theorem witness_RestartActs :
    Asked .restart 0 none (station .standdown) ∧ Asked .restart 0 none (planned .waiting) ∧ Asked .restart 0 none deadBay ∧
    deadBay.hnc.state = .idle ∧ (deadBay.rcl 3).state = .dead ∧
    -- every kind of reclose state, a bay in service, a channel running, and the FIRE entry present, absent and GROUP_INVALID
    (deadBay.cap (bayRec 3)).inService = true ∧ (deadBay.rcl 0).state = .idleClosed ∧
    (deadBay.rcl 0).lastDefinite = some .closed ∧ (lockedOut.rcl 3).state = .lockout .shotsExhausted ∧
    ((holdingTrip none).chan 2).state = .running ∧ (station .unconfigured).mgu.part ≠ .active ∧
    ((station .active).fru.fireMap.look 0).group = none ∧
    (let burning (s : State) : State := { s with fru := { s.fru with
       fireMap := s.fru.fireMap.put 0 { s.fru.fireMap.look 0 with group := some 2 } } }
     ((burning (station .active)).fru.fireMap.look 0).group = some 2 ∧ (burning (station .active)).groupValid 2 = true ∧
      (∀ e ∈ (burning (station .active)).fru.stack, e.origin ≠ .fire) ∧
      (burning (noGroups .active)).groupValid 2 = false ∧
      ∃ e ∈ (burning (stacked false [.base, .fire])).fru.stack, e.origin = .fire) :=
  ⟨asked_of rfl (by decide), asked_of rfl (by decide), asked_of rfl (by decide), by decide +kernel⟩

theorem witness_ResetsTake :
    let s := after .resetPinAsserted (station .active)
    s.pins.resetHeld = true ∧ (∀ straps, Instr.restart ≠ .coldReset straps) ∧ (∀ a, Instr.restart ≠ .tfbPinChange a) := by
  refine ⟨by decide +kernel, fun _ h => Instr.noConfusion h, fun _ h => Instr.noConfusion h⟩

/-- The source of address 33, entry 3, in a state. -/
def streaming (c : SourceCtx) : State := (sources .active).setCtx 3 c

/-- The forward queue is full. -/
def jammed (s : State) : State := { s with riu := { s.riu with fwd := List.replicate 8 (buildFrame 9 8 0x50 []) } }

/-- Frames that arrive at the part at address 1: forwarded, the part's own, for the part, broadcast, and with a bad check. -/
theorem witness_FrameArrives :
    let frame (dest src kind : Byte) : Frame := buildFrame dest src kind (List.replicate 5 0)
    let bad : Frame := { frame 9 8 0x50 with check := 0 }
    (station .active).pins.resetHeld = false ∧ (station .active).mgu.part ≠ .bypass ∧ (station .active).riu.fwd.length < 8 ∧
    (crc16 (checkedBytes (frame 9 8 0x50)) = (frame 9 8 0x50).check ∧ (frame 9 8 0x50).length.toNat = 5) ∧
    ¬ crc16 (checkedBytes bad) = bad.check ∧
    (frame 9 1 0x50).src = (station .active).riu.own.zeroExtend 8 ∧
    (frame 1 8 0x50).dest = (station .active).riu.own.zeroExtend 8 ∧
    ((frame 63 8 0x11).dest = 63 ∧ (frame 63 8 0x21).kind = 0x21) ∧ (station .bypass).mgu.part = .bypass ∧
    -- a SAMPLE frame for the ABSENT source of address 33, at the last position
    (let s := streaming SourceCtx.fresh
     s.pins.resetHeld = false ∧ s.mgu.part ≠ .bypass ∧ (33 : Byte) ≠ s.ownByte ∧ s.riu.own ≠ 63 ∧
      (8191 : Pos).val = (255 : Byte).toNat * 32 + (31 : Byte).toNat ∧ (s.src 3).inUse = true ∧
      (s.src 3).addr = some (33 : Byte).toNat ∧
      (∀ f : SrcIx, f < 3 → (s.src f).inUse = true → (s.src f).addr ≠ some (33 : Byte).toNat) ∧
      (s.ctx 3).state = .absent) ∧
    -- a forward queue that is full, and one with a free place
    8 ≤ (jammed (station .active)).riu.fwd.length ∧ ¬ 8 ≤ (station .active).riu.fwd.length := by decide +kernel

theorem witness_RequestQueued :
    let s := station .active
    let full : State := { s with mgu := { s.mgu with queue := List.replicate 4 waiting } }
    s.pins.resetHeld = false ∧ s.mgu.part ≠ .bypass ∧ (7 : Byte) ≠ s.ownByte ∧ s.mgu.queue.length < 4 ∧
    4 ≤ full.mgu.queue.length ∧ ([1, 4, 1, 32] ++ (List.replicate 32 (0x22000000 : Word32)).flatMap bytes32).length ≤ 1024 ∧
    (32 : Byte).toNat = (List.replicate 32 (0x22000000 : Word32)).length ∧ (33 : Byte).toNat = 33 := by decide +kernel

/-- Bay 3 with a PHI count of 1, and a bus evaluation of tag 7. -/
def tripping : State :=
  let s := station .active
  let s := s.setElem 3 { s.elem 3 with phi := 1 }
  let v := measOf 300 400
  { s with meu := { s.meu with latestBus := some { tag := 7, va := v, vb := v, vc := v, vn := v } } }

theorem witness_SampleTaken :
    let s := streaming SourceCtx.fresh
    let valid : SourceCtx := { SourceCtx.fresh with state := .valid, lastPos := some 1285, fill := 32, missing := 2 }
    let filling : SourceCtx := { SourceCtx.fresh with state := .filling, lastPos := some 8191, fill := 31 }
    (s.pins.resetHeld = false ∧ s.mgu.part ≠ .bypass ∧ (33 : Byte) ≠ s.ownByte ∧ s.riu.own ≠ 63) ∧
    ((s.src 3).inUse = true ∧ (s.src 3).addr = some (33 : Byte).toNat ∧
      ∀ f : SrcIx, f < 3 → (s.src f).inUse = true → (s.src f).addr ≠ some (33 : Byte).toNat) ∧
    (∀ e, (s.src e).inUse = true → (s.src e).addr ≠ some (50 : Byte).toNat) ∧
    ((s.ctx 3).state = .absent ∧ ((streaming valid).ctx 3).state = .valid ∧ ((streaming filling).ctx 3).fill = 31) ∧
    ((1286 : Pos).val = (40 : Byte).toNat * 32 + (6 : Byte).toNat ∧ ((1286 : Pos) - 1285).val = 1 ∧
      (0 : Pos).val = (0 : Byte).toNat * 32 + (0 : Byte).toNat ∧ (0 : Pos) - 8191 = 1 ∧ ((1285 : Pos) - 1286).val = 8191) ∧
    -- an evaluation point, one and two skipped samples, and a window with a last sample
    (let w : List Sample := List.replicate 31 ⟨0, false, ⟨1, 2, 3, 4⟩⟩ ++ [⟨1285, false, ⟨5, 6, 7, 8⟩⟩]
     let clean : SourceCtx := { valid with missing := 0, window := w }
     ((streaming clean).ctx 3).window = w ∧ (1286 : Pos).val % 8 = 6 ∧ (1287 : Pos).val % 8 = 7 ∧
      ((1287 : Pos) - 1285).val = 2 ∧ ((1288 : Pos) - 1285).val = 3 ∧ (s.src 3).role = some (.bay 3) ∧
      ((1287 : Pos) - 1286).val = 1 ∧ (s.src 0).role = some .bus) ∧
    -- a bay evaluation on which PHI operates, one with the latch set, and one with no element
    (tripping.runs 3 = true ∧ tripping.groupValid tripping.activeNo = true ∧ (tripping.elem 3).latch = none ∧
      (phiStep (tripping.setting 3 fPhiPickup) 9000 (tripping.elem 3).phi).2 = true ∧
      (phiStep (tripping.setting 3 fPhiPickup) 100 (tripping.elem 3).phi).2 = false ∧
      (∃ v, tripping.meu.latestBus = some v ∧ v.tag = (15 : Pos) - 8 ∧ v.tag ≠ (23 : Pos) - 8 ∧ v.tag ≠ 23) ∧
      tripping.hnc.state = .idle ∧ (tripping.slot 3).state = .free ∧ (tripping.slot 3).pend = Pending.none ∧
      (∀ j, (tripping.chan j).state ≠ .armed)) ∧
    (failedTrip.elem 6).latch = some .ptoc ∧ (noGroups .active).groupValid 0 = false ∧
      (station .unconfigured).runs 3 = false ∧
    -- an OPEN and a CLOSE in flight where the trip comes
    ((failedTrip.slot 6).state.flight.map (fun f => f.cmd) = some .opening ∧
      ((after (.deadTimerExpiry 3) deadBay).slot 3).state.flight.map (fun f => f.cmd) = some .closing) := by
  decide +kernel

/-- A VALID source with a missing count, before the evaluation point of position 1287. -/
def missed (n : Nat) : State :=
  streaming { SourceCtx.fresh with state := .valid, lastPos := some 1286, fill := 32, missing := n }

/-- The source after the sample (40, 7) with a quality. -/
def atPoint (quality : Byte) (s : State) : SourceCtx :=
  (after (.sampleFrame 63 33 [40, 7, quality, 0, 1, 0, 2, 0, 3, 0, 4]) s).ctx 3

/-- R6 and R11 where their clauses meet: a GOOD sample at an evaluation point after two missing ones is evaluated; an INVALID
one there makes a run of 3, and the source is STALE. -/
theorem witness_SampleTaken_run :
    ((missed 2).ctx 3).state = .valid ∧ ((missed 2).ctx 3).missing = 2 ∧ ((1287 : Pos) - 1286).val = 1 ∧
    (1287 : Pos).val = (40 : Byte).toNat * 32 + (7 : Byte).toNat ∧ (7 : Byte).toNat % 8 = 7 ∧
    (atPoint 1 (missed 2)).state = .valid ∧ (atPoint 1 (missed 2)).lastTag = some 1287 ∧
    (atPoint 0 (missed 1)).state = .valid ∧ (atPoint 0 (missed 2)).state = .stale ∧
    (atPoint 1 (missed 3)).state = .stale := by decide +kernel

/-- R179: a SAMPLE that the full forward queue drops has already been used, so a capture armed on RING_OVERRUN has its instant
among the rows before the trigger (R159). -/
theorem test_dropped_sample_is_used :
    let s := jammed (missed 0)
    let s := s.setChan 1 { s.chan 1 with state := .armed, trigger := fRingOverrun, bay := 3, pre := 1, length := 2 }
    let t := after (.sampleFrame 63 33 [40, 7, 1, 0, 1, 0, 2, 0, 3, 0, 4]) s
    (t.chan 1).state = .running ∧ (t.chan 1).rows.map (fun i => i.pos) = [1287] ∧ t.riu.overrun = 1 ∧
      t.riu.fwd = s.riu.fwd := by decide +kernel

/-- A running hunt where the trip comes, one whose CLOSE the trip takes, and one that is ABORTING. -/
theorem witness_SampleTaken_hunting :
    (let tripHunt (st : HuntState) (cls : ReqClass) : State :=
       (hunting st).setSlot 4 { (hunting st).slot 4 with
         state := .inFlight { cmd := .closing, tag := 3, cls := cls, issued := 0, tripAttached := false, timer := 9 } }
     (tripHunt .restoring .hunt).underTest = some 4 ∧ (tripHunt .restoring .hunt).hnc.state = .restoring ∧
      ((tripHunt .restoring .hunt).slot 4).pend.hunt = none ∧
      ((tripHunt .restoring .hunt).slot 4).state.flight.map (fun f => (f.cls, f.cmd)) = some (.hunt, .closing) ∧
      (tripHunt .restoring .hunt).underTest ≠ some 3 ∧ (tripHunt .dwell .management).hnc.state = .dwell ∧
      ((tripHunt .aborting .hunt).setHnc { (tripHunt .aborting .hunt).hnc with
        pendingResult := some .abortedMgmt }).hnc.pendingResult = some .abortedMgmt) := by decide +kernel

theorem witness_BaystatApplied :
    let s := station .active
    let f : Flight := { cmd := .opening, tag := 255, cls := .management, issued := 0, tripAttached := false, timer := 9 }
    let flying := s.setSlot 0 { s.slot 0 with lastTag := 255, state := .inFlight f }
    let echoed := s.setSlot 0 { s.slot 0 with lastTag := 255, state := .echoed f }
    (s.pins.resetHeld = false ∧ s.mgu.part ≠ .bypass ∧ (10 : Byte) ≠ s.ownByte ∧ s.riu.own ≠ 63) ∧
    ((s.cap 0).addr = some (10 : Byte).toNat ∧ (∀ m : Rec, m < 0 → (s.cap m).addr ≠ some (10 : Byte).toNat) ∧
      ∀ m, (s.cap m).addr ≠ some (50 : Byte).toNat) ∧
    ((s.status 0).presence = true ∧ (s.status 0).position = .closed ∧ (s.status 0).spring = true ∧ (s.slot 0).state = .free) ∧
    ((flying.slot 0).state = .inFlight f ∧ (255 : Byte).toNat = f.tag ∧ (flying.slot 0).pend = Pending.none) ∧
    (echoed.slot 0).state = .echoed f ∧
    -- a position that differs, in every case of the reclose record
    (let moved (p : Position) (r : RecloseRecord) := (s.setStatus 0 { s.status 0 with position := p }).setRcl 0 r
     let r := s.rcl 0
     ((moved .travel r).status 0).position ≠ .opened ∧ s.runs 0 = true ∧ (station .unconfigured).runs 0 = false ∧
      ((moved .travel r).rcl 0).lastDefinite = some .closed ∧ s.underTest ≠ some 0 ∧ (s.elem 0).latch = none ∧
      ((moved .opened { r with state := .lockout .spring, lastDefinite := some .opened }).rcl 0).lastDefinite ≠ some .closed ∧
      ((moved .unknown { r with state := .idleOpen, lastDefinite := none }).rcl 0).lastDefinite = none ∧
      ((moved .opened { r with state := .dead, lastDefinite := some .opened }).rcl 0).state = .dead ∧
      ((moved .opened { r with state := .closing .issued, lastDefinite := some .opened }).rcl 0).state = .closing .issued) := by
  decide +kernel

/-- The hunt and the inputs where a BAYSTAT comes. -/
theorem witness_BaystatApplied_inputs :
    let s := station .active
    let f : Flight := { cmd := .opening, tag := 255, cls := .management, issued := 0, tripAttached := false, timer := 9 }
    let flying := s.setSlot 0 { s.slot 0 with lastTag := 255, state := .inFlight f }
    -- a bay under test that is reported CLOSED
    (let opened (st : HuntState) := ((hunting st).setNvd Nvd.cold).setStatus 4 { (hunting st).status 4 with position := .opened }
     (opened .dwell).underTest = some 4 ∧ (opened .dwell).hnc.current = some 0 ∧ ((opened .dwell).status 4).position = .opened ∧
      (opened .retestWait).hnc.state = .retestWait ∧ (opened .retestWait).efu.nvd.state ≠ .displaced) ∧
    -- an input that changes: each gated by what the record has, in and out of a spring wait, with and without requests
    ((s.cap 0).hasLocal = true ∧ (s.cap 0).hasInterlock = true ∧ (s.cap 0).hasSpring = true ∧
      (5 : Byte).getLsbD 0 = true ∧ (6 : Byte).getLsbD 1 = true ∧ (4 : Byte).getLsbD 2 = true ∧ (0 : Byte).getLsbD 2 = false ∧
      (s.status 0).localMode = false ∧ (s.status 0).interlock = false ∧ s.underTest ≠ some 0) ∧
    (let waits := (deadBay.setStatus 3 { deadBay.status 3 with spring := false }).setRcl 3
       { deadBay.rcl 3 with deadTimer := none, springTimer := some 9 }
     waits.runs 3 = true ∧ (waits.rcl 3).state = .dead ∧ (waits.rcl 3).springTimer ≠ none ∧ (waits.status 3).spring = false ∧
      (waits.rcl 3).shots < waits.effShots 3 ∧ (waits.rcl 3).block.localMode = false ∧ (waits.slot 3).state = .free ∧
      (waits.slot 3).pend = Pending.none ∧
      (waits.setRcl 3 { waits.rcl 3 with shots := 3 }).effShots 3 = 3) ∧
    (let asks := flying.setPend 0 .management (some .closing)
     (asks.slot 0).pend.management = some .closing ∧ (asks.slot 0).state ≠ .free) ∧
    -- a HUNT command that waits at the bay under test
    (let behind (st : HuntState) (cmd : Command) := ((hunting st).setSlot 4 { (hunting st).slot 4 with
       state := .inFlight f }).setPend 4 .hunt (some cmd)
     ((behind .opening .opening).slot 4).pend.hunt = some .opening ∧ ((behind .restoring .closing).slot 4).state ≠ .free ∧
      (behind .restoring .closing).underTest = some 4 ∧ (behind .restoring .closing).hnc.current = some 0) := by
  decide +kernel

theorem witness_OutTakes :
    let s := station .active
    let f := buildFrame 7 1 0x32 []
    let command : State := s.setOutPlace 8 (some f)
    let forward : State := { s with riu := { s.riu with fwd := [f] } }
    let reply : State := { s with riu := { s.riu with replies := [f, f] } }
    let event : State := { s with evu := { s.evu with outSlot := some (0, f) } }
    let block : State := { s with riu := { s.riu with capQueue := [f, f, f, f] }, recd := { s.recd with readouts := [readout] } }
    s.pins.resetHeld = false ∧ (command.riu.outPlaces.look 8 = some f ∧ ∀ m, m < 8 → command.riu.outPlaces.look m = none) ∧
    (∀ n, forward.riu.outPlaces.look n = none) ∧ forward.riu.fwd = f :: [] ∧
    (reply.riu.fwd = [] ∧ reply.riu.replies = f :: [f]) ∧ (event.riu.replies = [] ∧ event.evu.outSlot = some (0, f)) ∧
    (block.evu.outSlot = none ∧ block.riu.capQueue = f :: [f, f, f] ∧ block.riu.capQueue.length ≤ 4 ∧
      block.recd.readouts ≠ []) ∧ s.riu.capQueue = [] := by decide +kernel

theorem witness_SilenceExpiries :
    let s := streaming { SourceCtx.fresh with state := .valid, lastPos := some 7, fill := 32, silence := some 0 }
    let s : State := { s with riu := { s.riu with inUp := true, inTimer := some 0 } }
    let s := s.setStatus 8 { s.status 8 with silence := some 0 }
    s.pins.resetHeld = false ∧ (s.riu.inUp = true ∧ s.riu.inTimer = some 0) ∧
    ((s.ctx 3).state = .valid ∧ (s.ctx 3).silence = some 0 ∧ (s.src 3).role = some (.bay 3)) ∧
    (s.status 8).silence = some 0 ∧ (s.ctx 0).state ≠ .valid ∧ (s.status 0).silence ≠ some 0 ∧
    (let s := deadBay.setStatus 3 { deadBay.status 3 with silence := some 0 }
     (s.status 3).silence = some 0 ∧ (s.status 3).position ≠ .unknown ∧ (s.rcl 3).state = .dead ∧ s.runs 3 = true ∧
      (s.slot 3).pend.reclose = none ∧ (s.rcl 2).state ≠ .dead) ∧
    -- the silence of the bus with a hunt running, waiting and idle
    (let bus (st : HuntState) : State := { hunting st with meu := (sources .active).meu }
     let lost (st : HuntState) := (bus st).setCtx 0 { SourceCtx.fresh with state := .valid, silence := some 0 }
     ((lost .dwell).src 0).role = some .bus ∧ ((lost .dwell).ctx 0).state = .valid ∧ (lost .dwell).protecting = true ∧
      (lost .dwell).underTest = some 4 ∧ (lost .dwell).efu.nvd.state = .displaced ∧ (lost .waiting).hnc.state = .waiting ∧
      (lost .idle).hnc.state = .idle) := by decide +kernel

theorem witness_CommandTimesOut :
    let f : Flight := { cmd := .closing, tag := 42, cls := .reclose, issued := 0, tripAttached := false, timer := 0 }
    let s := (deadBay.setSlot 3 { deadBay.slot 3 with state := .inFlight f }).setRcl 3
      { deadBay.rcl 3 with state := .closing .issued }
    s.pins.resetHeld = false ∧ ((s.slot 3).state.flight = some f ∧ f.timer = 0 ∧ (s.slot 3).pend = Pending.none) ∧
    (s.runs 3 = true ∧ (s.rcl 3).state = .closing .issued) ∧ (s.slot 0).state.flight = none ∧
    (failedTrip.slot 6).state.flight.map (fun g => (g.timer, g.tripAttached)) = some (0, true) ∧
    failedTrip.backupConfigured = true ∧ failedTrip.bcu.backupFlag = false ∧ failedTrip.mgu.part = .active ∧
    -- the ends: a trip, with each reclose decision
    ((failedTrip.slot 6).pend = Pending.none ∧ (failedTrip.elem 6).latch = some .ptoc ∧ failedTrip.runs 6 = true ∧
      (failedTrip.slot 6).state.flight.map (fun f => f.cls) = some .trip ∧
      (failedTrip.rcl 6).state = .idleClosed ∧ (failedTrip.rcl 6).block.code = 0 ∧
      (failedTrip.rcl 6).shots < failedTrip.effShots 6 ∧ (lockedOut.rcl 3).state = .lockout .shotsExhausted ∧
      (failedTrip.setRcl 6 { failedTrip.rcl 6 with shots := 3 }).effShots 6 = 3 ∧
      ((failedTrip.putReason 6 .manual true).rcl 6).block.code ≠ 0 ∧ failedTrip.slot 8 = Slot.cold ∧
      (backedUp .active).bcu.backupFlag = true) ∧
    -- the hunt's commands, in each state that waits for one
    (let g (cmd : Command) : Flight := { cmd := cmd, tag := 3, cls := .hunt, issued := 0, tripAttached := false, timer := 0 }
     let flying (st : HuntState) (cmd : Command) := (hunting st).setSlot 4 { (hunting st).slot 4 with state := .inFlight (g cmd) }
     (∀ q ∈ [(HuntState.opening, Command.opening), (.restoring, .closing), (.retestClosing, .closing), (.aborting, .opening),
        (.aborting, .closing)],
      ((flying q.1 q.2).slot 4).state.flight = some (g q.2) ∧ ((flying q.1 q.2).slot 4).pend = Pending.none ∧
        (flying q.1 q.2).underTest = some 4 ∧ (flying q.1 q.2).hnc.state = q.1 ∧ (flying q.1 q.2).hnc.current = some 0) ∧
      (flying .retestClosing .closing).efu.nvd.state = .displaced ∧
      ((flying .retestClosing .closing).setNvd Nvd.cold).efu.nvd.state ≠ .displaced ∧
      ((flying .aborting .opening).setHnc { (flying .aborting .opening).hnc with
        pendingResult := some .abortedMgmt }).hnc.pendingResult = some .abortedMgmt) := by decide +kernel

theorem witness_RecloseTimersExpire :
    let r := deadBay.rcl 3
    let waits := deadBay.setRcl 3 { r with deadTimer := none, springTimer := some 0 }
    let reclaims := deadBay.setRcl 3 { r with state := .reclaim, deadTimer := none, reclaimTimer := .running 0 }
    deadBay.pins.resetHeld = false ∧ (r.state = .dead ∧ r.deadTimer = some 0 ∧ deadBay.runs 3 = true) ∧
    ((deadBay.status 3).position = .opened ∧ r.shots < deadBay.effShots 3 ∧ (deadBay.status 3).spring = true) ∧
    ((deadBay.cap 3).inService = true ∧ deadBay.mgu.part ≠ .standdown ∧ (deadBay.slot 3).state = .free ∧
      (deadBay.slot 3).pend = Pending.none) ∧
    (deadBay.setRcl 3 { r with shots := 3 }).effShots 3 = 3 ∧
    ((waits.rcl 3).springTimer = some 0 ∧ waits.runs 3 = true) ∧ (reclaims.rcl 3).reclaimTimer = .running 0 ∧
    (deadBay.rcl 0).state ≠ .dead := by decide +kernel

theorem witness_HuntTimersExpire :
    let dwelling := hunting .dwell
    let retest := hunting .retestWait
    (hunting .waiting).pins.resetHeld = false ∧ ((hunting .waiting).hnc.state = .waiting ∧ (hunting .waiting).hnc.timer = some 0) ∧
    (dwelling.hnc.timer = some 0 ∧ dwelling.underTest = some 4 ∧ dwelling.hnc.current = some 0) ∧
    ((dwelling.cap (bayRec 4)).inService = true ∧ (dwelling.slot (bayRec 4)).state = .free ∧
      (dwelling.slot (bayRec 4)).pend = Pending.none ∧ (dwelling.status (bayRec 4)).localMode = false) ∧
    (retest.hnc.state = .retestWait ∧ retest.efu.nvd.state = .displaced ∧ retest.fru.effective.val < retest.hnc.table.fireLimit) ∧
    (retest.setNvd Nvd.cold).efu.nvd.state ≠ .displaced ∧ (hunting .retestDwell).underTest = some 4 ∧
    (hunting .idle).hnc.state ≠ .dwell := by decide +kernel

theorem witness_OccurrenceRecorded :
    ((station .bypass).mgu.part = .bypass ∧ (station .active).mgu.part ≠ .bypass ∧
      ∀ k, ((station .active).chan k).state = .armed → ((station .active).chan k).trigger ≠ 23) ∧
    -- channel 1, ARMED on TRIP of bay 1, where the source of bay 1 is VALID and where it is not
    (let s := (measured .active).setChan 1 { (measured .active).chan 1 with state := .armed }
     (s.chan 1).trigger = 0 ∧ (s.chan 1).bay = 1 ∧ (2#9 &&& (1#9 <<< (s.chan 1).bay.val) ≠ 0) ∧
      (4#9 &&& (1#9 <<< (s.chan 1).bay.val) = 0) ∧ (∀ j, j ≠ 1 → (s.chan j).state ≠ .armed) ∧
      s.roleValid (.bay (s.chan 1).bay) = true) ∧
    (armed.roleValid (.bay (armed.chan 1).bay) = false ∧ (armed.chan 1).holding = none ∧
      (∀ j, (armed.chan j).holding ≠ some 0) ∧ (∀ j, j ≠ 1 → (armed.chan j).state ≠ .armed) ∧ (0 : Factor).val ≠ 20 + 1) ∧
    -- a record's phases, its pairing and its segment
    (let big := measOf 9000 0
     let small := measOf 100 0
     big.mag = 9000 ∧ small.mag ≤ big.mag ∧
      (∃ v, tripping.meu.latestBus = some v ∧ v.tag = 15 - 8 ∧ v.tag ≠ 31 ∧ v.tag ≠ (31 : Pos) - 8) ∧
      tripping.recd.latest.look 3 = none ∧
      ((tripping.takeBayEval 3 ⟨15, big, small, small, small, small, false⟩).recd.latest.look 3).isSome = true ∧
      (let g : Segment := ⟨some 3, -50, 50, 9⟩
       g.bay = some 3 ∧ g.xLow ≤ reactance big (measOf 300 400) ∧ reactance big (measOf 300 400) ≤ g.xHigh)) := by
  decide +kernel

theorem witness_CurveInterpolated :
    (curve.points.map Prod.fst).Pairwise (· < ·) ∧ (curve.points.map Prod.snd).Pairwise (· ≤ ·) ∧ curve.points ≠ [] ∧
    (curve.points.map Prod.fst).head? = some 64 ∧ (curve.points.map Prod.snd).getLast? = some 120000 ∧
    multiple 400 400 = 64 ∧ increment curve.points 64 = 2000 ∧ increment curve.points 128 = 20000 ∧
    increment curve.points 96 = 11000 ∧ increment curve.points 2560 = 120000 := by decide +kernel

theorem witness_ElementsStep :
    phiStep 500 499 1 = (0, false) ∧ phiStep 500 500 1 = (2, true) ∧ phiStep 500 500 2 = (2, false) ∧
    accStep curve.points 50 0 400 399 5 = (0, false) ∧ (accStep curve.points 50 7 400 400 16777215).2 = true ∧
    sefStep true 400 399 = (400, true) ∧ sefStep true 400 400 = (400, false) ∧
    directionOf 100 4 (measOf (-4) 0) (measOf 100 0) = .forward ∧ directionOf 100 4 (measOf 4 0) (measOf 100 0) = .reverse ∧
    directionOf 100 4 (measOf 3 0) (measOf 100 0) = .undecided ∧
    directionOf 100 4 (measOf (-4) 0) (measOf 99 0) = .undecided ∧
    -- the NVD element: pickup 100, dropout 60, delay 4, confirm 3
    ((station .active).protecting = true ∧ (station .active).groupValid (station .active).activeNo = true ∧
      (station .active).activeGroup.nvdPickup = 100 ∧ (station .active).activeGroup.nvdDropout = 60 ∧
      (station .active).activeGroup.nvdDelay = 4 ∧ (station .active).activeGroup.nvdConfirm = 3 ∧
      (station .unconfigured).protecting = false ∧ (station .active).hnc.state = .idle ∧
      (station .active).hnc.table.enable = false ∧ (planned .waiting).hnc.state = .waiting ∧
      (∀ j, ((station .active).chan j).state ≠ .armed)) ∧
    (let h : Hnc := { (station .active).hnc with table := { (station .active).hnc.table with enable := true } }
     h.table.enable = true ∧ (station .active).mgu.part = .active ∧ h.state = .idle ∧ h.rearm = true) ∧
    (let at_ (v : Nvd) (mag : Int) : Nvd := (((station .active).setNvd v).takeBusEval
       ⟨7, measOf 0 0, measOf 0 0, measOf 0 0, measOf mag 0⟩).efu.nvd
     at_ Nvd.cold 99 = Nvd.cold ∧ at_ Nvd.cold 100 = ⟨.timing, 1, 0⟩ ∧ at_ ⟨.timing, 2, 0⟩ 100 = ⟨.timing, 3, 0⟩ ∧
      at_ ⟨.timing, 3, 0⟩ 100 = ⟨.displaced, 4, 0⟩ ∧ at_ ⟨.timing, 3, 0⟩ 99 = Nvd.cold ∧
      at_ ⟨.displaced, 4, 1⟩ 60 = ⟨.displaced, 4, 0⟩ ∧ at_ ⟨.displaced, 4, 1⟩ 59 = ⟨.displaced, 4, 2⟩ ∧
      at_ ⟨.displaced, 4, 2⟩ 59 = Nvd.cold ∧ at_ ⟨.unknown, 0, 0⟩ 100 = ⟨.unknown, 0, 0⟩) ∧
    -- a running hunt, below the fire limit and at it, with a bay that can be locked out and a slot that can take the OPEN
    (∀ st ∈ [HuntState.opening, .dwell, .restoring, .retestWait, .retestClosing, .retestDwell, .aborting],
      (hunting st).hnc.state = st ∧ (hunting st).underTest = some 4 ∧ (hunting st).hnc.current = some 0) ∧
    ((hunting .dwell).fru.effective.val < (hunting .dwell).hnc.table.fireLimit ∧ (hunting .dwell).runs 4 = true ∧
      ((hunting .dwell).rcl 4).state = .idleClosed ∧
      (let s := hunting .dwell
       let hot : State := { s with fru := { s.fru with effective := 4 } }
       hot.hnc.table.fireLimit ≤ hot.fru.effective.val) ∧
      ((hunting .retestDwell).slot 4).state = .free ∧ ((hunting .retestDwell).slot 4).pend = Pending.none ∧
      ((hunting .retestDwell).cap 4).inService = true ∧ ((hunting .retestDwell).status 4).localMode = false) := by
  decide +kernel

theorem witness_RootIsFloor :
    (measOf 3 4).mag = 5 ∧ (measOf 41585 (-41585)).mag < 65535 ∧ (measOf 65535 65535).mag = 65535 := by decide +kernel

/-- A station with a request in progress and the command for its op waiting. -/
def busy : State := { asking .bayOpen 0 none (station .active) with pending := [.bayOpen] }

theorem busy_steps : ∃ t, step busy = .next t := ⟨_, rfl⟩

theorem witness_StackShapeKept :
    StackOk busy ∧ StackOk (stacked true [.base, .manual, .fire, .hunt]) ∧ (∃ t, step busy = .next t) := by
  refine ⟨?_, ?_, busy_steps⟩ <;> unfold StackOk <;> decide +kernel

theorem witness_NoCloseInStanddown :
    (station .standdown).mgu.part = .standdown ∧ Instr.bayClose ≠ .clearStanddown ∧ isColdReset .bayClose = false ∧
      (∃ t, exec .bayClose (asking .bayClose 3 none (station .standdown)) = .next t) :=
  ⟨rfl, by decide, rfl, _, rfl⟩

theorem witness_SeasonLockHolds :
    locked.fru.seasonLock = true ∧ isColdReset .decommission = false ∧ locked.fru.effective = 0 ∧
      (∃ t, exec .decommission (asking .decommission 0 none locked) = .next t) ∧
      (∃ t, exec .seasonUnlock (asking .seasonUnlock 0 none locked) = .next t) :=
  ⟨rfl, rfl, rfl, ⟨_, rfl⟩, _, rfl⟩

theorem witness_PartStateChanges :
    (∃ t, exec .commission (asking .commission 0 none (measured .unconfigured)) = .next t) ∧ (station .active).pending = [] ∧
      (∃ t, step (station .active) = .next t) := ⟨⟨_, rfl⟩, rfl, _, rfl⟩

theorem witness_TablesKept :
    isColdReset .bayOpen = false ∧ (∀ k, k < 16 → writesTable .bayOpen k = false) ∧
      (∀ imm, Instr.bayOpen ≠ .setBackupAddr imm) ∧ (∃ t, exec .bayOpen busy = .next t) :=
  ⟨rfl, by decide, fun _ h => Instr.noConfusion h, _, rfl⟩

theorem witness_FireReasonsKept : FireOk busy ∧ ∃ t, step busy = .next t := by
  refine ⟨?_, busy_steps⟩
  unfold FireOk
  decide +kernel

theorem witness_CountsKept : ElementsOk busy ∧ ShotsOk busy ∧ ∃ t, step busy = .next t := by
  refine ⟨?_, ?_, busy_steps⟩
  · unfold ElementsOk
    decide +kernel
  · unfold ShotsOk
    decide +kernel

theorem witness_QueuesKept : QueuesOk busy ∧ RequestsOk busy ∧ ∃ t, step busy = .next t := by
  refine ⟨?_, ?_, busy_steps⟩
  · constructor <;> decide +kernel
  · refine ⟨by decide +kernel, fun p h => ?_, fun p h => ?_, by decide +kernel⟩ <;>
      obtain rfl : p = req .bayOpen 0 none := (Option.some.inj h).symm
    · decide +kernel
    · decide +kernel

theorem witness_SlotsKept : SlotsOk busy ∧ ∃ t, step busy = .next t := by
  refine ⟨fun n => ?_, busy_steps⟩
  have h : busy.slot n = Slot.cold := by
    revert n
    decide +kernel
  rw [h]
  exact ⟨rfl, fun _ h => (nomatch h), fun _ h => (nomatch h), by decide⟩

end Sys2Proof.Tests
end

/-! The magnitude of a phasor (R13): the digit-by-digit root of the model is the library's `Nat.sqrt`, limited to 65535. -/

namespace Sys2Proof.Proofs.Magnitude

open Sys2Proof.Machine

/-- One step of `sqrtFloor`: the digit `d` joins the root `r` where the square of their sum does not pass `n`. -/
def rootStep (n r d : Nat) : Nat := if (r + d) * (r + d) ≤ n then r + d else r

/-- The lowest `k` binary digits, the highest first. -/
def digits : Nat → List Nat
  | 0 => []
  | k + 1 => 2 ^ k :: digits k

theorem sqrtFloor_eq_foldl (n : Nat) : sqrtFloor n = (digits 16).foldl (rootStep n) 0 := rfl

theorem rootStep_of_le {n r d : Nat} (h : r + d ≤ n.sqrt) : rootStep n r d = r + d :=
  if_pos (Nat.le_sqrt.mp h)

theorem rootStep_of_lt {n r d : Nat} (h : n.sqrt < r + d) : rootStep n r d = r :=
  if_neg (Nat.not_le.mpr (Nat.sqrt_lt.mp h))

/-- From a root that is not too large, the remaining `k` digits reach the floor of the root, or as far as all of them go. -/
theorem foldl_rootStep_digits (n : Nat) :
    ∀ k r, r ≤ n.sqrt → (digits k).foldl (rootStep n) r = min (r + (2 ^ k - 1)) n.sqrt
  | 0, r, hr => by simp [digits, hr]
  | k + 1, r, hr => by
    have hpos : 0 < 2 ^ k := Nat.two_pow_pos k
    rw [digits, List.foldl_cons, Nat.pow_succ]
    rcases Nat.lt_or_ge n.sqrt (r + 2 ^ k) with hlt | hle
    · rw [rootStep_of_lt hlt, foldl_rootStep_digits n k r hr]
      omega
    · rw [rootStep_of_le hle, foldl_rootStep_digits n k _ hle]
      omega

theorem sqrtFloor_eq_min (n : Nat) : sqrtFloor n = min 65535 n.sqrt := by
  rw [sqrtFloor_eq_foldl, foldl_rootStep_digits n 16 0 (Nat.zero_le _), Nat.zero_add]
  rfl

theorem sqrtFloor_le_limit (n : Nat) : sqrtFloor n ≤ 65535 := by
  rw [sqrtFloor_eq_min]
  exact Nat.min_le_left _ _

theorem sqrtFloor_sq_le (n : Nat) : sqrtFloor n ^ 2 ≤ n := by
  rw [sqrtFloor_eq_min]
  exact Nat.le_sqrt'.mp (Nat.min_le_right _ _)

theorem lt_succ_sqrtFloor_sq {n : Nat} (h : sqrtFloor n < 65535) : n < (sqrtFloor n + 1) ^ 2 := by
  rw [sqrtFloor_eq_min] at h ⊢
  exact Nat.sqrt_lt'.mp (by omega)

theorem sqrtFloor_lt_limit {n : Nat} (h : n < 65535 ^ 2) : sqrtFloor n < 65535 := by
  rw [sqrtFloor_eq_min]
  exact lt_of_le_of_lt (Nat.min_le_right _ _) (Nat.sqrt_lt'.mpr h)

theorem measOf_mag (re im : Int) : (measOf re im).mag = sqrtFloor (re ^ 2 + im ^ 2).toNat := by
  rw [sq, sq]
  rfl

/-- The bounds of R12 keep the sum of the squares below the square of the limit: 2 · 41585² < 65535². -/
theorem sq_add_sq_lt_limit {re im : Int} (hre : |re| ≤ 41585) (him : |im| ≤ 41585) : re ^ 2 + im ^ 2 < 65535 ^ 2 := by
  calc re ^ 2 + im ^ 2 ≤ 41585 ^ 2 + 41585 ^ 2 :=
        add_le_add (sq_le_sq' (abs_le.mp hre).1 (abs_le.mp hre).2) (sq_le_sq' (abs_le.mp him).1 (abs_le.mp him).2)
    _ < 65535 ^ 2 := by norm_num

/-- Settles O50: the model's root is `Nat.sqrt` limited to 65535, and the sum of two squares is a natural number. -/
theorem rootIsFloor : Obligations.RootIsFloor := by
  intro re im
  obtain ⟨n, hn⟩ := Int.eq_ofNat_of_zero_le (show 0 ≤ re ^ 2 + im ^ 2 by positivity)
  rw [measOf_mag, hn, Int.toNat_natCast]
  refine ⟨rfl, rfl, ?floor, sqrtFloor_le_limit n, fun hmag => ?next, fun hre hre' him him' => ?limit⟩
  case floor => exact_mod_cast sqrtFloor_sq_le n
  case next => exact_mod_cast lt_succ_sqrtFloor_sq hmag
  case limit =>
    have hsum := sq_add_sq_lt_limit (abs_le.mpr ⟨hre, hre'⟩) (abs_le.mpr ⟨him, him'⟩)
    rw [hn] at hsum
    exact sqrtFloor_lt_limit (by exact_mod_cast hsum)

end Sys2Proof.Proofs.Magnitude

/-! The time curves (R30): the model walks along the points of a curve; here its increment is told by the index that the rule
names. -/

namespace Sys2Proof.Proofs.TimeCurve

open Sys2Proof.Machine

theorem multiple_ge_of_pickup_le {i p : Nat} (hp : 0 < p) (h : p ≤ i) : 64 ≤ multiple i p := by
  have hdiv : 64 ≤ i * 64 / p := (Nat.le_div_iff_mul_le hp).mpr (by omega)
  exact Nat.le_min.mpr ⟨by decide, hdiv⟩

/-- The increment at `m` on the segment from the point `q` to the point `r`. -/
def segment (q r : Nat × Nat) (m : Nat) : Nat := q.2 + (r.2 - q.2) * (m - q.1) / (r.1 - q.1)

theorem le_segment (q r : Nat × Nat) (m : Nat) : q.2 ≤ segment q r m := Nat.le_add_right _ _

theorem segment_le {q r : Nat × Nat} {m : Nat} (hm : m ≤ r.1) (hinc : q.2 ≤ r.2) : segment q r m ≤ r.2 := by
  have hrise : (r.2 - q.2) * (m - q.1) / (r.1 - q.1) ≤ r.2 - q.2 := by
    apply Nat.div_le_of_le_mul
    rw [Nat.mul_comm]
    exact Nat.mul_le_mul_right _ (Nat.sub_le_sub_right hm _)
  unfold segment
  omega

theorem increment_of_next_le {q r : Nat × Nat} {m : Nat} (rest : List (Nat × Nat)) (h : r.1 ≤ m) :
    increment (q :: r :: rest) m = increment (r :: rest) m := if_pos h

theorem increment_of_lt_next {q r : Nat × Nat} {m : Nat} (rest : List (Nat × Nat)) (h : m < r.1) :
    increment (q :: r :: rest) m = segment q r m := if_neg (Nat.not_le.mpr h)

/-- R30 at the index `i`: it is the largest whose multiple is at most `m`, and the increment is that of the last point, or of
the segment that begins at `i`. -/
structure IncrementAt (l : List (Nat × Nat)) (m i : Nat) : Prop where
  lt_length : i < l.length
  le : l[i].1 ≤ m
  largest : ∀ j, ∀ k : j < l.length, l[j].1 ≤ m → j ≤ i
  last : i + 1 = l.length → increment l m = l[i].2
  between : ∀ k : i + 1 < l.length, increment l m = segment l[i] l[i + 1] m

theorem IncrementAt.singleton {q : Nat × Nat} {m : Nat} (hq : q.1 ≤ m) : IncrementAt [q] m 0 where
  lt_length := Nat.one_pos
  le := hq
  largest _ k _ := Nat.le_of_lt_succ k
  last _ := rfl
  between k := absurd k (Nat.lt_irrefl 1)

/-- Below the second multiple the index is 0: every later multiple is larger still. -/
theorem IncrementAt.first {q r : Nat × Nat} {rest : List (Nat × Nat)} {m : Nat} (hq : q.1 ≤ m) (hr : m < r.1)
    (hrise : ∀ p ∈ rest, r.1 < p.1) : IncrementAt (q :: r :: rest) m 0 where
  lt_length := Nat.succ_pos _
  le := hq
  largest
    | 0, _, _ => Nat.le_refl 0
    | 1, _, hle => absurd hle (Nat.not_le.mpr hr)
    | j + 2, k, hle =>
      have hlater : r.1 < (rest[j]'(by simpa using k)).1 := hrise _ (List.getElem_mem _)
      absurd hle (Nat.not_le.mpr (hr.trans hlater))
  last h := by simp at h
  between _ := increment_of_lt_next rest hr

/-- A point in front of a curve whose first multiple is at most `m` moves the index by one. -/
theorem IncrementAt.cons {r : Nat × Nat} {rest : List (Nat × Nat)} {m i : Nat} (q : Nat × Nat) (hr : r.1 ≤ m)
    (h : IncrementAt (r :: rest) m i) : IncrementAt (q :: r :: rest) m (i + 1) where
  lt_length := Nat.succ_lt_succ h.lt_length
  le := h.le
  largest
    | 0, _, _ => Nat.zero_le _
    | j + 1, k, hle => Nat.succ_le_succ (h.largest j (Nat.lt_of_succ_lt_succ k) hle)
  last hlen := (increment_of_next_le rest hr).trans (h.last (Nat.succ.inj hlen))
  between k := (increment_of_next_le rest hr).trans (h.between (Nat.lt_of_succ_lt_succ k))

/-- The index of R30 exists on every curve with rising multiples whose first is at most `m`. -/
theorem exists_incrementAt_cons {m : Nat} : ∀ (rest : List (Nat × Nat)) (q : Nat × Nat),
    (q :: rest).Pairwise (·.1 < ·.1) → q.1 ≤ m → ∃ i, IncrementAt (q :: rest) m i
  | [], _, _, hq => ⟨0, .singleton hq⟩
  | r :: rest, q, hrise, hq => by
    have htail : (r :: rest).Pairwise (·.1 < ·.1) := hrise.of_cons
    rcases Nat.lt_or_ge m r.1 with hlt | hle
    · exact ⟨0, .first hq hlt (List.pairwise_cons.mp htail).1⟩
    · obtain ⟨i, hi⟩ := exists_incrementAt_cons rest r htail hle
      exact ⟨i + 1, hi.cons q hle⟩

theorem exists_incrementAt {l : List (Nat × Nat)} {m : Nat} (hrise : (l.map Prod.fst).Pairwise (· < ·))
    (hhead : (l.map Prod.fst).head? = some 64) (hm : 64 ≤ m) : ∃ i, IncrementAt l m i := by
  cases l with
  | nil => exact absurd hhead (by simp)
  | cons q rest =>
    have hq : q.1 = 64 := Option.some.inj hhead
    exact exists_incrementAt_cons rest q (List.pairwise_map.mp hrise) (hq.trans_le hm)

/-- Where the increments do not fall, the increment at `m` lies between those of two points of the curve. -/
theorem IncrementAt.exists_bounds {l : List (Nat × Nat)} {m i : Nat} (h : IncrementAt l m i)
    (hinc : (l.map Prod.snd).Pairwise (· ≤ ·)) :
    ∃ x ∈ l.map Prod.snd, ∃ y ∈ l.map Prod.snd, x ≤ increment l m ∧ increment l m ≤ y := by
  have mem (j : Nat) (k : j < l.length) : l[j].2 ∈ l.map Prod.snd := List.mem_map_of_mem (List.getElem_mem k)
  rcases Nat.lt_or_eq_of_le (Nat.succ_le_of_lt h.lt_length) with hnext | hlast
  · have hbelow : m < l[i + 1].1 := Nat.not_le.mp fun hle => Nat.not_succ_le_self i (h.largest _ hnext hle)
    have hstep : l[i].2 ≤ l[i + 1].2 :=
      List.pairwise_iff_getElem.mp (List.pairwise_map.mp hinc) i (i + 1) h.lt_length hnext (Nat.lt_succ_self i)
    rw [h.between hnext]
    exact ⟨_, mem i h.lt_length, _, mem (i + 1) hnext, le_segment .., segment_le hbelow.le hstep⟩
  · rw [h.last hlast]
    exact ⟨_, mem i h.lt_length, _, mem i h.lt_length, le_rfl, le_rfl⟩

theorem head_le_of_pairwise_le {l : List Nat} {a x : Nat} (h : l.Pairwise (· ≤ ·)) (ha : l.head? = some a) (hx : x ∈ l) :
    a ≤ x := by
  rw [← List.head_of_mem_head? ha]
  exact h.rel_head hx

theorem le_getLast_of_pairwise_le {l : List Nat} {z x : Nat} (h : l.Pairwise (· ≤ ·)) (hz : l.getLast? = some z)
    (hx : x ∈ l) : x ≤ z := by
  rw [← List.getLast_of_mem_getLast? hz]
  exact h.rel_getLast hx

/-- Settles O48: the model's walk stops at the index that R30 names, and the increment there lies between those of two points,
so between the first and the last. -/
theorem curveInterpolated : Obligations.CurveInterpolated := by
  refine ⟨fun i p hp h => ⟨rfl, multiple_ge_of_pickup_le hp h⟩, fun l m _ hrise hhead hm => ?index,
    fun l m hrise hinc hhead hm a z ha hz => ?bounds⟩
  case index =>
    obtain ⟨i, hi⟩ := exists_incrementAt hrise hhead hm
    exact ⟨i, hi.lt_length, hi.le, hi.largest, hi.last, hi.between⟩
  case bounds =>
    obtain ⟨i, hi⟩ := exists_incrementAt hrise hhead hm
    obtain ⟨x, hx, y, hy, hlow, hhigh⟩ := hi.exists_bounds hinc
    exact ⟨(head_le_of_pairwise_le hinc ha hx).trans hlow, hhigh.trans (le_getLast_of_pairwise_le hinc hz hy)⟩

end Sys2Proof.Proofs.TimeCurve

/-! Breaker fail and standdown (R64, R65): what ACK_BREAKER_FAIL and CLEAR_STANDDOWN do in each branch of their rule, and
with that what the op leaves where a request asks for it. -/

namespace Sys2Proof.Proofs.BreakerFail

open Sys2Proof.Machine Sys2Proof.Safety

theorem isFree_iff_eq_free (x : SlotState) : x.isFree = true ↔ x = .free := by
  cases x <;> simp [SlotState.isFree]

section Ops

variable {s : State}

theorem opAck_of_flag_clear (n : Rec) (hflag : s.bcu.backupFlag = false) : State.opAck n s = (s, refuse .state) :=
  if_pos (by simp [hflag])

theorem opAck_of_slot_busy (n : Rec) (hflag : s.bcu.backupFlag = true) (hbusy : (s.slot 8).state ≠ .free) :
    State.opAck n s = (s, refuse .busy) := by
  rw [State.opAck, if_neg (by simp [hflag]), if_pos (by simpa [← isFree_iff_eq_free] using hbusy)]

theorem opAck_of_slot_free (n : Rec) (hflag : s.bcu.backupFlag = true) (hfree : (s.slot 8).state = .free) :
    State.opAck n s = (s.setBackup false, okAnswer) := by
  rw [State.opAck, if_neg (by simp [hflag]), if_neg (by simp [(isFree_iff_eq_free _).mpr hfree])]

theorem opClearStanddown_refused (n : Rec) (h : s.mgu.part ≠ .standdown ∨ s.bcu.backupFlag = true) :
    State.opClearStanddown n s = (s, refuse .state) :=
  if_pos h

theorem opClearStanddown_taken (n : Rec) (hpart : s.mgu.part = .standdown) (hflag : s.bcu.backupFlag = false) :
    State.opClearStanddown n s = (s.setPart .active, okAnswer) :=
  if_neg (by simp [hpart, hflag])

end Ops

/-- An op without an immediate that the request asks for ends with the state and the answer of its body. -/
theorem exec_of_runOp {c : Instr} {body : Rec → State → State × Answer} {s t : State} {p : Progress} {a : Answer}
    (harm : exec c s = s.live (s.runOp c body)) (h : Runs s c p) (hbody : body p.context s = (t, a)) :
    exec c s = .next (t.opDone a) := by
  rw [harm, runOp_next h, hbody]

/-- Settles O29, by the branches of R64: the flag clear, slot 8 with a command in flight, slot 8 free. -/
theorem breakerFailAcknowledged : Obligations.BreakerFailAcknowledged := by
  intro s p h
  refine ⟨fun hflag => ?clear, fun hflag hbusy => ?busy, fun hflag hfree => ?acknowledged⟩
  case clear => exact exec_of_runOp rfl h (opAck_of_flag_clear p.context hflag)
  case busy => exact exec_of_runOp rfl h (opAck_of_slot_busy p.context hflag hbusy)
  case acknowledged => exact exec_of_runOp rfl h (opAck_of_slot_free p.context hflag hfree)

/-- Settles O30, by the branches of R65: the part not in STANDDOWN, the backup flag still set, neither of the two. -/
theorem standdownCleared : Obligations.StanddownCleared := by
  intro s p h
  refine ⟨fun hpart => ?notStanddown, fun _ hflag => ?flagSet, fun hpart hflag => ?cleared⟩
  case notStanddown => exact exec_of_runOp rfl h (opClearStanddown_refused p.context (.inl hpart))
  case flagSet => exact exec_of_runOp rfl h (opClearStanddown_refused p.context (.inr hflag))
  case cleared => exact exec_of_runOp rfl h (opClearStanddown_taken p.context hpart hflag)

end Sys2Proof.Proofs.BreakerFail

/-! Occurrences where no channel is armed (R159, R165): such an occurrence enters its own factor record and triggers
nothing. -/

namespace Sys2Proof.Proofs.Occurrences

open Sys2Proof.Machine

/-- No capture channel is ARMED. -/
def Unarmed (s : State) : Prop := ∀ k, (s.chan k).state ≠ .armed

section Occurrences

variable {s : State}

theorem triggerSet_eq_nil (h : Unarmed s) (f : Factor) (m : BitVec 9) : s.triggerSet f m = [] :=
  List.filter_eq_nil_iff.mpr fun k _ => by simp [Channel.triggeredBy, h k]

/-- With no channel triggered, the capture mask and the hold of the record are written back as they are. -/
theorem occurFuel_succ (h : Unarmed s) (n : Nat) {o : Occ} (ho : o.companion = false) :
    occurFuel (n + 1) o s =
      ((s.takeOcc o).setFac o.factor ((s.takeOcc o).fac o.factor)).judgeOutSlot := by
  have hset : (s.takeOcc o).triggerSet o.factor o.mask = [] := triggerSet_eq_nil h _ _
  simp [occurFuel, hset, State.triggerChans, State.judgeTriggered, forEach, chanMask, ho]

theorem occur_chan (h : Unarmed s) (f : Factor) (m : BitVec 9) (d : List Byte) (k : Chan) :
    (s.occur f m d).chan k = s.chan k := by
  unfold State.occur State.occurOf
  split
  · rfl
  · rw [occurFuel_succ h 4 rfl]
    rfl

theorem occur_unarmed (h : Unarmed s) (f : Factor) (m : BitVec 9) (d : List Byte) : Unarmed (s.occur f m d) :=
  fun k => by rw [occur_chan h]; exact h k

theorem occur_fac_same (h : Unarmed s) (hpart : s.mgu.part ≠ .bypass) (f : Factor) (m : BitVec 9) (d : List Byte) :
    (s.occur f m d).fac f = (s.fac f).take m (detail d) s.stamp := by
  unfold State.occur State.occurOf
  rw [if_neg (by simpa using hpart), occurFuel_succ h 4 rfl]
  exact (State.setFac_fac _ _ _).trans (State.setFac_fac _ _ _)

theorem occur_fac_other (h : Unarmed s) {f g : Factor} (hne : f ≠ g) (m : BitVec 9) (d : List Byte) :
    (s.occur f m d).fac g = s.fac g := by
  unfold State.occur State.occurOf
  split
  · rfl
  · rw [occurFuel_succ h 4 rfl]
    exact ((State.setFac_fac_at _ _ _ _).trans (if_neg hne)).trans ((State.setFac_fac_at _ _ _ _).trans (if_neg hne))

end Occurrences

end Sys2Proof.Proofs.Occurrences

/-! Properties that see the hunt only through its own requests and occurrences.  What a start or an end of a hunt does besides
(entries to LOCKOUT, the stack, the block sets) keeps them. -/

namespace Sys2Proof.Proofs.HuntFrames

open Sys2Proof.Machine Sys2Proof.Proofs.Occurrences

/-- A property that no update breaks but a new HUNT request at a slot and the occurrences HUNT_START and HUNT_END. -/
structure HuntBlind (P : State → Prop) : Prop where
  slot (s : State) (n : Rec) (x : Slot) :
    x.pend.hunt = (s.slot n).pend.hunt ∨ x.pend.hunt = none → P s → P (s.setSlot n x)
  out (s : State) (n : Rec) (f : Option Frame) : P s → P (s.setOutPlace n f)
  rcl (s : State) (b : Bay) (x : RecloseRecord) : P s → P (s.setRcl b x)
  stack (s : State) (l : List StackEntry) : P s → P (s.setStack l)
  hnc (s : State) (h : Hnc) : P s → P (s.setHnc h)
  occur (s : State) (f : Factor) (m : BitVec 9) (d : List Byte) :
    f ≠ fHuntStart → f ≠ fHuntEnd → P s → P (s.occur f m d)

theorem set_hunt_or_none (p : Pending) (c : ReqClass) (v : Option Command) (h : c ≠ .hunt ∨ v = none) :
    (p.set c v).hunt = p.hunt ∨ (p.set c v).hunt = none := by
  cases c <;> simp_all [Pending.set]

section Closure

variable {P : State → Prop} {s : State} (hP : HuntBlind P)
include hP

theorem HuntBlind.setPend {n : Rec} {c : ReqClass} {v : Option Command} (h : c ≠ .hunt ∨ v = none) (hs : P s) :
    P (s.setPend n c v) :=
  hP.slot s n _ (set_hunt_or_none _ c v h) hs

theorem HuntBlind.setResult {n : Rec} {r : LastResult} (hs : P s) : P (s.setResult n r) :=
  hP.slot s n _ (.inl rfl) hs

theorem HuntBlind.rccIssued {b : Bay} (hs : P s) : P (s.rccIssued b) := by
  unfold State.rccIssued
  exact ite_both (hP.rcl s b _ hs) hs

theorem HuntBlind.issueCmd {n : Rec} {c : ReqClass} {cmd : Command} (hs : P s) : P (s.issueCmd n c cmd) := by
  have hissued : P _ := hP.out _ n (some (s.bayCmdFrame n cmd (nextTag (s.slot n).lastTag)))
    (hP.slot s n ((s.slot n).issued c cmd s.mono (commandMs cmd)) (set_hunt_or_none _ c none (.inr rfl)) hs)
  unfold State.issueCmd
  dsimp only
  split
  · exact hP.rccIssued hissued
  · exact hissued

theorem HuntBlind.pendLamp {n : Rec} {a : LampArg} (hs : P s) : P (s.pendLamp n a) := by
  unfold State.pendLamp
  exact ite_both (hP.setPend (.inl (by decide)) hs) hs

theorem HuntBlind.lockPend {b : Bay} {cause : LockoutCause} (hs : P s) : P (s.lockPend b cause) :=
  hP.pendLamp (hP.occur _ _ _ _ (by decide) (by decide) (hP.rcl _ _ _ (hP.setPend (.inr rfl) hs)))

theorem HuntBlind.withdrawAtIssue {n : Rec} {c : ReqClass} {cmd : Command} {code : ResultCode} (hs : P s) :
    P (s.withdrawAtIssue n c cmd code) := by
  have hout : P (s.setPend n c none) := hP.setPend (.inr rfl) hs
  unfold State.withdrawAtIssue
  dsimp only
  split
  · exact ite_both (hP.lockPend hout) hout
  · exact hP.setResult hout
  · exact hout

theorem HuntBlind.issueFrom {n : Rec} (cs : List ReqClass) (hs : P s) : P (State.issueFrom cs n s).1 := by
  induction cs generalizing s with
  | nil => exact hs
  | cons c cs ih =>
    unfold State.issueFrom
    split
    · exact ih hs
    · exact ih (hP.setResult (hP.setPend (.inr rfl) hs))
    · split
      · exact ih (hP.withdrawAtIssue hs)
      · exact hP.issueCmd hs

theorem HuntBlind.issueNext {n : Rec} (hs : P s) : P (s.issueNext n) := by
  unfold State.issueNext
  exact ite_both (hP.issueFrom _ hs) hs

theorem HuntBlind.lock {b : Bay} {cause : LockoutCause} (hs : P s) : P (s.lock b cause) := by
  unfold State.lock
  exact ite_both (hP.issueNext (hP.lockPend hs)) hs

theorem HuntBlind.rejudgeWaiting (hs : P s) : P s.rejudgeWaiting :=
  forEach_inv P _ (fun _ _ ht => ite_both (hP.lock ht) ht) _ _ hs

theorem HuntBlind.changeStack {l : List StackEntry} {c : GroupCause} (hs : P s) : P (s.changeStack l c) := by
  have hl : P (s.setStack l) := hP.stack s l hs
  unfold State.changeStack
  exact ite_both hl (hP.occur _ _ _ _ (by decide) (by decide) (hP.rejudgeWaiting hl))

theorem HuntBlind.addReason {b : Bay} {r : BlockReason} (hs : P s) : P (s.addReason b r) := by
  have hput : P (s.putReason b r true) := hP.rcl s b _ hs
  unfold State.addReason
  exact ite_both hs (ite_both
    (hP.lock (hP.occur _ _ _ _ (by decide) (by decide) (hP.setPend (.inr rfl) hput))) hput)

theorem HuntBlind.removeReason {b : Bay} {r : BlockReason} (hs : P s) : P (s.removeReason b r) :=
  removeReason_closed (hP.rcl s b _ hs) hs

theorem HuntBlind.removeHunt {keep : Option Bay} (hs : P s) : P (s.removeHunt keep) :=
  forEach_inv P _ (fun _ _ ht => ite_both ht (hP.removeReason ht)) _ _ hs

theorem HuntBlind.addHunt (hs : P s) : P s.addHunt :=
  forEach_inv P _ (fun _ _ ht => ite_both (hP.addReason ht) ht) _ _ hs

theorem HuntBlind.placeHuntEntry (hs : P s) : P s.placeHuntEntry := by
  unfold State.placeHuntEntry
  split
  · exact ite_both (hP.changeStack hs) hs
  · exact hs

end Closure

/-- No channel is ARMED, and the record of a factor of the hunt stands. -/
theorem huntBlind_fac {f : Factor} (hf : f = fHuntStart ∨ f = fHuntEnd) (r : FactorRecord) :
    HuntBlind (fun t => Unarmed t ∧ t.fac f = r) where
  slot _ _ _ _ hs := hs
  out _ _ _ hs := hs
  rcl _ _ _ hs := hs
  stack _ _ hs := hs
  hnc _ _ hs := hs
  occur s g m d hstart hend hs := by
    have hne : g ≠ f := by rintro rfl; exact hf.elim hstart hend
    exact ⟨occur_unarmed hs.1 g m d, (occur_fac_other hs.1 hne m d).trans hs.2⟩

/-- No HUNT request waits at a slot. -/
theorem huntBlind_noRequest (n : Rec) : HuntBlind (fun t => (t.slot n).pend.hunt = none) where
  slot s k x h hs := by
    rw [State.setSlot_slot_at]
    split
    · next e => subst e; exact h.elim (fun h => h.trans hs) id
    · exact hs
  out _ _ _ hs := hs
  rcl _ _ _ hs := hs
  stack _ _ hs := hs
  hnc _ _ hs := hs
  occur s f m d _ _ hs := by
    unfold State.slot
    rw [State.maskE_bcu (s.occur_maskE f m d)]
    exact hs

end Sys2Proof.Proofs.HuntFrames

/-! One bay's slot and reclose record through what a hunt does over all bays: the requests judged again at a change of the
stack (R73, R95), HUNT added to the block sets (R81, R131) and removed from them (R142, R145). -/

namespace Sys2Proof.Proofs.HuntBays

open Sys2Proof.Machine Sys2Proof.Safety

/-- The slot and the reclose record of a bay are as they were. -/
structure SameBay (b : Bay) (s t : State) : Prop where
  slot : t.slot (bayRec b) = s.slot (bayRec b)
  rcl : t.rcl b = s.rcl b

/-- The slot and the reclose state of a bay are as they were; its block set may have changed. -/
structure Undisturbed (b : Bay) (s t : State) : Prop where
  slot : t.slot (bayRec b) = s.slot (bayRec b)
  state : (t.rcl b).state = (s.rcl b).state

section Relations

variable {b : Bay} {s t u : State}

theorem SameBay.refl (b : Bay) (s : State) : SameBay b s s := ⟨rfl, rfl⟩

theorem SameBay.trans (h : SameBay b s t) (k : SameBay b t u) : SameBay b s u :=
  ⟨k.slot.trans h.slot, k.rcl.trans h.rcl⟩

theorem Undisturbed.trans (h : Undisturbed b s t) (k : Undisturbed b t u) : Undisturbed b s u :=
  ⟨k.slot.trans h.slot, k.state.trans h.state⟩

theorem SameBay.undisturbed (h : SameBay b s t) : Undisturbed b s t := ⟨h.slot, congrArg _ h.rcl⟩

theorem sameBay_of_onlyAt {c : Bay} (h : OnlyAt (bayRec c) s t) (hne : b ≠ c) : SameBay b s t :=
  have hrec : bayRec b ≠ bayRec c := fun e => hne (Fin.castSucc_injective 8 e)
  ⟨h.slots _ hrec, h.reclose b hrec⟩

theorem sameBay_of_maskE (h : t.maskE = s.maskE) : SameBay b s t :=
  ⟨by unfold State.slot; rw [State.maskE_bcu h], by unfold State.rcl; rw [State.maskE_rcc h]⟩

end Relations

/-! ### One bay of a change made bay by bay -/

section EachBay

variable {f : Bay → State → State} (hat : ∀ c t, OnlyAt (bayRec c) t (f c t))
include hat

theorem foldl_sameBay {b : Bay} {l : List Bay} (hb : b ∉ l) (s : State) : SameBay b s (l.foldl (fun t c => f c t) s) := by
  induction l generalizing s with
  | nil => exact .refl b s
  | cons c l ih =>
    obtain ⟨hne, hl⟩ : b ≠ c ∧ b ∉ l := by simpa using hb
    exact (sameBay_of_onlyAt (hat c s) hne).trans (ih hl _)

/-- What a change made bay by bay does to one bay is what its step at that bay does, on a state that still has the bay's slot
and record. -/
theorem foldl_bay (hmask : ∀ c t, (f c t).maskR = t.maskR) {b : Bay} {l : List Bay} (hl : l.Nodup) (hb : b ∈ l)
    (s : State) : ∃ u, SameBay b s u ∧ u.maskR = s.maskR ∧ SameBay b (f b u) (l.foldl (fun t c => f c t) s) := by
  induction l generalizing s with
  | nil => cases hb
  | cons c l ih =>
    obtain ⟨hc, hl⟩ := List.nodup_cons.mp hl
    by_cases hbc : b = c
    · subst hbc
      exact ⟨s, .refl b s, rfl, foldl_sameBay hat hc _⟩
    · obtain ⟨u, hsame, hu, hstep⟩ := ih hl ((List.mem_cons.mp hb).resolve_left hbc) (f c s)
      exact ⟨u, (sameBay_of_onlyAt (hat c s) hbc).trans hsame, hu.trans (hmask c s), hstep⟩

theorem forEach_bay (hmask : ∀ c t, (f c t).maskR = t.maskR) (b : Bay) (s : State) :
    ∃ u, SameBay b s u ∧ u.maskR = s.maskR ∧ SameBay b (f b u) (forEach allBays f s) :=
  foldl_bay hat hmask (by decide) (mem_allBays b) s

end EachBay

theorem ite_maskR {c : Prop} [Decidable c] {s t u : State} (ht : t.maskR = s.maskR) (hu : u.maskR = s.maskR) :
    (if c then t else u).maskR = s.maskR :=
  ite_both (P := fun v => v.maskR = s.maskR) ht hu

theorem runs_of_maskR {s t : State} (h : t.maskR = s.maskR) (b : Bay) : t.runs b = s.runs b := by
  unfold State.runs State.protecting State.cap
  rw [State.maskR_mgu h, State.maskR_cap h]

theorem isWaiting_iff {s : State} {b : Bay} : s.isWaiting b = true ↔ (s.rcl b).state = .closing .waiting :=
  beq_iff_eq

theorem lock_maskR (s : State) (b : Bay) (c : LockoutCause) : (s.lock b c).maskR = s.maskR :=
  State.maskR_of_maskS (s.lock_maskS b c)

theorem isLockout_eq_false {r : RecloseState} (h : ∀ l, r ≠ .lockout l) : r.isLockout = false := by
  cases r with
  | lockout l => exact absurd rfl (h l)
  | _ => rfl

theorem lock_state {s : State} {b : Bay} {cause : LockoutCause} (hruns : s.runs b = true)
    (hstate : ∀ l, (s.rcl b).state ≠ .lockout l) : ((s.lock b cause).rcl b).state = .lockout cause := by
  have hlock : s.canLock b = true := by simp [State.canLock, hruns, isLockout_eq_false hstate]
  rw [State.lock_rcl hlock]

/-! ### A change of the stack (R73, R95) -/

/-- The bay's request waited in close phase WAITING, and the bay is locked out by it now. -/
structure ShotsExhausted (b : Bay) (s t : State) : Prop where
  waited : (s.rcl b).state = .closing .waiting
  locked : (t.rcl b).state = .lockout .shotsExhausted

section Stack

variable {b : Bay} {s t u : State}

theorem ShotsExhausted.after (h : Undisturbed b s t) (k : ShotsExhausted b t u) : ShotsExhausted b s u :=
  ⟨h.state.symm.trans k.waited, k.locked⟩

theorem ShotsExhausted.before (h : ShotsExhausted b s t) (k : Undisturbed b t u) : ShotsExhausted b s u :=
  ⟨h.waited, k.state.trans h.locked⟩

theorem rejudgeWaiting_bay (s : State) (b : Bay) :
    SameBay b s s.rejudgeWaiting ∨ ShotsExhausted b s s.rejudgeWaiting := by
  obtain ⟨u, hsame, -, hstep⟩ := forEach_bay (f := fun c t =>
      if t.runs c && t.isWaiting c && decide (t.effShots c ≤ (t.rcl c).shots) then t.lock c .shotsExhausted else t)
    (fun c t => ite_at _ (t.lock_at c _) (OnlyAt.refl _ t)) (fun c t => ite_maskR (lock_maskR t c _) rfl) b s
  split at hstep
  · next h =>
    simp only [Bool.and_eq_true, isWaiting_iff] at h
    obtain ⟨⟨hruns, hwaits⟩, -⟩ := h
    exact .inr ⟨hsame.rcl ▸ hwaits, (congrArg _ hstep.rcl).trans (lock_state hruns (by simp [hwaits]))⟩
  · exact .inl (hsame.trans hstep)

theorem changeStack_bay (s : State) (l : List StackEntry) (c : GroupCause) (b : Bay) :
    SameBay b s (s.changeStack l c) ∨ ShotsExhausted b s (s.changeStack l c) := by
  unfold State.changeStack
  dsimp only
  split
  · exact .inl ⟨rfl, rfl⟩
  · have hoccur : SameBay b _ _ := sameBay_of_maskE ((s.setStack l).rejudgeWaiting.occur_maskE fGroupChange 0
      [byte s.activeNo.val, byte (s.setStack l).activeNo.val, byte (topOrigin l).code, byte c.code])
    refine (rejudgeWaiting_bay (s.setStack l) b).imp (fun h => ?_) (fun h => ?_)
    · exact SameBay.trans ⟨h.slot, h.rcl⟩ hoccur
    · exact ShotsExhausted.before ⟨h.waited, h.locked⟩ hoccur.undisturbed

theorem changeStack_maskS (s : State) (l : List StackEntry) (c : GroupCause) :
    (s.changeStack l c).maskS = (s.setStack l).maskS :=
  (closedS_mask (s.setStack l)).changeStack rfl

theorem changeStack_hnc (s : State) (l : List StackEntry) (c : GroupCause) : (s.changeStack l c).hnc = s.hnc :=
  State.maskS_hnc (s := s.setStack l) (changeStack_maskS s l c)

theorem changeStack_fru (s : State) (l : List StackEntry) (c : GroupCause) :
    (s.changeStack l c).fru = { s.fru with stack := l } :=
  State.maskS_fru (s := s.setStack l) (changeStack_maskS s l c)

theorem changeStack_block (s : State) (l : List StackEntry) (c : GroupCause) (b : Bay) :
    ((s.changeStack l c).rcl b).block = (s.rcl b).block :=
  State.maskS_block (s := s.setStack l) (changeStack_maskS s l c) b

end Stack

/-! ### HUNT added to the block sets (R81, R131) -/

section Add

theorem cancelSequence_at (s : State) (b : Bay) (r : BlockReason) : OnlyAt (bayRec b) s (s.cancelSequence b r) :=
  ((s.setPend_at _ _ _).trans (State.occur_at _ _ _ _ _)).trans (State.lock_at _ b _)

theorem addReason_at (s : State) (b : Bay) (r : BlockReason) : OnlyAt (bayRec b) s (s.addReason b r) := by
  have hput : OnlyAt (bayRec b) s (s.putReason b r true) := s.setRcl_at b _
  unfold State.addReason
  exact ite_at _ (OnlyAt.refl _ s) (ite_at _ (hput.trans (cancelSequence_at _ b r)) hput)

theorem cancelSequence_state {s : State} {b : Bay} (hruns : s.runs b = true)
    (hstate : (s.rcl b).state = .dead ∨ (s.rcl b).state = .closing .waiting) :
    ((s.cancelSequence b .hunt).rcl b).state = .lockout .protectionBlocked := by
  have hmask := (s.setPend (bayRec b) .reclose none).occur_maskE fRecloseCancelled (bayMask b)
    [byte BlockReason.hunt.code, byte ((s.setPend (bayRec b) .reclose none).rcl b).shots]
  refine lock_state ((runs_of_maskR (State.maskR_of_maskS (State.maskS_of_maskE hmask)) b).trans hruns) fun l => ?_
  rw [(sameBay_of_maskE hmask).rcl]
  exact hstate.elim (fun h => by simp [State.setPend, h]) (fun h => by simp [State.setPend, h])

theorem putReason_state (s : State) (b : Bay) (r : BlockReason) (v : Bool) :
    ((s.putReason b r v).rcl b).state = (s.rcl b).state := by
  rw [State.putReason, State.setRcl_rcl]

theorem putReason_undisturbed (s : State) (b : Bay) (r : BlockReason) (v : Bool) :
    Undisturbed b s (s.putReason b r v) :=
  ⟨rfl, putReason_state s b r v⟩

theorem addHuntReason_bay (s : State) (b : Bay) :
    Undisturbed b s (s.addReason b .hunt) ∨ ((s.addReason b .hunt).rcl b).state = .lockout .protectionBlocked := by
  unfold State.addReason
  dsimp only
  split
  · exact .inl ⟨rfl, rfl⟩
  · split
    · next h =>
      simp only [Bool.and_eq_true, Bool.or_eq_true, beq_iff_eq, isWaiting_iff] at h
      exact .inr (cancelSequence_state h.1 h.2)
    · exact .inl (putReason_undisturbed s b _ _)

theorem addHuntReason_cancels {s : State} {b : Bay} (hruns : s.runs b = true) (hclear : (s.rcl b).block.hunt = false)
    (hstate : (s.rcl b).state = .dead ∨ (s.rcl b).state = .closing .waiting) :
    ((s.addReason b .hunt).rcl b).state = .lockout .protectionBlocked := by
  have hput := putReason_state s b .hunt true
  rw [← hput] at hstate
  unfold State.addReason
  rw [if_neg (by simp [BlockSet.has, hclear]), if_pos]
  · exact cancelSequence_state hruns hstate
  · simp only [Bool.and_eq_true, Bool.or_eq_true, beq_iff_eq, isWaiting_iff]
    exact ⟨hruns, hstate⟩

/-- The step of `addHunt` at one bay. -/
theorem addHunt_step (s : State) (b : Bay) : ∃ u, SameBay b s u ∧ u.maskR = s.maskR ∧
    SameBay b (if (s.cap (bayRec b)).inService then u.addReason b .hunt else u) s.addHunt := by
  obtain ⟨u, hsame, hmask, hstep⟩ := forEach_bay
    (f := fun c t => if (t.cap (bayRec c)).inService then t.addReason c .hunt else t)
    (fun c t => ite_at _ (addReason_at t c _) (OnlyAt.refl _ t))
    (fun c t => ite_maskR (t.addReason_maskR c .hunt) rfl) b s
  refine ⟨u, hsame, hmask, ?_⟩
  have hcap : u.cap = s.cap := by unfold State.cap; rw [State.maskR_cap hmask]
  rw [hcap] at hstep
  exact hstep

theorem addHunt_maskR (s : State) : s.addHunt.maskR = s.maskR :=
  forEach_keep State.maskR _ (fun b t => ite_maskR (t.addReason_maskR b .hunt) rfl) _ _

theorem addHunt_bay (s : State) (b : Bay) :
    Undisturbed b s s.addHunt ∨ (s.addHunt.rcl b).state = .lockout .protectionBlocked := by
  obtain ⟨u, hsame, -, hstep⟩ := addHunt_step s b
  split at hstep
  · refine (addHuntReason_bay u b).imp (fun h => ?_) (fun h => ?_)
    · exact (hsame.undisturbed.trans h).trans hstep.undisturbed
    · rw [hstep.rcl, h]
  · exact .inl (hsame.trans hstep).undisturbed

theorem addHunt_cancels {s : State} {b : Bay} (hruns : s.runs b = true) (hclear : (s.rcl b).block.hunt = false)
    (hstate : (s.rcl b).state = .dead ∨ (s.rcl b).state = .closing .waiting) :
    (s.addHunt.rcl b).state = .lockout .protectionBlocked := by
  obtain ⟨u, hsame, hmask, hstep⟩ := addHunt_step s b
  have hserved : (s.cap (bayRec b)).inService = true := (Bool.and_eq_true_iff.mp hruns).2
  rw [if_pos hserved] at hstep
  rw [← hsame.rcl] at hclear hstate
  rw [hstep.rcl, addHuntReason_cancels ((runs_of_maskR hmask b).trans hruns) hclear hstate]

theorem addHunt_hunt (s : State) (b : Bay) :
    (s.addHunt.rcl b).block.hunt = ((s.cap (bayRec b)).inService || (s.rcl b).block.hunt) := by
  obtain ⟨u, hsame, -, hstep⟩ := addHunt_step s b
  rw [hstep.rcl, ← hsame.rcl]
  cases (s.cap (bayRec b)).inService
  · rfl
  · exact (u.addReason_block b b .hunt).1.trans (if_pos rfl)

end Add

/-! ### HUNT removed from the block sets (R142, R145) -/

section Remove

/-- A reclose record without HUNT in its block set. -/
def withoutHunt (r : RecloseRecord) : RecloseRecord := { r with block := { r.block with hunt := false } }

theorem withoutHunt_of_clear {r : RecloseRecord} (h : r.block.hunt = false) : withoutHunt r = r := by
  unfold withoutHunt
  rw [← h]

theorem removeReason_at (s : State) (b : Bay) (r : BlockReason) : OnlyAt (bayRec b) s (s.removeReason b r) :=
  removeReason_closed (P := fun t => OnlyAt (bayRec b) s t) (s.setRcl_at b _) (OnlyAt.refl _ s)

theorem removeHuntReason_rcl (s : State) (b : Bay) : (s.removeReason b .hunt).rcl b = withoutHunt (s.rcl b) := by
  unfold State.removeReason
  split
  · exact s.setRcl_rcl b _
  · next h => exact (withoutHunt_of_clear (by simpa [BlockSet.has] using h)).symm

theorem removeHunt_rcl (s : State) (keep : Option Bay) (b : Bay) :
    (s.removeHunt keep).rcl b = if keep = some b then s.rcl b else withoutHunt (s.rcl b) := by
  obtain ⟨u, hsame, -, hstep⟩ := forEach_bay
    (fun c t => ite_at (keep == some c) (OnlyAt.refl _ t) (removeReason_at t c .hunt))
    (fun c t => ite_maskR rfl (t.removeReason_maskR c .hunt)) b s
  refine hstep.rcl.trans ?_
  rw [← hsame.rcl]
  by_cases h : keep = some b
  · simp [h]
  · simp [h, removeHuntReason_rcl]

/-- The removal of HUNT changes the reclose records alone. -/
theorem removeHunt_eq (s : State) (keep : Option Bay) :
    s.removeHunt keep = { s with rcc := (s.removeHunt keep).rcc } := by
  have hstep (b : Bay) (t : State) : ({ t.removeReason b .hunt with rcc := s.rcc } : State) = { t with rcc := s.rcc } := by
    unfold State.removeReason
    split <;> rfl
  have hrest := forEach_keep (fun t => { t with rcc := s.rcc })
    (fun b t => if keep == some b then t else t.removeReason b .hunt)
    (fun b t => by split; exacts [rfl, hstep b t]) allBays s
  exact congrArg (fun t : State => { t with rcc := (s.removeHunt keep).rcc }) hrest

theorem removeHunt_hnc (s : State) (keep : Option Bay) : (s.removeHunt keep).hnc = s.hnc := by
  rw [removeHunt_eq]

theorem removeHunt_fru (s : State) (keep : Option Bay) : (s.removeHunt keep).fru = s.fru := by
  rw [removeHunt_eq]

theorem removeHunt_bcu (s : State) (keep : Option Bay) : (s.removeHunt keep).bcu = s.bcu := by
  rw [removeHunt_eq]

theorem removeHunt_mgu (s : State) (keep : Option Bay) : (s.removeHunt keep).mgu = s.mgu := by
  rw [removeHunt_eq]

theorem removeHunt_undisturbed (s : State) (keep : Option Bay) (b : Bay) : Undisturbed b s (s.removeHunt keep) := by
  refine ⟨by unfold State.slot; rw [removeHunt_bcu], ?_⟩
  rw [removeHunt_rcl]
  split <;> rfl

end Remove

end Sys2Proof.Proofs.HuntBays

/-! The end of a hunt (R145), and a HUNT request placed at a slot (R51, R52, R133). -/

namespace Sys2Proof.Proofs.HuntEnd

open Sys2Proof.Machine Sys2Proof.Safety
open Sys2Proof.Proofs.BreakerFail (isFree_iff_eq_free)
open Sys2Proof.Proofs.Occurrences Sys2Proof.Proofs.HuntFrames Sys2Proof.Proofs.HuntBays

/-! ### The end of a hunt (R145) -/

section End

/-- HUNT is out of the block sets (R145, step 1). -/
@[irreducible] def unblocked (s : State) : State := (s.setHnc { s.hnc with timer := none }).removeHunt none

/-- The HUNT entry is out of the stack too (R145, step 2). -/
@[irreducible] def withdrawn (s : State) : State := (unblocked s).changeStack (removeEntry .hunt (unblocked s).fru.stack) .huntEnd

/-- What an end of a hunt leaves of its context (R145, step 3). -/
def endedContext (h : Hnc) (r : HuntResult) (named : Option Bay) (now : Word32) : Hnc :=
  { h with last := some { result := r, bay := named, started := h.started, ended := now },
           current := none, pendingResult := none, restoreOut := false, timer := none, state := .idle }

/-- The bay mask and the fields of HUNT_END (R145, step 4). -/
def endMask (named : Option Bay) : BitVec 9 := match named with | some b => bayMask b | none => 0

def endFields (r : HuntResult) (named under : Option Bay) (why : LockedBy) (started ended : Word32) : List Byte :=
  [byte r.code, bayByte named, bayByte under, byte why.code] ++ bytes32 started ++ bytes32 ended

theorem storeHuntResult_started (s : State) (r : HuntResult) (named : Option Bay) :
    (s.storeHuntResult r named).hnc.started = s.hnc.started := rfl

theorem endHunt_eq (s : State) (r : HuntResult) (named under : Option Bay) (why : LockedBy) :
    s.endHunt r named under why = ((withdrawn s).storeHuntResult r named).occur fHuntEnd (endMask named)
      (endFields r named under why (withdrawn s).hnc.started (withdrawn s).stamp) := by
  rw [← storeHuntResult_started (withdrawn s) r named]
  unfold State.endHunt endMask endFields withdrawn unblocked
  cases named <;> rfl

theorem storeHuntResult_undisturbed (s : State) (r : HuntResult) (named : Option Bay) (b : Bay) :
    Undisturbed b s (s.storeHuntResult r named) :=
  ⟨rfl, rfl⟩

section Withdrawn

variable (s : State) (b : Bay)

theorem unblocked_maskH : (unblocked s).maskH = s.maskH := by
  have hs := closedH_mask s
  unfold unblocked
  exact hs.removeHunt (hs.hnc s _ rfl rfl)

theorem withdrawn_maskH : (withdrawn s).maskH = s.maskH := by
  have hs := closedH_mask s
  unfold withdrawn
  exact hs.changeStack (hs.unstack _ (unblocked_maskH s))

theorem withdrawn_hnc : (withdrawn s).hnc = { s.hnc with timer := none } := by
  rw [withdrawn, changeStack_hnc, unblocked, removeHunt_hnc, State.setHnc_value]

theorem withdrawn_fru : (withdrawn s).fru = { s.fru with stack := removeEntry .hunt s.fru.stack } := by
  rw [withdrawn, changeStack_fru, unblocked, removeHunt_fru, State.setHnc_fru]

theorem withdrawn_hunt : ((withdrawn s).rcl b).block.hunt = false := by
  rw [withdrawn, changeStack_block, unblocked, removeHunt_rcl]
  rfl

theorem unblocked_undisturbed : Undisturbed b s (unblocked s) := by
  have hset : Undisturbed b s (s.setHnc { s.hnc with timer := none }) := ⟨rfl, rfl⟩
  unfold unblocked
  exact hset.trans (removeHunt_undisturbed _ none b)

theorem withdrawn_bay : Undisturbed b s (withdrawn s) ∨ ShotsExhausted b s (withdrawn s) := by
  have hcleared := unblocked_undisturbed s b
  unfold withdrawn
  exact (changeStack_bay _ _ _ b).imp (fun h => hcleared.trans h.undisturbed) (fun h => h.after hcleared)

theorem huntBlind_withdrawn {P : State → Prop} (hP : HuntBlind P) {s : State} (hs : P s) : P (withdrawn s) := by
  unfold withdrawn unblocked
  exact hP.changeStack (hP.removeHunt (hP.hnc s _ hs))

end Withdrawn

theorem stamp_of_maskH {s t : State} (h : t.maskH = s.maskH) : t.stamp = s.stamp := by
  have hmono : t.mono = s.mono := State.maskM_mono (State.maskM_of_maskB (State.maskB_of_maskH h))
  unfold State.stamp
  rw [hmono, State.maskH_mgu h]

section Fields

variable {s : State} (r : HuntResult) (named under : Option Bay) (why : LockedBy)

theorem endHunt_maskE (s : State) :
    (s.endHunt r named under why).maskE = ((withdrawn s).storeHuntResult r named).maskE := by
  rw [endHunt_eq, State.occur_maskE]

theorem endHunt_hnc (s : State) : (s.endHunt r named under why).hnc = endedContext s.hnc r named s.stamp := by
  rw [State.maskE_hnc (endHunt_maskE r named under why s), State.storeHuntResult, State.setHnc_value, withdrawn_hnc,
    stamp_of_maskH (withdrawn_maskH s), endedContext]

theorem endHunt_fru (s : State) :
    (s.endHunt r named under why).fru = { s.fru with stack := removeEntry .hunt s.fru.stack } := by
  rw [State.maskE_fru (endHunt_maskE r named under why s), ← withdrawn_fru, State.storeHuntResult, State.setHnc_fru]

theorem endHunt_hunt (s : State) (b : Bay) : ((s.endHunt r named under why).rcl b).block.hunt = false := by
  rw [(sameBay_of_maskE (endHunt_maskE r named under why s)).rcl]
  exact withdrawn_hunt s b

/-- At the end of a hunt a bay's slot and reclose state stay, but where its waiting reclose request is judged again (R73). -/
theorem endHunt_bay (s : State) (b : Bay) : Undisturbed b s (s.endHunt r named under why) ∨
    ShotsExhausted b s (s.endHunt r named under why) := by
  have hoccur := (sameBay_of_maskE (b := b) (endHunt_maskE r named under why s)).undisturbed
  have hafter := (storeHuntResult_undisturbed _ r named b).trans hoccur
  exact (withdrawn_bay s b).imp (fun h => h.trans hafter) (fun h => h.before hafter)

theorem endHunt_noRequest {n : Rec} (h : (s.slot n).pend.hunt = none) :
    ((s.endHunt r named under why).slot n).pend.hunt = none := by
  rw [State.slot, State.maskE_bcu (endHunt_maskE r named under why s)]
  exact huntBlind_withdrawn (huntBlind_noRequest n) h

theorem stored_unarmed (h : Unarmed s) : Unarmed ((withdrawn s).storeHuntResult r named) ∧
    ((withdrawn s).storeHuntResult r named).fac fHuntStart = s.fac fHuntStart := by
  have hP := huntBlind_fac (.inl rfl) (s.fac fHuntStart)
  exact hP.hnc _ _ (huntBlind_withdrawn hP ⟨h, rfl⟩)

theorem endHunt_huntStart (h : Unarmed s) : (s.endHunt r named under why).fac fHuntStart = s.fac fHuntStart := by
  obtain ⟨hunarmed, hfac⟩ := stored_unarmed r named h
  rw [endHunt_eq, occur_fac_other hunarmed (by decide), hfac]

theorem endHunt_detail (h : Unarmed s) (hpart : s.mgu.part ≠ .bypass) :
    ((s.endHunt r named under why).fac fHuntEnd).lastDetail =
      some (detail (endFields r named under why s.hnc.started s.stamp)) := by
  have hpart' : ((withdrawn s).storeHuntResult r named).mgu.part ≠ .bypass := by
    rw [State.storeHuntResult, State.setHnc_mgu, State.maskH_mgu (withdrawn_maskH s)]
    exact hpart
  rw [endHunt_eq, occur_fac_same (stored_unarmed r named h).1 hpart', withdrawn_hnc, stamp_of_maskH (withdrawn_maskH s)]
  rfl

end Fields

end End

/-! ### A HUNT request placed at a slot (R51, R52) -/

section Place

/-- A HUNT request that R51 accepts, put at its slot. -/
def withRequest (s : State) (n : Rec) (cmd : Command) : State := (s.setPend n .hunt (some cmd)).issueNext n

variable {s : State} {n : Rec} {cmd : Command}

theorem place_accepted (hjudge : s.judgeReq n .hunt cmd = none) : s.place n .hunt cmd = .ok (withRequest s n cmd) := by
  unfold State.place
  rw [hjudge, State.tellReplaced_eq]
  rfl

theorem place_refused {code : ResultCode} (hjudge : s.judgeReq n .hunt cmd = some code) :
    s.place n .hunt cmd = .error code := by
  unfold State.place
  rw [hjudge]

theorem withRequest_maskS (s : State) (n : Rec) (cmd : Command) : (withRequest s n cmd).maskS = s.maskS :=
  (closedS_mask s).issueNext ((closedS_mask s).setPend (.inl (by decide)) rfl)

theorem withRequest_at (s : State) (n : Rec) (cmd : Command) : OnlyAt n s (withRequest s n cmd) :=
  (s.setPend_at n _ _).trans (State.issueNext_at _ n)

/-- Where a command is in flight, the request waits. -/
theorem withRequest_of_busy (h : (s.slot n).state ≠ .free) : withRequest s n cmd = s.setPend n .hunt (some cmd) := by
  have hslot : ((s.setPend n .hunt (some cmd)).slot n).state = (s.slot n).state := by
    rw [State.setPend, State.setSlot_slot]
  unfold withRequest State.issueNext
  exact if_neg (by rwa [isFree_iff_eq_free, hslot])

/-- At a FREE slot with nothing pending the request is issued. -/
theorem withRequest_of_free (hjudge : s.judgeReq n .hunt cmd = none) (hcmd : cmd ≠ .indicate .noChange)
    (hfree : (s.slot n).state = .free) (hpend : (s.slot n).pend = Pending.none) :
    withRequest s n cmd = s.issueCmd n .hunt cmd :=
  Except.ok.inj ((place_accepted hjudge).symm.trans (State.place_issued hjudge hfree hpend hcmd))

theorem huntPlaced_withRequest (hjudge : s.judgeReq n .hunt cmd = none) (hcmd : cmd ≠ .indicate .noChange) :
    HuntPlaced s (withRequest s n cmd) n cmd (commandMs cmd) := by
  refine ⟨fun hfree hpend => ?free, fun hbusy => ?busy⟩
  case free =>
    rw [withRequest_of_free hjudge hcmd hfree hpend, State.issueCmd_slot, Slot.issued, hpend, Pending.none_set]
    rfl
  case busy =>
    rw [withRequest_of_busy hbusy]
    exact s.setSlot_slot n _

theorem withRequest_rcc (hjudge : s.judgeReq n .hunt cmd = none) (hcmd : cmd ≠ .indicate .noChange)
    (h : (s.slot n).state ≠ .free ∨ (s.slot n).pend = Pending.none) : (withRequest s n cmd).rcc = s.rcc := by
  by_cases hfree : (s.slot n).state = .free
  · rw [withRequest_of_free hjudge hcmd hfree (h.resolve_left (not_not_intro hfree))]
    exact s.issueCmd_rcc n .hunt cmd (by decide)
  · rw [withRequest_of_busy hfree]
    rfl

/-- A HUNT OPEN that waits at a FREE slot is issued before any RECLOSE request: only a TRIP request comes first. -/
theorem issueFrom_rcc_of_huntOpen {cs : List ReqClass} (h : (s.slot n).pend.hunt = some .opening) :
    (State.issueFrom (.hunt :: cs) n s).1.rcc = s.rcc := by
  unfold State.issueFrom
  rw [show (s.slot n).pend.get .hunt = some .opening from h]
  exact s.issueCmd_rcc n .hunt .opening (by decide)

theorem withRequest_open_rcc (s : State) (n : Rec) : (withRequest s n .opening).rcc = s.rcc := by
  have hput : ((s.setPend n .hunt (some .opening)).slot n).pend.hunt = some .opening := by
    rw [State.setPend, State.setSlot_slot]
    rfl
  have hrcc : (s.setPend n .hunt (some .opening)).rcc = s.rcc := rfl
  rw [withRequest, ← hrcc]
  generalize s.setPend n .hunt (some .opening) = t at hput
  unfold State.issueNext classOrder
  split
  · unfold State.issueFrom
    split
    · exact issueFrom_rcc_of_huntOpen hput
    · exact issueFrom_rcc_of_huntOpen (by simpa [State.completeNoChange, State.setPend, State.setResult, Pending.set])
    · split
      · exact issueFrom_rcc_of_huntOpen (by simpa [State.withdrawAtIssue, State.setPend, Pending.set])
      · exact t.issueCmd_rcc n .trip _ (by decide)
  · rfl

theorem withRequest_fac {f : Factor} (hf : f = fHuntStart ∨ f = fHuntEnd) (h : Unarmed s) :
    (withRequest s n cmd).fac f = s.fac f :=
  have hput : Unarmed (s.setPend n .hunt (some cmd)) ∧ (s.setPend n .hunt (some cmd)).fac f = s.fac f := ⟨h, rfl⟩
  ((huntBlind_fac hf (s.fac f)).issueNext hput).2

end Place

end Sys2Proof.Proofs.HuntEnd

/-! The selection of a candidate (R132, R133): which candidates it passes over, and what it leaves where it tests one and where
the list is exhausted. -/

namespace Sys2Proof.Proofs.HuntSelection

open Sys2Proof.Machine Sys2Proof.Safety
open Sys2Proof.Proofs.Occurrences Sys2Proof.Proofs.HuntFrames Sys2Proof.Proofs.HuntBays Sys2Proof.Proofs.HuntEnd

/-! ### The tests of R132 -/

section Tests

/-- A bay that the RCC closes or has locked out is no candidate (R132). -/
def Engaged (r : RecloseState) : Prop := (∃ p, r = .closing p) ∨ ∃ l, r = .lockout l

theorem engaged_iff_code (r : RecloseState) : Engaged r ↔ r.code = 5 ∨ r.code = 3 := by
  cases r <;> simp [Engaged, RecloseState.code]

/-- The model's tests are those of R132. -/
theorem passedOver_iff {t : State} {c : Candidate} {o : CandOutcome} : PassedOver t c o ↔ t.skipOutcome c = some o := by
  unfold PassedOver State.skipOutcome
  cases c.bay with
  | none => simp [eq_comm (a := o)]
  | some b =>
    have hengaged := engaged_iff_code (t.rcl b).state
    unfold Engaged at hengaged
    simp only [Option.some.injEq, exists_eq_left', reduceCtorEq, false_and, false_or, hengaged, eq_comm (a := o)]
    cases (t.cap (bayRec b)).inService
    case false => simp
    cases (t.status (bayRec b)).presence
    case false => simp
    cases (t.status (bayRec b)).localMode
    case true => simp
    cases (t.status (bayRec b)).interlock
    case true => simp
    by_cases hopened : (t.status (bayRec b)).position ≠ .closed ∨ (t.rcl b).state.code = 5 ∨ (t.rcl b).state.code = 3
    · simp [hopened, or_assoc]
    · by_cases hreverse : c.snapshot = some .reverse
      · simp [hopened, hreverse, or_assoc]
      · simp [hopened, hreverse, or_assoc]

theorem skipOutcome_congr {s t : State} (hmask : t.maskH = s.maskH)
    (hrcl : ∀ b, Engaged (t.rcl b).state ↔ Engaged (s.rcl b).state) (c : Candidate) :
    t.skipOutcome c = s.skipOutcome c := by
  have hcap : t.cap = s.cap := by
    unfold State.cap
    rw [State.maskM_bcu_cap (State.maskM_of_maskB (State.maskB_of_maskH hmask))]
  have hstatus : t.status = s.status := by
    unfold State.status
    rw [State.maskH_bcu_status hmask]
  refine Option.ext fun o => ?_
  rw [← passedOver_iff, ← passedOver_iff]
  unfold Engaged at hrcl
  simp only [PassedOver, hcap, hstatus, hrcl]

theorem bay_of_skipOutcome_none {s : State} {c : Candidate} (h : s.skipOutcome c = none) : ∃ b, c.bay = some b := by
  cases hbay : c.bay with
  | none => simp [State.skipOutcome, hbay] at h
  | some b => exact ⟨b, rfl⟩

theorem not_passedOver {s : State} {c : Candidate} (h : s.skipOutcome c = none) (o : CandOutcome) :
    ¬ PassedOver s c o := by
  rw [passedOver_iff, h]
  exact nofun

/-- A candidate that is tested is in service, not in local mode, and neither being closed nor locked out. -/
theorem tests_of_skipOutcome_none {s : State} {c : Candidate} {b : Bay} (hbay : c.bay = some b)
    (h : s.skipOutcome c = none) : (s.cap (bayRec b)).inService = true ∧ (s.status (bayRec b)).localMode = false ∧
      ¬ Engaged (s.rcl b).state := by
  have hnone := not_passedOver h
  by_cases habsent : (s.cap (bayRec b)).inService = false ∨ (s.status (bayRec b)).presence = false
  · exact absurd (.inr ⟨b, hbay, .inl ⟨habsent, rfl⟩⟩) (hnone .skippedAbsent)
  cases hlocal : (s.status (bayRec b)).localMode
  case true => exact absurd (.inr ⟨b, hbay, .inr (.inl ⟨habsent, hlocal, rfl⟩)⟩) (hnone .skippedLocal)
  cases hlock : (s.status (bayRec b)).interlock
  case true => exact absurd (.inr ⟨b, hbay, .inr (.inr (.inl ⟨habsent, hlocal, hlock, rfl⟩))⟩) (hnone .skippedInterlock)
  refine ⟨by simpa using fun e => habsent (.inl e), rfl, fun hengaged => ?_⟩
  exact hnone .skippedOpen (.inr ⟨b, hbay, .inr (.inr (.inr (.inl ⟨habsent, hlocal, hlock, .inr hengaged, rfl⟩)))⟩)

/-- A HUNT OPEN at a candidate that is tested is accepted (R51, R132). -/
theorem judgeReq_of_skipOutcome_none {s : State} {c : Candidate} {b : Bay} (hbay : c.bay = some b)
    (h : s.skipOutcome c = none) : s.judgeReq (bayRec b) .hunt .opening = none := by
  obtain ⟨hserved, hremote, -⟩ := tests_of_skipOutcome_none hbay h
  exact State.judgeReq_none hserved (by simp) hremote (by simp) (by simp)

end Tests

/-! ### Going through the candidates -/

section Walk

/-- A state in which the candidate at a position is selected for its test. -/
def testing (s : State) (k : Fin 8) : State := (s.setHnc { s.hnc with current := some k }).huntTo .opening none

/-- In `u` the candidates at the positions given have been passed over, each with the outcome of R132. -/
structure PassesOver (s : State) (l : List (Fin 8)) (u : State) : Prop where
  same : u = s.setHnc { s.hnc with cands := u.hnc.cands }
  passed : ∀ k ∈ l, ∃ c o, s.candidate k = some c ∧ s.skipOutcome c = some o ∧
    u.candidate k = some { c with outcome := o }
  others : ∀ k, k ∉ l → u.candidate k = s.candidate k

/-- What a selection from the positions given comes to: the list is exhausted, or the first candidate that is not passed over
is tested. -/
inductive Selection (s : State) : List (Fin 8) → State → Prop
  | exhausted {l : List (Fin 8)} {u : State} (h : PassesOver s l u) :
      Selection s l (u.endHunt .exhausted none none .none)
  | tests {before after : List (Fin 8)} {k : Fin 8} {u : State} {c : Candidate} {b : Bay} (h : PassesOver s before u)
      (hcand : s.candidate k = some c) (hbay : c.bay = some b) (hskip : s.skipOutcome c = none) :
      Selection s (before ++ k :: after) (withRequest (testing u k) (bayRec b) .opening)

variable {s u t : State} {k : Fin 8} {l : List (Fin 8)} {c : Candidate} {o : CandOutcome}

theorem setOutcome_candidate (s : State) (k j : Fin 8) (o : CandOutcome) :
    (s.setOutcome k o).candidate j =
      if k = j then (s.candidate j).map (fun c => { c with outcome := o }) else s.candidate j := by
  unfold State.candidate State.setOutcome
  rw [State.setHnc_value, List.getElem?_modify]
  by_cases h : k = j
  · simp [h]
  · have hval : k.val ≠ j.val := fun e => h (Fin.ext e)
    simp [h, hval]

theorem PassesOver.nil (s : State) : PassesOver s [] s := ⟨rfl, by simp, by simp⟩

theorem PassesOver.cons (hcand : s.candidate k = some c) (hskip : s.skipOutcome c = some o) (hk : k ∉ l)
    (h : PassesOver (s.setOutcome k o) l u) : PassesOver s (k :: l) u where
  same := h.same
  passed j hj := by
    rcases List.mem_cons.mp hj with rfl | hj
    · refine ⟨c, o, hcand, hskip, ?_⟩
      rw [h.others j hk, setOutcome_candidate, if_pos rfl, hcand]
      rfl
    · obtain ⟨c', o', hcand', hskip', hu⟩ := h.passed j hj
      rw [setOutcome_candidate, if_neg (fun e : k = j => hk (e ▸ hj))] at hcand'
      exact ⟨c', o', hcand', hskip', hu⟩
  others j hj := by
    obtain ⟨hne, hl⟩ : j ≠ k ∧ j ∉ l := by simpa using hj
    rw [h.others j hl, setOutcome_candidate, if_neg hne.symm]

theorem Selection.cons (hcand : s.candidate k = some c) (hskip : s.skipOutcome c = some o) (hk : k ∉ l)
    (h : Selection (s.setOutcome k o) l t) : Selection s (k :: l) t := by
  cases h with
  | exhausted h => exact .exhausted (h.cons hcand hskip hk)
  | @tests before after j u c' b h hcand' hbay hskip' =>
    have hkj : k ≠ j := fun e => hk (by simp [e])
    rw [setOutcome_candidate, if_neg hkj] at hcand'
    exact .tests (before := k :: before) (h.cons hcand hskip (fun hmem => hk (List.mem_append_left _ hmem)))
      hcand' hbay hskip'

theorem selectFrom_cons_passed (hcand : s.candidate k = some c) (hskip : s.skipOutcome c = some o) :
    State.selectFrom (k :: l) s = State.selectFrom l (s.setOutcome k o) := by
  rw [State.selectFrom]
  simp only [hcand, hskip]

theorem selectFrom_cons_tested {b : Bay} (hcand : s.candidate k = some c) (hbay : c.bay = some b)
    (hskip : s.skipOutcome c = none) :
    State.selectFrom (k :: l) s = withRequest (testing s k) (bayRec b) .opening := by
  have hplace : (testing s k).place (bayRec b) .hunt .opening = .ok (withRequest (testing s k) (bayRec b) .opening) :=
    place_accepted (judgeReq_of_skipOutcome_none (s := s) hbay hskip)
  rw [State.selectFrom]
  simp only [hcand, hskip, hbay]
  rw [← testing, hplace]

theorem selectFrom_selection {l : List (Fin 8)} (hl : l.Nodup) {s : State} (hfull : ∀ k ∈ l, ∃ c, s.candidate k = some c) :
    Selection s l (State.selectFrom l s) := by
  induction l generalizing s with
  | nil => exact .exhausted (.nil s)
  | cons k l ih =>
    obtain ⟨hk, hl⟩ := List.nodup_cons.mp hl
    obtain ⟨c, hcand⟩ := hfull k (by simp)
    cases hskip : s.skipOutcome c with
    | none =>
      obtain ⟨b, hbay⟩ := bay_of_skipOutcome_none hskip
      rw [selectFrom_cons_tested hcand hbay hskip]
      exact .tests (before := []) (.nil s) hcand hbay hskip
    | some o =>
      rw [selectFrom_cons_passed hcand hskip]
      refine .cons hcand hskip hk (ih hl fun j hj => ?_)
      rw [setOutcome_candidate, if_neg (fun e : k = j => hk (e ▸ hj))]
      exact hfull j (by simp [hj])

end Walk

/-! ### What a selection leaves -/

section Leaves

variable {s u t : State} {l : List (Fin 8)}

theorem PassesOver.maskH (h : PassesOver s l u) : u.maskH = s.maskH := by
  rw [h.same]
  exact s.setHnc_maskH _ rfl

theorem PassesOver.hnc (h : PassesOver s l u) : u.hnc = { s.hnc with cands := u.hnc.cands } :=
  congrArg State.hnc h.same

theorem PassesOver.fru (h : PassesOver s l u) : u.fru = s.fru := by rw [h.same, State.setHnc_fru]

theorem PassesOver.rcc (h : PassesOver s l u) : u.rcc = s.rcc := by rw [h.same, State.setHnc_rcc]

theorem PassesOver.bcu (h : PassesOver s l u) : u.bcu = s.bcu := by rw [h.same, State.setHnc_bcu]

theorem PassesOver.bay (h : PassesOver s l u) (b : Bay) : SameBay b s u :=
  ⟨by rw [State.slot, h.bcu]; rfl, by rw [State.rcl, h.rcc]; rfl⟩

theorem PassesOver.fac (h : PassesOver s l u) (f : Factor) : u.fac f = s.fac f := by
  rw [h.same, State.setHnc_reads_fac]

theorem PassesOver.unarmed (h : PassesOver s l u) (hs : Unarmed s) : Unarmed u := by
  rw [h.same]
  exact hs

theorem testing_maskH (s : State) (k : Fin 8) : (testing s k).maskH = s.maskH :=
  (closedH_mask s).huntTo ((closedH_mask s).hnc s { s.hnc with current := some k } rfl rfl)

theorem tested_hnc (u : State) (k : Fin 8) (n : Rec) : (withRequest (testing u k) n .opening).hnc =
    { u.hnc with current := some k, state := .opening, timer := none } :=
  State.maskS_hnc (withRequest_maskS (testing u k) n .opening)

theorem tested_fru (u : State) (k : Fin 8) (n : Rec) : (withRequest (testing u k) n .opening).fru = u.fru :=
  State.maskS_fru (s := testing u k) (withRequest_maskS (testing u k) n .opening)

theorem tested_rcl (h : PassesOver s l u) (k : Fin 8) (n : Rec) (b : Bay) :
    (withRequest (testing u k) n .opening).rcl b = s.rcl b := by
  have hrcc : (testing u k).rcc = s.rcc := h.rcc
  rw [State.rcl, withRequest_open_rcc, hrcc, State.rcl]

theorem Selection.maskH (h : Selection s l t) : t.maskH = s.maskH := by
  cases h with
  | exhausted h => exact (State.endHunt_maskH _ _ _ _ _).trans h.maskH
  | tests h =>
    exact (State.maskH_of_maskS (withRequest_maskS _ _ _)).trans ((testing_maskH _ _).trans h.maskH)

theorem Selection.context (h : Selection s l t) :
    t.hnc.rearm = s.hnc.rearm ∧ t.hnc.started = s.hnc.started := by
  cases h with
  | exhausted h => rw [endHunt_hnc, h.hnc]; exact ⟨rfl, rfl⟩
  | tests h => rw [tested_hnc, h.hnc]; exact ⟨rfl, rfl⟩

theorem Selection.goes (h : Selection s l t) : t.hnc.state = .opening ∨
    (t.hnc.state = .idle ∧ t.hnc.current = none ∧
      t.hnc.last = some { result := .exhausted, bay := none, started := s.hnc.started, ended := s.stamp }) := by
  cases h with
  | exhausted h =>
    rw [endHunt_hnc, h.hnc, stamp_of_maskH h.maskH]
    exact .inr ⟨rfl, rfl, rfl⟩
  | tests h => exact .inl (by rw [tested_hnc])

theorem Selection.stack (h : Selection s l t) :
    t.fru.stack = if t.hnc.state = .opening then s.fru.stack else removeEntry .hunt s.fru.stack := by
  cases h with
  | exhausted h =>
    rw [endHunt_hnc, if_neg (by simp [endedContext]), endHunt_fru, h.fru]
  | tests h => rw [tested_hnc, if_pos rfl, tested_fru, h.fru]

theorem Selection.hunt (h : Selection s l t) (b : Bay) :
    (t.rcl b).block.hunt = (decide (t.hnc.state = .opening) && (s.rcl b).block.hunt) := by
  cases h with
  | exhausted h =>
    rw [endHunt_hunt, endHunt_hnc]
    rfl
  | tests h =>
    rw [tested_rcl h, tested_hnc]
    rfl

/-- Of the reclose states a selection changes only a close phase WAITING, to LOCKOUT. -/
theorem Selection.bay (h : Selection s l t) (b : Bay) :
    (t.rcl b).state = (s.rcl b).state ∨ ShotsExhausted b s t := by
  cases h with
  | exhausted h =>
    have hsame := (h.bay b).undisturbed
    exact (endHunt_bay _ _ _ _ _ b).imp (fun k => (hsame.trans k).state) (fun k => k.after hsame)
  | tests h => exact .inl (by rw [tested_rcl h])

theorem Selection.locked (h : Selection s l t) {b : Bay} {cause : LockoutCause}
    (hs : (s.rcl b).state = .lockout cause) : (t.rcl b).state = .lockout cause := by
  rcases h.bay b with hsame | hexhausted
  · exact hsame.trans hs
  · exact absurd (hexhausted.waited.symm.trans hs) (by simp)

theorem Selection.skipOutcome (h : Selection s l t) (c : Candidate) : t.skipOutcome c = s.skipOutcome c := by
  refine skipOutcome_congr h.maskH (fun b => ?_) c
  rcases h.bay b with hsame | hexhausted
  · rw [hsame]
  · rw [hexhausted.waited, hexhausted.locked]
    simp [Engaged]

theorem Selection.huntStart (h : Selection s l t) (hs : Unarmed s) : t.fac fHuntStart = s.fac fHuntStart := by
  cases h with
  | exhausted h => rw [endHunt_huntStart _ _ _ _ (h.unarmed hs), h.fac]
  | @tests _ _ k u _ _ h =>
    have htesting : Unarmed (testing u k) := h.unarmed hs
    exact (withRequest_fac (.inl rfl) htesting).trans (h.fac _)

end Leaves

end Sys2Proof.Proofs.HuntSelection

/-! The start of a hunt (R131): the state at the end of the start actions, and with the selection of the first candidate all that
HuntStarts says. -/

namespace Sys2Proof.Proofs.HuntStart

open Sys2Proof.Machine Sys2Proof.Safety
open Sys2Proof.Proofs.Occurrences Sys2Proof.Proofs.HuntFrames Sys2Proof.Proofs.HuntBays Sys2Proof.Proofs.HuntEnd
  Sys2Proof.Proofs.HuntSelection

/-! ### The start actions, one by one -/

/-- The hunt context with the plan copied (R131, steps 1 to 3). -/
def planned (s : State) : State :=
  s.setHnc { s.hnc with rearm := false, started := s.stamp, cands := s.copyPlan, timer := none }

/-- The HUNT entry is placed (R131, step 4). -/
@[irreducible] def stacked (s : State) : State := (planned s).placeHuntEntry

/-- HUNT is added to the block sets (R131, step 5). -/
@[irreducible] def blocked (s : State) : State := (stacked s).addHunt

/-- HUNT_START occurs (R131, step 6). -/
@[irreducible] def announced (s : State) (how : HuntHow) : State :=
  (blocked s).occur fHuntStart 0 [byte how.code, (planned s).huntGroupByte,
    byte ((blocked s).hnc.cands.filter (fun c => c.bay.isSome)).length]

theorem startHuntNow_eq (s : State) (how : HuntHow) :
    s.startHuntNow how = State.selectFrom (positionsFrom 0) (announced s how) := by
  unfold State.startHuntNow announced blocked stacked planned
  rfl

/-- The stack with the HUNT entry, where the hunt group names a VALID group. -/
def huntStack (s : State) : List StackEntry :=
  match s.hnc.table.group with
  | some g => if s.groupValid g then s.placed .hunt g else s.fru.stack
  | none => s.fru.stack

/-- The candidate that the plan gives at a position. -/
def planCandidate (s : State) (j : Fin 8) : Candidate :=
  { bay := (s.hnc.table.plan.look j).bay, dwell := (s.hnc.table.plan.look j).dwell,
    snapshot := (s.hnc.table.plan.look j).bay.map s.dir, outcome := .pending }

section Stack

variable {s : State} {g : GroupNo}

theorem huntStack_of_valid (hgroup : s.hnc.table.group = some g) (hvalid : s.groupValid g = true) :
    huntStack s = s.placed .hunt g := by
  simp [huntStack, hgroup, hvalid]

theorem huntStack_appended (hgroup : s.hnc.table.group = some g) (hvalid : s.groupValid g = true)
    (hnone : ∀ e ∈ s.fru.stack, e.origin ≠ .hunt) :
    huntStack s = s.fru.stack ++ [{ origin := .hunt, group := g, placed := s.stamp }] := by
  have hhas : hasOrigin .hunt s.fru.stack = false := by simpa [hasOrigin] using hnone
  rw [huntStack_of_valid hgroup hvalid, State.placed, placeEntry, hhas]
  rfl

theorem huntStack_replaced (hgroup : s.hnc.table.group = some g) (hvalid : s.groupValid g = true)
    (hsome : ∃ e ∈ s.fru.stack, e.origin = .hunt) :
    huntStack s = s.fru.stack.map (fun e => if e.origin = .hunt then { e with group := g } else e) := by
  have hhas : hasOrigin .hunt s.fru.stack = true := by simpa [hasOrigin] using hsome
  rw [huntStack_of_valid hgroup hvalid, State.placed, placeEntry, if_pos hhas, replaceGroup]
  simp only [beq_iff_eq]

theorem huntStack_kept
    (h : s.hnc.table.group = none ∨ ∃ g, s.hnc.table.group = some g ∧ s.groupValid g = false) :
    huntStack s = s.fru.stack := by
  rcases h with hnone | ⟨g, hgroup, hinvalid⟩
  · simp [huntStack, hnone]
  · simp [huntStack, hgroup, hinvalid]

/-- The entry is placed, or the stack is not touched. -/
theorem stacked_cases (s : State) : stacked s = (planned s).changeStack (huntStack s) .huntStart ∨
    (stacked s = planned s ∧ huntStack s = s.fru.stack) := by
  unfold stacked State.placeHuntEntry huntStack
  have hgroup : (planned s).hnc.table.group = s.hnc.table.group := rfl
  rw [hgroup]
  cases s.hnc.table.group with
  | none => exact .inr ⟨rfl, rfl⟩
  | some g =>
    have hvalid : (planned s).groupValid g = s.groupValid g := rfl
    have hplaced : (planned s).placed .hunt g = s.placed .hunt g := rfl
    simp only [hvalid, hplaced]
    cases s.groupValid g
    · exact .inr ⟨rfl, rfl⟩
    · exact .inl rfl

theorem stacked_hnc (s : State) : (stacked s).hnc = (planned s).hnc := by
  rcases stacked_cases s with h | ⟨h, -⟩
  · rw [h, changeStack_hnc]
  · rw [h]

theorem stacked_fru (s : State) : (stacked s).fru = { s.fru with stack := huntStack s } := by
  rcases stacked_cases s with h | ⟨h, hstack⟩
  · rw [h, changeStack_fru]
    rfl
  · rw [h, hstack]
    rfl

theorem stacked_block (s : State) (b : Bay) : ((stacked s).rcl b).block = (s.rcl b).block := by
  rcases stacked_cases s with h | ⟨h, -⟩
  · rw [h, changeStack_block]
    rfl
  · rw [h]
    rfl

theorem planned_undisturbed (s : State) (b : Bay) : Undisturbed b s (planned s) := ⟨rfl, rfl⟩

theorem stacked_bay (s : State) (b : Bay) : Undisturbed b s (stacked s) ∨ ShotsExhausted b s (stacked s) := by
  have hplanned := planned_undisturbed s b
  rcases stacked_cases s with h | ⟨h, -⟩
  · rw [h]
    exact (changeStack_bay _ _ _ b).imp (fun k => hplanned.trans k.undisturbed) (fun k => k.after hplanned)
  · rw [h]
    exact .inl hplanned

theorem planned_maskH (s : State) : (planned s).maskH = s.maskH := s.setHnc_maskH _ rfl

theorem stacked_maskH (s : State) : (stacked s).maskH = s.maskH := by
  unfold stacked
  exact (closedH_mask s).placeHuntEntry (planned_maskH s)

theorem stacked_cap (s : State) : (stacked s).cap = s.cap := by
  unfold State.cap
  rw [State.maskM_bcu_cap (State.maskM_of_maskB (State.maskB_of_maskH (stacked_maskH s)))]

theorem runs_of_maskH {s t : State} (h : t.maskH = s.maskH) (b : Bay) : t.runs b = s.runs b := by
  unfold State.runs State.protecting State.cap
  rw [State.maskH_mgu h, State.maskM_bcu_cap (State.maskM_of_maskB (State.maskB_of_maskH h))]

end Stack

section Blocked

variable {s : State} {b : Bay}

theorem blocked_maskH (s : State) : (blocked s).maskH = s.maskH := by
  unfold blocked
  exact (closedH_mask s).addHunt (stacked_maskH s)

theorem blocked_hnc (s : State) : (blocked s).hnc = (planned s).hnc := by
  rw [blocked, State.maskR_hnc (addHunt_maskR (stacked s)), stacked_hnc]

theorem blocked_fru (s : State) : (blocked s).fru = { s.fru with stack := huntStack s } := by
  rw [blocked, State.maskR_fru (addHunt_maskR (stacked s)), stacked_fru]

theorem blocked_hunt (s : State) (b : Bay) :
    ((blocked s).rcl b).block.hunt = ((s.cap (bayRec b)).inService || (s.rcl b).block.hunt) := by
  rw [blocked, addHunt_hunt, stacked_block, stacked_cap]

theorem blocked_bay (s : State) (b : Bay) :
    Undisturbed b s (blocked s) ∨ ∃ l, ((blocked s).rcl b).state = .lockout l := by
  unfold blocked
  rcases addHunt_bay (stacked s) b with h | h
  · rcases stacked_bay s b with k | k
    · exact .inl (k.trans h)
    · exact .inr ⟨_, h.state.trans k.locked⟩
  · exact .inr ⟨_, h⟩

theorem blocked_cancels_dead (hruns : s.runs b = true) (hclear : (s.rcl b).block.hunt = false)
    (hdead : (s.rcl b).state = .dead) : ((blocked s).rcl b).state = .lockout .protectionBlocked := by
  have hstate : ((stacked s).rcl b).state = .dead := by
    rcases stacked_bay s b with h | h
    · exact h.state.trans hdead
    · exact absurd (h.waited.symm.trans hdead) (by simp)
  unfold blocked
  exact addHunt_cancels ((runs_of_maskH (stacked_maskH s) b).trans hruns) (by rw [stacked_block, hclear]) (.inl hstate)

/-- A waiting request is judged against the group of the hunt first (R73, R95), and else cancelled. -/
theorem blocked_cancels_waiting (hruns : s.runs b = true) (hclear : (s.rcl b).block.hunt = false)
    (hwaits : (s.rcl b).state = .closing .waiting) :
    ((blocked s).rcl b).state = .lockout .protectionBlocked ∨ ((blocked s).rcl b).state = .lockout .shotsExhausted := by
  unfold blocked
  rcases stacked_bay s b with h | h
  · exact .inl (addHunt_cancels ((runs_of_maskH (stacked_maskH s) b).trans hruns) (by rw [stacked_block, hclear])
      (.inr (h.state.trans hwaits)))
  · rcases addHunt_bay (stacked s) b with k | k
    · exact .inr (k.state.trans h.locked)
    · exact .inl k

theorem blocked_unarmed (h : Unarmed s) : Unarmed (blocked s) ∧ (blocked s).fac fHuntStart = s.fac fHuntStart := by
  have hP := huntBlind_fac (.inl rfl) (s.fac fHuntStart)
  have hplanned : Unarmed (planned s) ∧ (planned s).fac fHuntStart = s.fac fHuntStart := ⟨h, rfl⟩
  unfold blocked stacked
  exact hP.addHunt (hP.placeHuntEntry hplanned)

end Blocked

section Announced

variable {s : State} {how : HuntHow} {b : Bay}

theorem announced_maskE (s : State) (how : HuntHow) : (announced s how).maskE = (blocked s).maskE := by
  rw [announced, State.occur_maskE]

theorem announced_maskH (s : State) (how : HuntHow) : (announced s how).maskH = s.maskH :=
  (State.maskH_of_maskS (State.maskS_of_maskE (announced_maskE s how))).trans (blocked_maskH s)

theorem announced_hnc (s : State) (how : HuntHow) : (announced s how).hnc =
    { s.hnc with rearm := false, started := s.stamp, cands := s.copyPlan, timer := none } :=
  (State.maskE_hnc (announced_maskE s how)).trans (blocked_hnc s)

theorem announced_fru (s : State) (how : HuntHow) : (announced s how).fru = { s.fru with stack := huntStack s } :=
  (State.maskE_fru (announced_maskE s how)).trans (blocked_fru s)

theorem announced_rcl (s : State) (how : HuntHow) (b : Bay) : (announced s how).rcl b = (blocked s).rcl b :=
  (sameBay_of_maskE (announced_maskE s how)).rcl

theorem announced_bay (s : State) (how : HuntHow) (b : Bay) :
    Undisturbed b s (announced s how) ∨ ∃ l, ((announced s how).rcl b).state = .lockout l := by
  rw [announced_rcl]
  exact (blocked_bay s b).imp_left fun h => h.trans (sameBay_of_maskE (announced_maskE s how)).undisturbed

theorem copyPlan_getElem? (s : State) (j : Fin 8) : s.copyPlan[j.val]? = some (planCandidate s j) := by
  unfold State.copyPlan planCandidate Vector.look
  simp

theorem announced_candidate (s : State) (how : HuntHow) (j : Fin 8) :
    (announced s how).candidate j = some (planCandidate s j) := by
  rw [State.candidate, announced_hnc, copyPlan_getElem?]

theorem copyPlan_bays (s : State) : (s.copyPlan.filter (fun c => c.bay.isSome)).length =
    (s.hnc.table.plan.toList.filter (fun q => q.bay.isSome)).length := by
  rw [State.copyPlan, List.filter_map, List.length_map]
  rfl

theorem announced_fac (h : Unarmed s) (hpart : s.mgu.part ≠ .bypass) : (announced s how).fac fHuntStart =
    (s.fac fHuntStart).take 0 (detail [byte how.code, s.huntGroupByte,
      byte (s.hnc.table.plan.toList.filter (fun q => q.bay.isSome)).length]) s.stamp := by
  obtain ⟨hunarmed, hfac⟩ := blocked_unarmed h
  have hcands : (blocked s).hnc.cands = s.copyPlan := by rw [blocked_hnc]; rfl
  have hgroup : (planned s).huntGroupByte = s.huntGroupByte := rfl
  rw [announced, occur_fac_same hunarmed (by rwa [State.maskH_mgu (blocked_maskH s)]), hfac, hcands, hgroup,
    copyPlan_bays, stamp_of_maskH (blocked_maskH s)]

theorem announced_unarmed (h : Unarmed s) : Unarmed (announced s how) := by
  unfold announced
  exact occur_unarmed (blocked_unarmed h).1 _ _ _

end Announced

/-! ### What a start leaves -/

section Starts

variable {s t u : State} {how : HuntHow}

theorem sameReasons_of_maskH (h : t.maskH = s.maskH) :
    SameReasons [.fire, .manual, .localMode, .interlock, .capability] s t := by
  have hB := State.maskB_of_maskH h
  have hM := State.maskM_of_maskB hB
  intro b r hr
  simp only [List.mem_cons, List.not_mem_nil, or_false] at hr
  rcases hr with rfl | rfl | rfl | rfl | rfl
  · exact State.maskM_fire_reason hM b
  · exact State.maskM_manual_reason hM b
  · exact State.maskH_localMode_reason h b
  · exact State.maskH_interlock_reason h b
  · exact State.maskM_capability_reason hM b

theorem positionsFrom_zero : positionsFrom 0 = allBays := by decide

theorem start_selection (s : State) (how : HuntHow) :
    Selection (announced s how) (positionsFrom 0) (s.startHuntNow how) := by
  rw [startHuntNow_eq]
  exact selectFrom_selection (by decide) fun j _ => ⟨_, announced_candidate s how j⟩

/-- The candidate at a position has been passed over, with its outcome (R132). -/
def Passed (s t : State) (j : Fin 8) : Prop :=
  ∃ o, PassedOver t (planCandidate s j) o ∧ t.hnc.cands[j.val]? = some { planCandidate s j with outcome := o }

theorem passed_of_mem {l p : List (Fin 8)} (hsel : Selection (announced s how) p t)
    (h : PassesOver (announced s how) l u) (hcands : t.hnc.cands = u.hnc.cands) {j : Fin 8} (hj : j ∈ l) :
    Passed s t j := by
  obtain ⟨c, o, hcand, hskip, hu⟩ := h.passed j hj
  obtain rfl : planCandidate s j = c := Option.some.inj ((announced_candidate s how j).symm.trans hcand)
  refine ⟨o, passedOver_iff.mpr ((hsel.skipOutcome _).trans hskip), ?_⟩
  rw [hcands]
  exact hu

/-- In an ascending list the items before one are those below it. -/
theorem mem_before_iff {before after : List (Fin 8)} {i j : Fin 8} (h : before ++ i :: after = allBays) :
    j ∈ before ↔ j < i := by
  have hsorted : (before ++ i :: after).Pairwise (· < ·) := by rw [h]; decide
  have hmem : j ∈ before ++ i :: after := by rw [h]; exact mem_allBays j
  obtain ⟨-, htail, hlt⟩ := List.pairwise_append.mp hsorted
  refine ⟨fun hj => hlt j hj i (by simp), fun hji => ?_⟩
  rcases List.mem_append.mp hmem with hbefore | hrest
  · exact hbefore
  · rcases List.mem_cons.mp hrest with rfl | hafter
    · exact absurd hji (lt_irrefl _)
    · exact absurd hji (lt_asymm (List.rel_of_pairwise_cons htail hafter))

theorem huntPlaced_of_same {n : Rec} {cmd : Command} {ms : Nat} (hslot : u.slot n = s.slot n) (hmono : u.mono = s.mono)
    (h : HuntPlaced u t n cmd ms) : HuntPlaced s t n cmd ms := by
  unfold HuntPlaced at h ⊢
  rwa [hslot, hmono] at h

/-- The HUNT OPEN of the first candidate stands at a slot that the start has not touched: where the start locks a bay out, its
candidate is passed over. -/
theorem start_placed {l : List (Fin 8)} {k : Fin 8} {b : Bay} {c : Candidate}
    (h : PassesOver (announced s how) l u) (hbay : c.bay = some b)
    (hskip : (announced s how).skipOutcome c = none) :
    HuntPlaced s (withRequest (testing u k) (bayRec b) .opening) (bayRec b) .opening 120 := by
  have hmask : (testing u k).maskH = s.maskH := (testing_maskH u k).trans (h.maskH.trans (announced_maskH s how))
  have hskip' : (testing u k).skipOutcome c = none := by
    rw [← hskip]
    exact skipOutcome_congr ((testing_maskH u k).trans h.maskH) (fun d => by rw [← (h.bay d).rcl]; rfl) c
  have hslot : (testing u k).slot (bayRec b) = s.slot (bayRec b) := by
    rcases announced_bay s how b with hsame | hlocked
    · exact (h.bay b).slot.trans hsame.slot
    · obtain ⟨-, -, hfree⟩ := tests_of_skipOutcome_none hbay hskip
      exact absurd (.inr hlocked) hfree
  exact huntPlaced_of_same hslot (State.maskM_mono (State.maskM_of_maskB (State.maskB_of_maskH hmask)))
    (huntPlaced_withRequest (judgeReq_of_skipOutcome_none hbay hskip') (by decide))

/-- What the start leaves of the plan where it tests a candidate (R131, R132, R133). -/
theorem start_tests {before after : List (Fin 8)} {i : Fin 8} {b : Bay} {c : Candidate}
    (hlist : before ++ i :: after = allBays) (hsel : Selection (announced s how) allBays t)
    (h : PassesOver (announced s how) before u) (hcand : (announced s how).candidate i = some c) (hbay : c.bay = some b)
    (hskip : (announced s how).skipOutcome c = none) (ht : t = withRequest (testing u i) (bayRec b) .opening)
    (j : Fin 8) : t.hnc.current = some i ∧ (j < i → Passed s t j) ∧
      (i ≤ j → t.hnc.cands[j.val]? = some (planCandidate s j)) ∧
      (j = i → (∀ o, ¬ PassedOver t (planCandidate s j) o) ∧
        ∃ b, (s.hnc.table.plan.look j).bay = some b ∧ HuntPlaced s t (bayRec b) .opening 120) := by
  have hhnc := tested_hnc u i (bayRec b)
  rw [← ht] at hhnc
  have hcands : t.hnc.cands = u.hnc.cands := by rw [hhnc]
  refine ⟨by rw [hhnc], fun hji => ?_, fun hij => ?_, ?_⟩
  · exact passed_of_mem hsel h hcands ((mem_before_iff hlist).mpr hji)
  · rw [hcands]
    exact (h.others j (fun hj => absurd ((mem_before_iff hlist).mp hj) (not_lt.mpr hij))).trans
      (announced_candidate s how j)
  · rintro rfl
    obtain rfl : planCandidate s j = c := Option.some.inj ((announced_candidate s how j).symm.trans hcand)
    refine ⟨not_passedOver ((hsel.skipOutcome _).trans hskip), b, hbay, ?_⟩
    rw [ht]
    exact start_placed h hbay hskip

/-- What the start leaves of the plan (R131, R132): every candidate passed over, or those below the one it tests. -/
theorem start_plan {l : List (Fin 8)} (hl : l = allBays) (hsel : Selection (announced s how) l t) (j : Fin 8) :
    (t.hnc.state = .idle → Passed s t j) ∧
    (t.hnc.state = .opening → ∃ i, t.hnc.current = some i ∧ (j < i → Passed s t j) ∧
      (i ≤ j → t.hnc.cands[j.val]? = some (planCandidate s j)) ∧
      (j = i → (∀ o, ¬ PassedOver t (planCandidate s j) o) ∧
        ∃ b, (s.hnc.table.plan.look j).bay = some b ∧ HuntPlaced s t (bayRec b) .opening 120)) := by
  have hsel' := hsel
  cases hsel with
  | exhausted h =>
    rw [endHunt_hnc]
    refine ⟨fun _ => passed_of_mem hsel' h (by rw [endHunt_hnc]; rfl) (hl ▸ mem_allBays j), nofun⟩
  | tests h hcand hbay hskip =>
    refine ⟨fun hidle => ?_, fun _ => ⟨_, start_tests hl (hl ▸ hsel') h hcand hbay hskip rfl j⟩⟩
    rw [tested_hnc] at hidle
    cases hidle

theorem huntGroupByte_eq {group : Byte} (hnone : s.hnc.table.group = none → group = 0xFF)
    (hsome : ∀ g, s.hnc.table.group = some g → group = if s.groupValid g then byte g.val else 0xFE) :
    s.huntGroupByte = group := by
  unfold State.huntGroupByte
  cases hgroup : s.hnc.table.group with
  | none => exact (hnone hgroup).symm
  | some g => exact (hsome g hgroup).symm

/-- The start of a hunt, with the first candidate selected (R131 to R133). -/
theorem huntStarts_startHuntNow (s : State) (how : HuntHow) : HuntStarts s how (s.startHuntNow how) := by
  have hsel := start_selection s how
  have hmask := hsel.maskH.trans (announced_maskH s how)
  have hstack : (s.startHuntNow how).fru.stack =
      if (s.startHuntNow how).hnc.state = .opening then huntStack s else removeEntry .hunt (huntStack s) := by
    have := hsel.stack
    rwa [announced_fru] at this
  constructor
  case only => exact onlyHunt_of_mask hmask
  case reasons => exact sameReasons_of_maskH hmask
  case rearm => rw [hsel.context.1, announced_hnc]
  case started => rw [hsel.context.2, announced_hnc]
  case goes =>
    have hgoes := hsel.goes
    rwa [announced_hnc, stamp_of_maskH (announced_maskH s how)] at hgoes
  case plan => exact start_plan positionsFrom_zero hsel
  case entry =>
    refine ⟨fun g hgroup hvalid => ⟨fun hnone => ?_, fun hsome => ?_⟩, fun hkept => ?_⟩
    · rw [← huntStack_appended hgroup hvalid hnone]; exact hstack
    · rw [← huntStack_replaced hgroup hvalid hsome]; exact hstack
    · rw [← huntStack_kept hkept]; exact hstack
  case blocked => intro b; rw [hsel.hunt, announced_rcl, blocked_hunt]
  case cancels =>
    intro b hruns hclear
    have hlocked {l : LockoutCause} (h : ((blocked s).rcl b).state = .lockout l) :
        ((s.startHuntNow how).rcl b).state = .lockout l := hsel.locked (by rw [announced_rcl, h])
    exact ⟨fun hdead => hlocked (blocked_cancels_dead hruns hclear hdead),
      fun hwaits => (blocked_cancels_waiting hruns hclear hwaits).imp hlocked hlocked⟩
  case occurs =>
    intro hpart hunarmed group hnone hsome
    rw [hsel.huntStart (announced_unarmed hunarmed), announced_fac hunarmed hpart, huntGroupByte_eq hnone hsome]
    cases how <;> simp [FactorRecord.take, satInc, HuntHow.code, byte]

end Starts

end Sys2Proof.Proofs.HuntStart

/-! The abort of a running hunt (R142 to R144): what it leaves in each state of the hunt, and with it all that HuntAborts says. -/

namespace Sys2Proof.Proofs.HuntAbort

open Sys2Proof.Machine Sys2Proof.Safety
open Sys2Proof.Proofs.Occurrences Sys2Proof.Proofs.HuntFrames Sys2Proof.Proofs.HuntBays Sys2Proof.Proofs.HuntEnd
  Sys2Proof.Proofs.HuntSelection Sys2Proof.Proofs.HuntStart

/-! ### The bay under test -/

section UnderTest

theorem underTest_of_hnc {s t : State} (hcurrent : t.hnc.current = s.hnc.current) (hcands : t.hnc.cands = s.hnc.cands) :
    t.underTest = s.underTest := by
  unfold State.underTest State.curCandidate
  rw [hcurrent]
  unfold State.candidate
  rw [hcands]

theorem curCandidate_of_underTest {s : State} {b : Bay} (h : s.underTest = some b) :
    ∃ k c, s.hnc.current = some k ∧ s.candidate k = some c ∧ c.bay = some b := by
  obtain ⟨c, hcur, hbay⟩ := Option.bind_eq_some_iff.mp h
  obtain ⟨k, hk, hcand⟩ := Option.bind_eq_some_iff.mp hcur
  exact ⟨k, c, hk, hcand, hbay⟩

theorem setCurOutcome_eq {s : State} {k : Fin 8} (h : s.hnc.current = some k) (o : CandOutcome) :
    s.setCurOutcome o = s.setOutcome k o := by
  unfold State.setCurOutcome
  rw [h]

theorem setCurOutcome_curCandidate (s : State) (o : CandOutcome) :
    (s.setCurOutcome o).curCandidate = s.curCandidate.map (fun c => { c with outcome := o }) := by
  cases hk : s.hnc.current with
  | none => simp [State.setCurOutcome, State.curCandidate, hk]
  | some k =>
    have hk' : (s.setOutcome k o).hnc.current = some k := hk
    simp [setCurOutcome_eq hk, State.curCandidate, hk, hk', setOutcome_candidate]

theorem setCurOutcome_underTest (s : State) (o : CandOutcome) : (s.setCurOutcome o).underTest = s.underTest := by
  unfold State.underTest
  rw [setCurOutcome_curCandidate]
  cases s.curCandidate <;> rfl

end UnderTest

/-! ### The abort up to the bay under test -/

section Cut

/-- Every abort stops the timer, stores its result, and removes HUNT from the bays not under test (R142). -/
@[irreducible] def cut (s : State) (r : HuntResult) : State :=
  (s.setHnc { s.hnc with timer := none, pendingResult := some r }).removeHunt s.underTest

variable (s : State) (r : HuntResult)

theorem removeHunt_eq_cut :
    (s.setHnc { s.hnc with timer := none, pendingResult := some r }).removeHunt s.underTest = cut s r := by
  rw [cut]

theorem cut_hnc : (cut s r).hnc = { s.hnc with timer := none, pendingResult := some r } := by
  rw [cut, removeHunt_hnc, State.setHnc_value]

theorem cut_fru : (cut s r).fru = s.fru := by rw [cut, removeHunt_fru, State.setHnc_fru]

theorem cut_bcu : (cut s r).bcu = s.bcu := by rw [cut, removeHunt_bcu, State.setHnc_bcu]

theorem cut_mgu : (cut s r).mgu = s.mgu := by rw [cut, removeHunt_mgu, State.setHnc_mgu]

theorem cut_slot (n : Rec) : (cut s r).slot n = s.slot n := by rw [State.slot, cut_bcu, State.slot]

theorem cut_rcl (b : Bay) : (cut s r).rcl b = if s.underTest = some b then s.rcl b else withoutHunt (s.rcl b) := by
  rw [cut, removeHunt_rcl, State.setHnc_reads_rcl]

theorem cut_maskH : (cut s r).maskH = s.maskH := by
  have hs := closedH_mask s
  unfold cut
  exact hs.removeHunt (hs.hnc s _ rfl rfl)

theorem cut_underTest : (cut s r).underTest = s.underTest :=
  underTest_of_hnc (by rw [cut_hnc]) (by rw [cut_hnc])

theorem cut_unarmed {s : State} (r : HuntResult) (h : Unarmed s) : Unarmed (cut s r) := by
  have hP := huntBlind_fac (.inl rfl) (s.fac fHuntStart)
  unfold cut
  exact (hP.removeHunt (hP.hnc _ _ ⟨h, rfl⟩)).1

/-- The hunt waits for a command at the bay under test. -/
def waiting (s : State) (r : HuntResult) (restoreOut : Bool) : State :=
  (cut s r).setHnc { s.hnc with state := .aborting, timer := none, pendingResult := some r, restoreOut := restoreOut }

theorem huntTo_cut : (cut s r).huntTo .aborting none = waiting s r s.hnc.restoreOut := by
  rw [State.huntTo, cut_hnc, waiting]

theorem setRestoreOut_waiting (v w : Bool) : (waiting s r v).setRestoreOut w = waiting s r w := rfl

variable (v : Bool)

theorem waiting_fru : (waiting s r v).fru = s.fru := cut_fru s r

theorem waiting_bcu : (waiting s r v).bcu = s.bcu := cut_bcu s r

theorem waiting_mgu : (waiting s r v).mgu = s.mgu := cut_mgu s r

theorem waiting_slot (n : Rec) : (waiting s r v).slot n = s.slot n := cut_slot s r n

theorem waiting_rcl (b : Bay) :
    (waiting s r v).rcl b = if s.underTest = some b then s.rcl b else withoutHunt (s.rcl b) := cut_rcl s r b

theorem waiting_maskH : (waiting s r v).maskH = s.maskH :=
  (State.setHnc_maskH _ _ (by rw [cut_hnc])).trans (cut_maskH s r)

theorem waiting_underTest : (waiting s r v).underTest = s.underTest := underTest_of_hnc rfl rfl

end Cut

/-! ### The end of an aborted hunt -/

section Ended

/-- A hunt that is about to end with the result of its abort (R143, R145). -/
structure Ending (s : State) (r : HuntResult) (b : Bay) (u : State) : Prop where
  mask : u.maskH = s.maskH
  result : u.hnc.pendingResult = some r
  started : u.hnc.started = s.hnc.started
  tested : u.underTest = some b
  stack : u.fru = s.fru
  unarmed : Unarmed s → Unarmed u

/-- The hunt has ended with the result, from the test of the bay (R145). -/
def Ended (s : State) (r : HuntResult) (b : Bay) (t : State) : Prop :=
  t.hnc.state = .idle ∧ t.hnc.current = none ∧ t.hnc.timer = none ∧ t.hnc.pendingResult = none ∧
  t.hnc.last = some { result := r, bay := none, started := s.hnc.started, ended := s.stamp } ∧
  t.fru.stack = s.fru.stack.filter (fun e => e.origin != .hunt) ∧ (∀ c, (t.rcl c).block.hunt = false) ∧
  (s.mgu.part ≠ .bypass → (∀ j, (s.chan j).state ≠ .armed) → ∃ named : Byte, (t.fac fHuntEnd).lastDetail =
    some (detail ([byte r.code, named, byte b.val, 0] ++ bytes32 s.hnc.started ++ bytes32 s.stamp)))

variable {s u : State} {r : HuntResult} {b : Bay}

theorem endPending_eq (h : u.hnc.pendingResult = some r) : u.endPending = u.endHunt r none u.underTest .none := by
  unfold State.endPending
  rw [h]

theorem Ending.ended (h : Ending s r b u) : Ended s r b u.endPending := by
  have hstamp := stamp_of_maskH h.mask
  rw [endPending_eq h.result, h.tested]
  unfold Ended
  rw [endHunt_hnc, endHunt_fru, h.stack, hstamp, ← h.started]
  refine ⟨rfl, rfl, rfl, rfl, rfl, rfl, endHunt_hunt _ _ _ _ _, fun hpart hunarmed => ⟨bayByte none, ?_⟩⟩
  rw [endHunt_detail _ _ _ _ (h.unarmed hunarmed) (by rwa [State.maskH_mgu h.mask]), hstamp]
  rfl

theorem ending_cut (htest : s.underTest = some b) : Ending s r b (cut s r) where
  mask := cut_maskH s r
  result := by rw [cut_hnc]
  started := by rw [cut_hnc]
  tested := (cut_underTest s r).trans htest
  stack := cut_fru s r
  unarmed := cut_unarmed r

theorem ending_waiting (htest : s.underTest = some b) (v : Bool) : Ending s r b (waiting s r v) where
  mask := waiting_maskH s r v
  result := rfl
  started := rfl
  tested := (waiting_underTest s r v).trans htest
  stack := waiting_fru s r v
  unarmed := cut_unarmed r

/-- A request taken out of a slot leaves the hunt about to end. -/
theorem Ending.setPend (h : Ending s r b u) (n : Rec) (c : ReqClass) (v : Option Command) :
    Ending s r b (u.setPend n c v) :=
  ⟨h.mask, h.result, h.started, h.tested, h.stack, h.unarmed⟩

theorem Ending.setCurOutcome (h : Ending s r b u) (o : CandOutcome) : Ending s r b (u.setCurOutcome o) := by
  obtain ⟨k, -, hk, -, -⟩ := curCandidate_of_underTest h.tested
  have htested := (setCurOutcome_underTest u o).trans h.tested
  rw [setCurOutcome_eq hk] at htested ⊢
  exact ⟨(u.setHnc_maskH _ rfl).trans h.mask, h.result, h.started, htested, h.stack, h.unarmed⟩

theorem Ending.setBayOpen (h : Ending s r b u) (o : Option Bay) : Ending s r b (u.setBayOpen o) :=
  ⟨(u.setHnc_maskH _ rfl).trans h.mask, h.result, h.started, h.tested, h.stack, h.unarmed⟩

theorem Ending.lock (h : Ending s r b u) (c : Bay) (cause : LockoutCause) : Ending s r b (u.lock c cause) := by
  have hhnc : (u.lock c cause).hnc = u.hnc := State.maskS_hnc (u.lock_maskS c cause)
  have hP := huntBlind_fac (.inl rfl) (u.fac fHuntStart)
  refine ⟨(State.maskH_of_maskS (u.lock_maskS c cause)).trans h.mask, ?_, ?_, ?_, ?_,
    fun hs => (hP.lock ⟨h.unarmed hs, rfl⟩).1⟩
  · rw [hhnc, h.result]
  · rw [hhnc, h.started]
  · exact (underTest_of_hnc (by rw [hhnc]) (by rw [hhnc])).trans h.tested
  · rw [State.maskS_fru (u.lock_maskS c cause), h.stack]

end Ended

/-! ### The restore of an aborted hunt (R142, R143) -/

section Restore

variable {s : State} {r : HuntResult} {b : Bay} {v : Bool}

/-- The states of the hunt in which an abort places a CLOSE at the bay under test. -/
def Restores (s : State) : Prop :=
  s.hnc.state = .dwell ∨ s.hnc.state = .retestWait ∨
    ((s.hnc.state = .restoring ∨ s.hnc.state = .retestClosing) ∧ s.hnc.restoreOut = true)

/-- The outstanding-restore mark that such an abort leaves. -/
def markLeft (s : State) : Bool := if s.hnc.state = .dwell ∨ s.hnc.state = .retestWait then s.hnc.restoreOut else false

theorem judgeReq_waiting (s : State) (r : HuntResult) (v : Bool) (n : Rec) (cmd : Command) :
    (waiting s r v).judgeReq n .hunt cmd = s.judgeReq n .hunt cmd := by
  unfold State.judgeReq State.cap State.status State.slot
  rw [waiting_bcu, waiting_mgu]

theorem judgeReq_close_standdown {n : Rec} (hserved : (s.cap n).inService = true) (hpart : s.mgu.part = .standdown) :
    s.judgeReq n .hunt .closing = some .standdown := by
  simp [State.judgeReq, hserved, hpart]

theorem ofCode_of_ne_standdown {code : ResultCode} (h : code ≠ .standdown) : HuntTold.ofCode code = .failed := by
  cases code with
  | standdown => exact absurd rfl h
  | _ => rfl

/-- A CLOSE that is turned away for another reason than STANDDOWN. -/
theorem judgeReq_close_failed {n : Rec} (h : (s.cap n).inService = false ∨
    (s.mgu.part ≠ .standdown ∧ ((s.status n).localMode = true ∨ (s.status n).interlock = true))) :
    ∃ code, s.judgeReq n .hunt .closing = some code ∧ code ≠ .standdown := by
  cases hserved : (s.cap n).inService with
  | false => exact ⟨.state, by simp [State.judgeReq, hserved], by decide⟩
  | true =>
    obtain ⟨hpart, hheld⟩ := h.resolve_left (by simp [hserved])
    cases hlocal : (s.status n).localMode with
    | true => exact ⟨.localMode, by simp [State.judgeReq, hserved, hpart, hlocal], by decide⟩
    | false =>
      have hlock := hheld.resolve_left (by simp [hlocal])
      exact ⟨.interlock, by simp [State.judgeReq, hserved, hpart, hlocal, hlock], by decide⟩

theorem placeHuntClose_accepted (h : s.judgeReq (bayRec b) .hunt .closing = none) :
    (waiting s r v).placeHuntClose b = withRequest (waiting s r v) (bayRec b) .closing := by
  unfold State.placeHuntClose
  rw [place_accepted ((judgeReq_waiting s r v _ _).trans h)]

theorem placeHuntClose_refused {code : ResultCode} (h : s.judgeReq (bayRec b) .hunt .closing = some code) :
    (waiting s r v).placeHuntClose b = (waiting s r v).huntCloseTold (HuntTold.ofCode code) := by
  unfold State.placeHuntClose
  rw [place_refused ((judgeReq_waiting s r v _ _).trans h)]

theorem placeHuntClose_standdown (h : s.judgeReq (bayRec b) .hunt .closing = some .standdown) :
    (waiting s r v).placeHuntClose b = waiting s r v :=
  placeHuntClose_refused h

theorem placeHuntClose_failed {code : ResultCode} (h : s.judgeReq (bayRec b) .hunt .closing = some code)
    (hcode : code ≠ .standdown) :
    (waiting s r v).placeHuntClose b = (waiting s r v).abortRestoreFailed := by
  rw [placeHuntClose_refused h, ofCode_of_ne_standdown hcode]
  rfl

/-- The outcome of a candidate whose restore has failed (R143). -/
def failedOutcome (o : CandOutcome) : CandOutcome := if o = .pending ∨ o = .healthy then .failedRestore else o

/-- The candidate under test has its outcome, before its bay is locked out. -/
def judged (u : State) : State :=
  match u.curCandidate with
  | some c => if c.outcome == .pending || c.outcome == .healthy then u.setCurOutcome .failedRestore else u
  | none => u

theorem judged_curCandidate {u : State} {c : Candidate} (h : u.curCandidate = some c) :
    (judged u).curCandidate = some { c with outcome := failedOutcome c.outcome } := by
  unfold judged failedOutcome
  rw [h]
  by_cases ho : c.outcome = .pending ∨ c.outcome = .healthy
  · simp only [Bool.or_eq_true, beq_iff_eq, if_pos ho, setCurOutcome_curCandidate, h]
    rfl
  · simp only [Bool.or_eq_true, beq_iff_eq, if_neg ho, h]

theorem judged_undisturbed (u : State) (c : Bay) : SameBay c u (judged u) := by
  unfold judged
  split
  · split
    · unfold State.setCurOutcome
      split <;> exact ⟨rfl, rfl⟩
    · exact .refl c u
  · exact .refl c u

theorem ending_judged {u : State} (h : Ending s r b u) : Ending s r b (judged u) := by
  unfold judged
  split
  · split
    · exact h.setCurOutcome _
    · exact h
  · exact h

theorem huntLock_eq {u : State} (h : u.underTest = some b) (cause : LockoutCause) :
    u.huntLock cause = (u.lock b cause).setBayOpen none := by
  unfold State.huntLock
  rw [h]

theorem abortRestoreFailed_judged (u : State) :
    u.abortRestoreFailed = ((judged u).huntLock .closeFailed).endPending := by
  unfold State.abortRestoreFailed judged
  cases u.curCandidate <;> rfl

theorem judged_current (u : State) : (judged u).hnc.current = u.hnc.current := by
  unfold judged
  split
  · split
    · unfold State.setCurOutcome
      split <;> rfl
    · rfl
  · rfl

/-- The state before the end of a hunt whose restore has failed. -/
def restoreLost (s : State) (r : HuntResult) (b : Bay) (v : Bool) : State :=
  ((judged (waiting s r v)).lock b .closeFailed).setBayOpen none

theorem ending_restoreLost (htest : s.underTest = some b) : Ending s r b (restoreLost s r b v) :=
  ((ending_judged (ending_waiting htest v)).lock b .closeFailed).setBayOpen none

theorem abortRestoreFailed_waiting (htest : s.underTest = some b) :
    (waiting s r v).abortRestoreFailed = (restoreLost s r b v).endPending := by
  rw [abortRestoreFailed_judged, huntLock_eq (ending_judged (ending_waiting htest v)).tested, restoreLost]

theorem restoreLost_hnc (s : State) (r : HuntResult) (b : Bay) (v : Bool) :
    (restoreLost s r b v).hnc = { (judged (waiting s r v)).hnc with bayOpen := none } := by
  unfold restoreLost State.setBayOpen
  rw [State.setHnc_value, State.maskS_hnc (State.lock_maskS _ b .closeFailed)]

theorem restoreLost_bayOpen (htest : s.underTest = some b) :
    (restoreLost s r b v).endPending.hnc.bayOpen = none := by
  rw [endPending_eq (ending_restoreLost htest).result, endHunt_hnc, restoreLost_hnc]
  rfl

/-- The bay under test is locked out where the RCC runs it and it was not (R143). -/
theorem restoreLost_locked (htest : s.underTest = some b) (hruns : s.runs b = true)
    (hfree : ∀ c, (s.rcl b).state ≠ .lockout c) :
    ((restoreLost s r b v).endPending.rcl b).state = .lockout .closeFailed := by
  have hrcl : (judged (waiting s r v)).rcl b = s.rcl b := by
    rw [(judged_undisturbed _ b).rcl, waiting_rcl, if_pos htest]
  have hlocked : ((restoreLost s r b v).rcl b).state = .lockout .closeFailed :=
    lock_state ((runs_of_maskH (ending_judged (ending_waiting htest v)).mask b).trans hruns) (by rw [hrcl]; exact hfree)
  rw [endPending_eq (ending_restoreLost htest).result]
  rcases endHunt_bay r none (restoreLost s r b v).underTest .none (restoreLost s r b v) b with h | h
  · exact h.state.trans hlocked
  · exact absurd (h.waited.symm.trans hlocked) (by simp)

theorem restoreLost_outcome (htest : s.underTest = some b) {c : Candidate} (hcand : s.curCandidate = some c) {j : Fin 8}
    (hj : s.hnc.current = some j) :
    ((restoreLost s r b v).endPending.hnc.cands[j.val]?).map (fun y => y.outcome) = some (failedOutcome c.outcome) := by
  have hcur : (waiting s r v).curCandidate = some c := hcand
  have hjudged := judged_curCandidate hcur
  have hat : (judged (waiting s r v)).hnc.current = some j := (judged_current _).trans hj
  rw [endPending_eq (ending_restoreLost htest).result, endHunt_hnc, restoreLost_hnc]
  rw [State.curCandidate, hat] at hjudged
  exact congrArg (Option.map fun y => y.outcome) hjudged

end Restore

/-! ### The abort in each state of the hunt (R142) -/

section Abort

variable {s t : State} {r : HuntResult} {b : Bay}

theorem abort_retestDwell (hstate : s.hnc.state = .retestDwell) : s.abortHuntWith r = (cut s r).endPending := by
  unfold State.abortHuntWith
  dsimp only
  rw [removeHunt_eq_cut]
  rw [hstate]

theorem abort_opening_pending (htest : s.underTest = some b) (hstate : s.hnc.state = .opening)
    (hpend : (s.slot (bayRec b)).pend.hunt ≠ none) :
    s.abortHuntWith r = ((cut s r).setPend (bayRec b) .hunt none).endPending := by
  have hwaits : ((cut s r).slot (bayRec b)).pend.hunt.isSome = true := by
    rw [cut_slot]
    exact Option.isSome_iff_ne_none.mpr hpend
  unfold State.abortHuntWith
  dsimp only
  rw [removeHunt_eq_cut]
  rw [hstate, htest]
  exact if_pos hwaits

theorem abort_opening_issued (htest : s.underTest = some b) (hstate : s.hnc.state = .opening)
    (hpend : (s.slot (bayRec b)).pend.hunt = none) : s.abortHuntWith r = waiting s r s.hnc.restoreOut := by
  unfold State.abortHuntWith
  dsimp only
  rw [removeHunt_eq_cut]
  rw [hstate, htest, huntTo_cut]
  exact if_neg (by rw [cut_slot, hpend]; simp)

theorem abort_restoring (htest : s.underTest = some b) (hstate : s.hnc.state = .restoring ∨ s.hnc.state = .retestClosing)
    (hmark : s.hnc.restoreOut = false) : s.abortHuntWith r = waiting s r false := by
  have hcut : ¬ (cut s r).hnc.restoreOut = true := by rw [cut_hnc, hmark]; simp
  unfold State.abortHuntWith
  dsimp only
  rw [removeHunt_eq_cut]
  rcases hstate with hstate | hstate <;>
  · rw [hstate, htest, huntTo_cut, hmark]
    exact if_neg hcut

theorem abort_restores (htest : s.underTest = some b) (h : Restores s) :
    s.abortHuntWith r = (waiting s r (markLeft s)).placeHuntClose b := by
  unfold State.abortHuntWith
  dsimp only
  rw [removeHunt_eq_cut]
  rcases h with hstate | hstate | ⟨hstate, hmark⟩
  · rw [markLeft, if_pos (.inl hstate), hstate, htest, huntTo_cut]
  · rw [markLeft, if_pos (.inr hstate), hstate, htest, huntTo_cut]
  · have hcut : (cut s r).hnc.restoreOut = true := by rw [cut_hnc, hmark]
    rw [markLeft, if_neg (by rcases hstate with h | h <;> simp [h])]
    rcases hstate with hstate | hstate <;>
    · rw [hstate, htest, huntTo_cut]
      exact (if_pos hcut).trans (by rw [setRestoreOut_waiting])

theorem abort_untested (htest : s.underTest = none) : s.abortHuntWith r = (cut s r).endPending := by
  unfold State.abortHuntWith
  dsimp only
  rw [removeHunt_eq_cut]
  rw [htest]
  cases s.hnc.state <;> rfl

/-- What an abort comes to: the hunt ends, or waits for the command at the bay under test, or waits for the CLOSE it places
there. -/
inductive Outcome (s : State) (r : HuntResult) (b : Bay) : State → Prop
  | ends {u : State} (h : Ending s r b u) : Outcome s r b u.endPending
  | waits (v : Bool) : Outcome s r b (waiting s r v)
  | closes (v : Bool) : Outcome s r b (withRequest (waiting s r v) (bayRec b) .closing)

theorem restore_outcome (htest : s.underTest = some b) (v : Bool) :
    Outcome s r b ((waiting s r v).placeHuntClose b) := by
  cases hjudge : s.judgeReq (bayRec b) .hunt .closing with
  | none => rw [placeHuntClose_accepted hjudge]; exact .closes v
  | some code =>
    by_cases hcode : code = .standdown
    · subst hcode
      rw [placeHuntClose_standdown hjudge]
      exact .waits v
    · rw [placeHuntClose_failed hjudge hcode, abortRestoreFailed_waiting htest]
      exact .ends (ending_restoreLost htest)

theorem abort_outcome (htest : s.underTest = some b) (hrunning : s.hnc.state.running = true)
    (hfirst : s.hnc.state ≠ .aborting) : Outcome s r b (s.abortHuntWith r) := by
  have hmarked (hstate : s.hnc.state = .restoring ∨ s.hnc.state = .retestClosing) :
      Outcome s r b (s.abortHuntWith r) := by
    cases hmark : s.hnc.restoreOut with
    | false => rw [abort_restoring htest hstate hmark]; exact .waits _
    | true => rw [abort_restores htest (.inr (.inr ⟨hstate, hmark⟩))]; exact restore_outcome htest _
  cases hstate : s.hnc.state with
  | idle => simp [hstate, HuntState.running] at hrunning
  | waiting => simp [hstate, HuntState.running] at hrunning
  | aborting => exact absurd hstate hfirst
  | opening =>
    by_cases hpend : (s.slot (bayRec b)).pend.hunt = none
    · rw [abort_opening_issued htest hstate hpend]
      exact .waits _
    · rw [abort_opening_pending htest hstate hpend]
      exact .ends ((ending_cut htest).setPend _ _ _)
  | dwell => rw [abort_restores htest (.inl hstate)]; exact restore_outcome htest _
  | retestWait => rw [abort_restores htest (.inr (.inl hstate))]; exact restore_outcome htest _
  | restoring => exact hmarked (.inl hstate)
  | retestClosing => exact hmarked (.inr hstate)
  | retestDwell => rw [abort_retestDwell hstate]; exact .ends (ending_cut htest)

theorem waiting_hunt (htest : s.underTest = some b) (v : Bool) {c : Bay} (hc : c ≠ b) :
    ((waiting s r v).rcl c).block.hunt = false := by
  rw [waiting_rcl, if_neg (by simpa [htest] using hc.symm)]
  rfl

/-- Whatever an abort comes to, no bay but the one under test keeps HUNT. -/
theorem Outcome.removed (htest : s.underTest = some b) (h : Outcome s r b t) {c : Bay} (hc : c ≠ b) :
    (t.rcl c).block.hunt = false := by
  cases h with
  | ends h => rw [endPending_eq h.result, endHunt_hunt]
  | waits v => exact waiting_hunt htest v hc
  | closes v =>
    rw [State.maskS_block (withRequest_maskS (waiting s r v) (bayRec b) .closing)]
    exact waiting_hunt htest v hc

theorem Outcome.state (h : Outcome s r b t) : t.hnc.state = .aborting ∨ t.hnc.state = .idle := by
  cases h with
  | ends h => exact .inr h.ended.1
  | waits v => exact .inl rfl
  | closes v =>
    rw [State.maskS_hnc (withRequest_maskS (waiting s r v) (bayRec b) .closing)]
    exact .inl rfl

/-! ### What the abort leaves -/

/-- The hunt waits for a command at the bay under test, with the outstanding-restore mark given. -/
def Waits (s : State) (r : HuntResult) (b : Bay) (t : State) (v : Bool) : Prop :=
  t.hnc = { s.hnc with state := .aborting, timer := none, pendingResult := some r, restoreOut := v } ∧
  t.fru = s.fru ∧ t.rcl b = s.rcl b ∧ (∀ c, c ≠ b → t.rcl c = withoutHunt (s.rcl c)) ∧
  ∀ k, k ≠ bayRec b → t.slot k = s.slot k

theorem waits_waiting (htest : s.underTest = some b) (v : Bool) : Waits s r b (waiting s r v) v := by
  refine ⟨rfl, waiting_fru s r v, ?_, fun c hc => ?_, fun k _ => waiting_slot s r v k⟩
  · rw [waiting_rcl, if_pos htest]
  · rw [waiting_rcl, if_neg (by simpa [htest] using hc.symm)]

/-- The CLOSE of the restore is accepted where nothing keeps the bay from it (R51). -/
theorem judgeReq_close_accepted (hserved : (s.cap (bayRec b)).inService = true) (hpart : s.mgu.part ≠ .standdown)
    (hheld : ¬ ((s.status (bayRec b)).localMode = true ∨ (s.status (bayRec b)).interlock = true)) :
    s.judgeReq (bayRec b) .hunt .closing = none := by
  obtain ⟨hlocal, hlock⟩ := not_or.mp hheld
  exact State.judgeReq_none hserved (fun _ => hpart) (by simpa using hlocal) (fun _ => by simpa using hlock) (by simp)

theorem waits_withRequest (htest : s.underTest = some b) (v : Bool) (hjudge : s.judgeReq (bayRec b) .hunt .closing = none)
    (hslot : (s.slot (bayRec b)).state ≠ .free ∨ (s.slot (bayRec b)).pend = Pending.none) :
    Waits s r b (withRequest (waiting s r v) (bayRec b) .closing) v := by
  obtain ⟨hhnc, hfru, hrcl, hothers, hslots⟩ := waits_waiting (r := r) htest v
  have hmask := withRequest_maskS (waiting s r v) (bayRec b) .closing
  have hrcc : (withRequest (waiting s r v) (bayRec b) .closing).rcl = (waiting s r v).rcl := by
    unfold State.rcl
    rw [withRequest_rcc ((judgeReq_waiting s r v _ _).trans hjudge) (by decide) (by rwa [waiting_slot])]
  refine ⟨(State.maskS_hnc hmask).trans hhnc, (State.maskS_fru hmask).trans hfru, ?_, fun c hc => ?_, fun k hk => ?_⟩
  · rw [hrcc, hrcl]
  · rw [hrcc, hothers c hc]
  · rw [(withRequest_at _ _ _).slots k hk, hslots k hk]

theorem huntPlaced_restore (v : Bool) (hjudge : s.judgeReq (bayRec b) .hunt .closing = none) :
    HuntPlaced s (withRequest (waiting s r v) (bayRec b) .closing) (bayRec b) .closing 250 :=
  huntPlaced_of_same (waiting_slot s r v _)
    (State.maskM_mono (State.maskM_of_maskB (State.maskB_of_maskH (waiting_maskH s r v))))
    (huntPlaced_withRequest ((judgeReq_waiting s r v _ _).trans hjudge) (by decide))

/-- The abort of a running hunt with a bay under test (R142 to R144). -/
theorem huntAborts_abortHuntWith (htest : s.underTest = some b) (hrunning : s.hnc.state.running = true)
    (hfirst : s.hnc.state ≠ .aborting) (r : HuntResult) : HuntAborts s r b (s.abortHuntWith r) := by
  have hmask : (s.abortHuntWith r).maskH = s.maskH := (closedH_mask s).abortHuntWith rfl
  constructor
  case only => exact onlyHunt_of_mask hmask
  case reasons => exact sameReasons_of_maskH hmask
  case removed => exact fun c hc => (abort_outcome htest hrunning hfirst).removed htest hc
  case acts =>
    refine ⟨fun hstate => ?retest, fun hstate hpend => ?pending, fun hstate hpend => ?issued, fun hstate hmark => ?marked,
      fun hrestores hserved hpart hheld hslot => ?placed, fun hrestores hserved hpart => ?standdown,
      fun hrestores hfailed => ?failed⟩
    case retest =>
      rw [abort_retestDwell hstate]
      exact (ending_cut htest).ended
    case pending =>
      have hending : Ending s r b ((cut s r).setPend (bayRec b) .hunt none) := (ending_cut htest).setPend _ _ _
      rw [abort_opening_pending htest hstate hpend]
      refine ⟨hending.ended, ?_⟩
      rw [endPending_eq hending.result]
      exact endHunt_noRequest _ _ _ _ (by rw [State.setPend, State.setSlot_slot]; rfl)
    case issued =>
      rw [abort_opening_issued htest hstate hpend]
      exact ⟨waits_waiting htest _, waiting_bcu s r _⟩
    case marked =>
      rw [abort_restoring htest hstate hmark]
      exact ⟨waits_waiting htest _, waiting_bcu s r _⟩
    case placed =>
      have hjudge := judgeReq_close_accepted hserved hpart hheld
      rw [abort_restores htest hrestores, placeHuntClose_accepted hjudge]
      exact ⟨waits_withRequest htest _ hjudge hslot, huntPlaced_restore _ hjudge⟩
    case standdown =>
      rw [abort_restores htest hrestores, placeHuntClose_standdown (judgeReq_close_standdown hserved hpart)]
      exact ⟨waits_waiting htest _, waiting_bcu s r _⟩
    case failed =>
      obtain ⟨code, hjudge, hcode⟩ := judgeReq_close_failed hfailed
      rw [abort_restores htest hrestores, placeHuntClose_failed hjudge hcode, abortRestoreFailed_waiting htest]
      exact ⟨(ending_restoreLost htest).ended, restoreLost_bayOpen htest, restoreLost_locked htest,
        fun c hcand j hj => restoreLost_outcome htest hcand hj⟩

end Abort

end Sys2Proof.Proofs.HuntAbort

/-! START_HUNT and ABORT_HUNT (R129 to R131, R142): each op in each branch of its rule, and with that what the op leaves where a
request asks for it. -/

namespace Sys2Proof.Proofs.HuntOps

open Sys2Proof.Machine Sys2Proof.Safety
open Sys2Proof.Proofs.BreakerFail (exec_of_runOp)
open Sys2Proof.Proofs.HuntEnd Sys2Proof.Proofs.HuntStart Sys2Proof.Proofs.HuntAbort

section Ops

variable {s : State}

theorem opStartHunt_standdown (n : Rec) (hpart : s.mgu.part = .standdown) :
    State.opStartHunt n s = (s, refuse .standdown) :=
  if_pos hpart

theorem opStartHunt_refused (n : Rec) (hpart : s.mgu.part ≠ .standdown)
    (h : s.mgu.part ≠ .active ∨ s.hnc.state ≠ .idle ∨ s.efu.nvd.state ≠ .displaced) :
    State.opStartHunt n s = (s, refuse .state) := by
  rw [State.opStartHunt, if_neg hpart, if_pos h]

theorem opStartHunt_started (n : Rec) (hpart : s.mgu.part = .active) (hidle : s.hnc.state = .idle)
    (hnvd : s.efu.nvd.state = .displaced) : State.opStartHunt n s = (s.startHuntNow .startHunt, okAnswer) := by
  rw [State.opStartHunt, if_neg (by simp [hpart]), if_neg (by simp [hpart, hidle, hnvd])]

theorem opAbortHunt_idle (n : Rec) (hstate : s.hnc.state = .idle) : State.opAbortHunt n s = (s, refuse .state) :=
  if_pos hstate

theorem opAbortHunt_waiting (n : Rec) (hstate : s.hnc.state = .waiting) :
    State.opAbortHunt n s = (s.huntToIdle, okAnswer) := by
  rw [State.opAbortHunt, if_neg (by simp [hstate]), if_pos hstate]

theorem opAbortHunt_aborting (n : Rec) (hstate : s.hnc.state = .aborting) : State.opAbortHunt n s = (s, okAnswer) := by
  simp [State.opAbortHunt, State.abortRunning, hstate]

theorem running_of_ne (hidle : s.hnc.state ≠ .idle) (hwaiting : s.hnc.state ≠ .waiting) :
    s.hnc.state.running = true := by
  cases h : s.hnc.state with
  | idle => exact absurd h hidle
  | waiting => exact absurd h hwaiting
  | _ => rfl

theorem opAbortHunt_running (n : Rec) (hidle : s.hnc.state ≠ .idle) (hwaiting : s.hnc.state ≠ .waiting)
    (haborting : s.hnc.state ≠ .aborting) : State.opAbortHunt n s = (s.abortHuntWith .abortedMgmt, okAnswer) := by
  simp [State.opAbortHunt, State.abortRunning, hidle, hwaiting, haborting, running_of_ne hidle hwaiting]

/-- Of a running hunt an abort leaves the state ABORTING or IDLE, and no bay but the one under test with HUNT. -/
theorem abortHuntWith_state (r : HuntResult) (hrunning : s.hnc.state.running = true) (hfirst : s.hnc.state ≠ .aborting) :
    ((s.abortHuntWith r).hnc.state = .aborting ∨ (s.abortHuntWith r).hnc.state = .idle) ∧
    ∀ b, s.underTest ≠ some b → ((s.abortHuntWith r).rcl b).block.hunt = false := by
  cases htest : s.underTest with
  | none =>
    have hresult : (cut s r).hnc.pendingResult = some r := by rw [cut_hnc]
    rw [abort_untested htest, endPending_eq hresult, endHunt_hnc]
    exact ⟨.inr rfl, fun b _ => endHunt_hunt _ _ _ _ _ b⟩
  | some a =>
    have houtcome := abort_outcome (r := r) htest hrunning hfirst
    exact ⟨houtcome.state, fun b hb => houtcome.removed htest (fun e => hb (congrArg some e.symm))⟩

end Ops

/-- Settles O31, by the branches of R130 and by the states of the hunt in R129 and R142: an accepted START_HUNT is a start of
the hunt (R131), an ABORT_HUNT in a running hunt an abort with ABORTED_MGMT (R142). -/
theorem huntOpsAct : Obligations.HuntOpsAct := by
  refine ⟨fun s p h => ⟨fun hpart => ?standdown, fun hpart hstate => ?refused, fun hpart hidle hnvd => ?started⟩,
    fun s p h => ⟨fun hstate => ?idle, fun hstate => ?waiting, fun hstate => ?aborting,
      fun hidle hwaiting haborting => ?running⟩⟩
  case standdown => exact exec_of_runOp rfl h (opStartHunt_standdown p.context hpart)
  case refused => exact exec_of_runOp rfl h (opStartHunt_refused p.context hpart hstate)
  case started =>
    exact ⟨_, exec_of_runOp rfl h (opStartHunt_started p.context hpart hidle hnvd), huntStarts_startHuntNow s .startHunt⟩
  case idle => exact exec_of_runOp rfl h (opAbortHunt_idle p.context hstate)
  case waiting => exact exec_of_runOp rfl h (opAbortHunt_waiting p.context hstate)
  case aborting => exact exec_of_runOp rfl h (opAbortHunt_aborting p.context hstate)
  case running =>
    have hrunning := running_of_ne hidle hwaiting
    have hmask : (s.abortHuntWith .abortedMgmt).maskH = s.maskH := (closedH_mask s).abortHuntWith rfl
    obtain ⟨hstate, hremoved⟩ := abortHuntWith_state .abortedMgmt hrunning haborting
    exact ⟨_, exec_of_runOp rfl h (opAbortHunt_running p.context hidle hwaiting haborting), onlyHunt_of_mask hmask,
      sameReasons_of_maskH hmask, hstate, hremoved,
      fun b htest => huntAborts_abortHuntWith htest hrunning haborting .abortedMgmt⟩

end Sys2Proof.Proofs.HuntOps

/-! Capture channels changed one by one, and the end of a channel (R162): what the end of a channel that holds for no factor
leaves, and what the end of a hold leaves where it is a report or an absorption. -/

namespace Sys2Proof.Proofs.CaptureEnds

open Sys2Proof.Machine Sys2Proof.Proofs.Occurrences

/-! ### Channels replaced one by one -/

theorem mem_allChans (k : Chan) : k ∈ allChans := by revert k; decide

theorem allChans_nodup : allChans.Nodup := by decide

theorem filter_allChans_eq_singleton {q : Chan → Bool} {k : Chan} (hk : q k = true) (hother : ∀ j, j ≠ k → q j = false) :
    allChans.filter q = [k] := by
  have hq : q = (· == k) := funext fun j => by
    by_cases hj : j = k
    · simp [hj, hk]
    · simp [hj, hother j hj]
  have hsingle : ∀ i : Chan, allChans.filter (· == i) = [i] := by decide
  rw [hq, hsingle]

section Chans

variable {s : State}

theorem setChan_chan_other {j k : Chan} (h : j ≠ k) (c : Channel) : (s.setChan k c).chan j = s.chan j :=
  (s.setChan_chan_at k c j).trans (if_neg h.symm)

theorem setChan_chan_self (k : Chan) : s.setChan k (s.chan k) = s := by
  have hput : s.recd.chans.put k (s.chan k) = s.recd.chans :=
    Vector.ext_look fun j => by
      rw [Vector.look_put]
      exact ite_eq_right_iff.mpr (fun h => by rw [← h, State.chan])
  rw [State.setChan, hput]

/-- Each channel of a list becomes what a function names for it. -/
def setChans (g : Chan → Channel) (l : List Chan) (s : State) : State := forEach l (fun k t => t.setChan k (g k)) s

/-- A step that replaces its own channel by one that is known beforehand replaces the channels of a list. -/
theorem forEach_eq_setChans {f : Chan → State → State} {g : Chan → Channel} {l : List Chan} (hl : l.Nodup)
    (hstep : ∀ k ∈ l, ∀ t : State, t.chan k = s.chan k → f k t = t.setChan k (g k)) :
    forEach l f s = setChans g l s := by
  induction l generalizing s with
  | nil => rfl
  | cons k l ih =>
    obtain ⟨hk, hl⟩ := List.nodup_cons.mp hl
    calc forEach (k :: l) f s = forEach l f (f k s) := rfl
      _ = forEach l f (s.setChan k (g k)) := by rw [hstep k List.mem_cons_self s rfl]
      _ = setChans g l (s.setChan k (g k)) := ih hl fun j hj t ht => by
        have hjk : j ≠ k := fun e => hk (e ▸ hj)
        exact hstep j (List.mem_cons_of_mem k hj) t (ht.trans (setChan_chan_other hjk _))

theorem setChans_chan_of_notMem {g : Chan → Channel} {l : List Chan} {j : Chan} (hj : j ∉ l) :
    (setChans g l s).chan j = s.chan j := by
  induction l generalizing s with
  | nil => rfl
  | cons k l ih =>
    obtain ⟨hjk, hl⟩ : j ≠ k ∧ j ∉ l := by simpa using hj
    exact (ih hl).trans (setChan_chan_other hjk _)

theorem setChans_chan_of_mem {g : Chan → Channel} {l : List Chan} {j : Chan} (hj : j ∈ l) :
    (setChans g l s).chan j = g j := by
  induction l generalizing s with
  | nil => cases hj
  | cons k l ih =>
    by_cases hl : j ∈ l
    · exact ih hl
    · obtain rfl : j = k := (List.mem_cons.mp hj).resolve_right hl
      exact (setChans_chan_of_notMem hl).trans (s.setChan_chan j _)

theorem setChans_evu (g : Chan → Channel) (l : List Chan) : (setChans g l s).evu = s.evu :=
  forEach_keep State.evu (fun k t => t.setChan k (g k)) (fun _ _ => rfl) l s

end Chans

/-! ### The end of a channel that holds for no factor -/

section NoHold

variable {u : State} {k : Chan} {c : Channel}

theorem judgeEnd_unreported (hnone : c.holding = none) (hreport : c.reportAtEnd = false) :
    (u.setChan k c).judgeEnd k = u.setChan k c := by
  simp [State.judgeEnd, State.judgeEndWith, hnone, hreport]

theorem judgeEnd_reported (hnone : c.holding = none) (hreport : c.reportAtEnd = true) :
    (u.setChan k c).judgeEnd k = (u.setChan k c).occur (fCaptureDone k) (1#9 <<< c.bay.val)
      ([byte k.val, byte c.trigger.val] ++ bytes16 c.rows.length ++ [if c.truncated then 1 else 0]) := by
  simp [State.judgeEnd, State.judgeEndWith, State.captureDone, captureDetail, State.occur, bayMask, recMask, bayRec,
    hnone, hreport]

end NoHold

/-! ### The end of a hold -/

section Hold

variable {u : State} {f : Factor}

theorem mem_holders {j : Chan} : j ∈ u.holders f ↔ (u.chan j).holding = some f := by
  simp [State.holders, mem_allChans]

theorem dropHolds_chan_of_holding {j : Chan} (h : (u.chan j).holding = some f) :
    (u.dropHolds f).chan j = { u.chan j with holding := none } :=
  (Vector.look_each _ _ _).trans (if_pos (beq_iff_eq.mpr h))

theorem dropHolds_chan_of_not_holding {j : Chan} (h : (u.chan j).holding ≠ some f) : (u.dropHolds f).chan j = u.chan j :=
  (Vector.look_each _ _ _).trans (if_neg (fun e => h (beq_iff_eq.mp e)))

theorem judgeEnd_held {k : Chan} (hhold : (u.chan k).holding = some f) :
    u.judgeEnd k = u.judgeHoldWith (fun o t => t.occurOf o) f := by
  rw [State.judgeEnd, State.judgeEndWith, hhold]

theorem judgeHold_goesOn (make : Occ → State → State) {j : Chan} (hhold : (u.chan j).holding = some f)
    (hrunning : (u.chan j).state = .running) : u.judgeHoldWith make f = u := by
  have hany : (u.holders f).any (fun i => (u.chan i).state == .running) = true :=
    List.any_eq_true.mpr ⟨j, mem_holders.mpr hhold, beq_iff_eq.mpr hrunning⟩
  exact if_pos hany

/-! #### A hold of one channel that ends with a report -/

/-- The factor's held mark falls, as the first step of a report. -/
def released (u : State) (f : Factor) : State := (u.setFac f { u.fac f with held := false }).judgeOutSlot

/-- A channel's CAPTURE_DONE takes place between the fall of the factor's held mark and the fall of the holding marks. -/
def reported (u : State) (f : Factor) (k : Chan) : State :=
  ((released u f).occurOf ((released u f).captureDone k)).dropHolds f

theorem judgeHold_report {k : Chan} (hhold : (u.chan k).holding = some f) (hdone : (u.chan k).state = .done)
    (hreport : (u.chan k).reportAtEnd = true) (halone : ∀ j, j ≠ k → (u.chan j).holding ≠ some f) :
    u.judgeHoldWith (fun o t => t.occurOf o) f = reported u f k := by
  have hholders : u.holders f = [k] :=
    filter_allChans_eq_singleton (beq_iff_eq.mpr hhold) (fun j hj => beq_false_of_ne (halone j hj))
  rw [State.judgeHoldWith, hholders]
  calc _ = (if (u.chan k).reportAtEnd then (released u f).occurOf ((released u f).captureDone k)
        else released u f).dropHolds f := (if_neg (by simp [hdone])).trans (if_pos (by simp [hreport]))
    _ = reported u f k := by rw [if_pos hreport, reported]

section Report

variable {k j : Chan} (harmed : Unarmed u)
include harmed

theorem captureDone_chan : ((released u f).occurOf ((released u f).captureDone k)).chan j = u.chan j :=
  occur_chan (s := released u f) harmed (fCaptureDone k) _ _ j

theorem reported_chan_of_holding (h : (u.chan j).holding = some f) :
    (reported u f k).chan j = { u.chan j with holding := none } := by
  have hchan : ((released u f).occurOf ((released u f).captureDone k)).chan j = u.chan j := captureDone_chan harmed
  rw [reported, dropHolds_chan_of_holding (by rw [hchan, h]), hchan]

theorem reported_chan_of_not_holding (h : (u.chan j).holding ≠ some f) : (reported u f k).chan j = u.chan j := by
  have hchan : ((released u f).occurOf ((released u f).captureDone k)).chan j = u.chan j := captureDone_chan harmed
  rw [reported, dropHolds_chan_of_not_holding (by rwa [hchan]), hchan]

theorem reported_fac_held (hne : fCaptureDone k ≠ f) : (reported u f k).fac f = { u.fac f with held := false } :=
  (occur_fac_other (s := released u f) harmed hne _ _).trans (u.setFac_fac f _)

theorem reported_fac_done (hne : fCaptureDone k ≠ f) (hpart : u.mgu.part ≠ .bypass) :
    ((reported u f k).fac (fCaptureDone k)).flag = true ∧
    ((reported u f k).fac (fCaptureDone k)).count = min 255 ((u.fac (fCaptureDone k)).count + 1) := by
  have hfac := occur_fac_same (s := released u f) harmed hpart (fCaptureDone k)
  have hrecord : (released u f).fac (fCaptureDone k) = u.fac (fCaptureDone k) :=
    (u.setFac_fac_at f _ _).trans (if_neg hne.symm)
  rw [hrecord] at hfac
  exact ⟨congrArg FactorRecord.flag (hfac _ _), congrArg FactorRecord.count (hfac _ _)⟩

end Report

/-! #### A hold that ends by absorption -/

/-- A channel as an absorption leaves it: DISARMED where it was DONE. -/
def disarmDone (c : Channel) : Channel := { c with state := if c.state = .done then .disarmed else c.state }

theorem judgeHold_absorb (make : Occ → State → State)
    (hended : ∀ j, (u.chan j).holding = some f → (u.chan j).state ≠ .running ∧ (u.chan j).reportAtEnd = false) :
    u.judgeHoldWith make f = (u.absorb f).dropHolds f := by
  have hrunning : ¬ (u.holders f).any (fun j => (u.chan j).state == .running) = true := by
    simpa [mem_holders] using fun j hj => (hended j hj).1
  have hreport : ¬ (u.holders f).any (fun j => (u.chan j).reportAtEnd) = true := by
    simpa [mem_holders] using fun j hj => (hended j hj).2
  exact (if_neg hrunning).trans (if_neg hreport)

/-- An absorption clears the factor and turns each DONE channel that holds for it to DISARMED. -/
theorem absorb_eq_setChans : u.absorb f =
    setChans (fun k => disarmDone (u.chan k)) (u.holders f) (u.setFac f (u.fac f).clear).judgeOutSlot := by
  refine forEach_eq_setChans (allChans_nodup.filter _) fun k _ t ht => ?_
  have hchan : t.chan k = u.chan k := ht
  rw [← hchan]
  by_cases hdone : (t.chan k).state = .done
  · simp [hdone, disarmDone]
  · have hkept : disarmDone (t.chan k) = t.chan k := by simp [disarmDone, hdone]
    simp [hdone, hkept, setChan_chan_self]

section Absorb

variable {j : Chan}

theorem absorbed_chan_of_holding (h : (u.chan j).holding = some f) :
    ((u.absorb f).dropHolds f).chan j = { disarmDone (u.chan j) with holding := none } := by
  have hchan : (u.absorb f).chan j = disarmDone (u.chan j) := by
    rw [absorb_eq_setChans, setChans_chan_of_mem (mem_holders.mpr h)]
  rw [dropHolds_chan_of_holding (by rw [hchan]; exact h), hchan]

theorem absorbed_chan_of_not_holding (h : (u.chan j).holding ≠ some f) :
    ((u.absorb f).dropHolds f).chan j = u.chan j := by
  have hchan : (u.absorb f).chan j = u.chan j := by
    rw [absorb_eq_setChans, setChans_chan_of_notMem (fun hj => h (mem_holders.mp hj))]
    rfl
  rw [dropHolds_chan_of_not_holding (by rwa [hchan]), hchan]

theorem absorbed_fac (g : Factor) : ((u.absorb f).dropHolds f).fac g = if f = g then (u.fac f).clear else u.fac g := by
  have hevu : ((u.absorb f).dropHolds f).evu = (u.setFac f (u.fac f).clear).judgeOutSlot.evu := by
    rw [absorb_eq_setChans]
    exact setChans_evu _ _
  calc ((u.absorb f).dropHolds f).fac g = (u.setFac f (u.fac f).clear).judgeOutSlot.fac g :=
        congrArg (fun e : Evu => e.factors.look g) hevu
    _ = _ := u.setFac_fac_at f _ g

end Absorb

end Hold

end Sys2Proof.Proofs.CaptureEnds

/-! ARM_CAPTURE and DISARM_CAPTURE (R157, R158): each op in each branch of its rule. -/

namespace Sys2Proof.Proofs.CaptureOps

open Sys2Proof.Machine Sys2Proof.Safety

theorem index?_eq_none {n v : Nat} (h : n ≤ v) : index? n v = none := dif_neg (by omega)

theorem index?_eq_some {n v : Nat} {k : Fin n} (h : k.val = v) : index? n v = some k := by
  subst h
  exact dif_pos k.isLt

/-- An op with an immediate that the request asks for ends with the state and the answer of its body, on the state with the
pending widen consumed. -/
theorem exec_of_runImm {c : Instr} {imm : BitVec 12} {body : Word32 → Rec → State → State × Answer} {s t : State}
    {p : Progress} {a : Answer} (harm : exec c s = s.live (s.runImm c imm body)) (h : Runs s c p)
    (hbody : body (valueOf p imm) p.context (consumed s p) = (t, a)) : exec c s = .next (t.opDone a) := by
  rw [harm, runImm_next h, hbody]

section Ops

variable {s : State} {v : Word32} {k : Chan} (n : Rec)

/-- A channel that ARM_CAPTURE may not touch yet: a readout of it is in progress, or its capture has ended while the hold it
belongs to goes on (R157). -/
def Busy (s : State) (k : Chan) : Prop :=
  (∃ r ∈ s.recd.readouts, r.chan = k) ∨
    (((s.chan k).state = .done ∨ (s.chan k).state = .disarmed) ∧ (s.chan k).holding ≠ none)

theorem busy_iff : (s.reading k || (((s.chan k).state == .done || (s.chan k).state == .disarmed) &&
    (s.chan k).holding.isSome)) = true ↔ Busy s k := by
  simp [Busy, State.reading, Option.isSome_iff_ne_none]

theorem opArm_badChannel (hv : 3 < v.toNat) : State.opArm v n s = (s, refuse .badArg) := by
  rw [State.opArm, index?_eq_none hv]

theorem opArm_busy (hk : k.val = v.toNat) (hbusy : Busy s k) : State.opArm v n s = (s, refuse .busy) := by
  rw [State.opArm, index?_eq_some hk]
  exact if_pos (busy_iff.mpr hbusy)

theorem opArm_running (hk : k.val = v.toNat) (hfree : ¬ Busy s k) (hstate : (s.chan k).state = .running) :
    State.opArm v n s = (s, refuse .state) := by
  rw [State.opArm, index?_eq_some hk]
  exact (if_neg (mt busy_iff.mp hfree)).trans (if_pos hstate)

theorem opArm_short (hk : k.val = v.toNat) (hfree : ¬ Busy s k) (hstate : (s.chan k).state ≠ .running)
    (hlength : (s.chan k).length < (s.chan k).pre + 1) : State.opArm v n s = (s, refuse .badArg) := by
  rw [State.opArm, index?_eq_some hk]
  exact (if_neg (mt busy_iff.mp hfree)).trans ((if_neg hstate).trans (if_pos hlength))

theorem opArm_armed (hk : k.val = v.toNat) (hfree : ¬ Busy s k) (hstate : (s.chan k).state = .armed)
    (hlength : (s.chan k).pre + 1 ≤ (s.chan k).length) : State.opArm v n s = (s, okAnswer) := by
  rw [State.opArm, index?_eq_some hk]
  exact (if_neg (mt busy_iff.mp hfree)).trans
    ((if_neg (by simp [hstate])).trans ((if_neg (by omega)).trans (if_pos hstate)))

theorem opArm_taken (hk : k.val = v.toNat) (hfree : ¬ Busy s k)
    (hstate : (s.chan k).state = .disarmed ∨ (s.chan k).state = .done)
    (hlength : (s.chan k).pre + 1 ≤ (s.chan k).length) : State.opArm v n s = (s.setChan k
      { s.chan k with rows := [], truncated := false, target := (s.chan k).length * 32, state := .armed }, okAnswer) := by
  have hrunning : (s.chan k).state ≠ .running := by rcases hstate with h | h <;> simp [h]
  have harmed : (s.chan k).state ≠ .armed := by rcases hstate with h | h <;> simp [h]
  rw [State.opArm, index?_eq_some hk]
  exact (if_neg (mt busy_iff.mp hfree)).trans
    ((if_neg hrunning).trans ((if_neg (by omega)).trans (if_neg harmed)))

theorem opDisarm_badChannel (hv : 3 < v.toNat) : State.opDisarm v n s = (s, refuse .badArg) := by
  rw [State.opDisarm, index?_eq_none hv]

theorem opDisarm_disarmed (hk : k.val = v.toNat) (hstate : (s.chan k).state = .disarmed) :
    State.opDisarm v n s = (s, okAnswer) := by
  simp only [State.opDisarm, index?_eq_some hk, hstate]

theorem opDisarm_armed_or_done (hk : k.val = v.toNat) (hstate : (s.chan k).state = .armed ∨ (s.chan k).state = .done) :
    State.opDisarm v n s = (s.setChan k { s.chan k with state := .disarmed }, okAnswer) := by
  rcases hstate with h | h <;> simp only [State.opDisarm, index?_eq_some hk, h]

theorem opDisarm_running (hk : k.val = v.toNat) (hstate : (s.chan k).state = .running) :
    State.opDisarm v n s = (s.truncateChan k, okAnswer) := by
  simp only [State.opDisarm, index?_eq_some hk, hstate]

end Ops

end Sys2Proof.Proofs.CaptureOps

/-! A completed instant at the capture channels (R15, R160): the rows it adds, and a channel that reaches its target. -/

namespace Sys2Proof.Proofs.CaptureRows

open Sys2Proof.Machine Sys2Proof.Safety Sys2Proof.Proofs.CaptureEnds

section Rows

variable {s : State} {b : Bay} {i : Instant}

/-- The channel is RUNNING on the bay. -/
def On (s : State) (b : Bay) (k : Chan) : Prop := (s.chan k).state = .running ∧ (s.chan k).bay = b

theorem on_iff {k : Chan} : ((s.chan k).state == .running && (s.chan k).bay == b) = true ↔ On s b k := by simp [On]

theorem mem_runningOn {k : Chan} : k ∈ s.runningOn b ↔ On s b k := by
  rw [State.runningOn, List.mem_filter, on_iff]
  exact and_iff_right (mem_allChans k)

/-- The channel with the instant as its newest row. -/
def withRow (c : Channel) (i : Instant) : Channel := { c with rows := c.rows ++ [i] }

theorem appendRow_short {k : Chan} (hon : On s b k) (hshort : (withRow (s.chan k) i).rows.length < (s.chan k).target) :
    s.appendRow b i k = s.setChan k (withRow (s.chan k) i) :=
  (if_pos (on_iff.mpr hon)).trans (if_neg (Nat.not_le_of_lt hshort))

theorem appendRow_full {k : Chan} (hon : On s b k) (hfull : (s.chan k).target ≤ (withRow (s.chan k) i).rows.length) :
    s.appendRow b i k =
      (s.setChan k { withRow (s.chan k) i with state := .done, truncated := false }).judgeEnd k :=
  (if_pos (on_iff.mpr hon)).trans (if_pos hfull)

/-- The state with the instant in its bay's history ring, before any channel takes it. -/
def entered (s : State) (b : Bay) (i : Instant) : State :=
  s.setHistory b (((s.meu.history.look b) ++ [i]).drop ((s.meu.history.look b).length + 1 - 128))

theorem complete_eq : s.complete b i = forEach (s.runningOn b) (fun k t => t.appendRow b i k) (entered s b i) := by
  simp [State.complete, entered, pushLimited, newest, Config.historyLength]

theorem complete_onlyEvents : OnlyEvents (entered s b i) (s.complete b i) := by
  rw [complete_eq]
  exact onlyEvents_of_mask (forEach_keep State.maskE _ (fun k t => t.appendRow_maskE b i k) _ _)

/-- Where no channel reaches its target, each channel running on the bay takes its row. -/
theorem complete_short (hshort : ∀ k, On s b k → (withRow (s.chan k) i).rows.length < (s.chan k).target) :
    s.complete b i = setChans (fun k => withRow (s.chan k) i) (s.runningOn b) (entered s b i) := by
  rw [complete_eq]
  refine forEach_eq_setChans (allChans_nodup.filter _) fun k hk t ht => ?_
  have hchan : t.chan k = s.chan k := ht
  have hon := mem_runningOn.mp hk
  rw [← hchan]
  exact appendRow_short (by rwa [On, hchan]) (by rw [hchan]; exact hshort k hon)

/-- Where one channel alone runs on the bay and reaches its target, it ends with the row. -/
theorem complete_full {k : Chan} (hon : On s b k) (halone : ∀ j, j ≠ k → ¬ On s b j)
    (hfull : (s.chan k).target ≤ (withRow (s.chan k) i).rows.length) : s.complete b i =
      ((entered s b i).setChan k { withRow (s.chan k) i with state := .done, truncated := false }).judgeEnd k := by
  have hrunning : s.runningOn b = [k] :=
    filter_allChans_eq_singleton (on_iff.mpr hon) fun j hj => Bool.eq_false_iff.mpr (mt on_iff.mp (halone j hj))
  rw [complete_eq, hrunning]
  exact appendRow_full (s := entered s b i) hon hfull

end Rows

end Sys2Proof.Proofs.CaptureRows

/-! ARM_CAPTURE, DISARM_CAPTURE and the rows of a completed instant as the claim says them, with what a RUNNING channel that is
disarmed leaves by the hold it stands in (R158, R162). -/

namespace Sys2Proof.Proofs.CaptureArmed

open Sys2Proof.Machine Sys2Proof.Safety
open Sys2Proof.Proofs.Occurrences Sys2Proof.Proofs.CaptureEnds Sys2Proof.Proofs.CaptureOps Sys2Proof.Proofs.CaptureRows

/-! ### A RUNNING channel that is truncated (R158, R162) -/

section Truncated

variable {s : State} {k : Chan} {f : Factor}

/-- The channel as a truncation ends it. -/
def truncatedChan (c : Channel) : Channel := { c with state := .done, truncated := true }

/-- The state with the channel ended, before its end is judged. -/
def cutOff (s : State) (k : Chan) : State := s.setChan k (truncatedChan (s.chan k))

theorem cutOff_chan_same : (cutOff s k).chan k = truncatedChan (s.chan k) := s.setChan_chan k _

theorem cutOff_chan_other {j : Chan} (h : j ≠ k) : (cutOff s k).chan j = s.chan j := setChan_chan_other h _

theorem truncateChan_onlyEvents : OnlyEvents s (s.truncateChan k) := onlyEvents_of_mask (s.truncateChan_maskE k)

theorem truncateChan_unreported (hnone : (s.chan k).holding = none) (hreport : (s.chan k).reportAtEnd = false) :
    (s.truncateChan k).chan k = truncatedChan (s.chan k) :=
  (congrArg (State.chan · k) (judgeEnd_unreported (c := truncatedChan (s.chan k)) hnone hreport)).trans cutOff_chan_same

theorem truncateChan_reported (hnone : (s.chan k).holding = none) (hreport : (s.chan k).reportAtEnd = true) :
    s.truncateChan k = (cutOff s k).occur (fCaptureDone k) (1#9 <<< (s.chan k).bay.val)
      ([byte k.val, byte (s.chan k).trigger.val] ++ bytes16 (s.chan k).rows.length ++ [1]) :=
  judgeEnd_reported (c := truncatedChan (s.chan k)) hnone hreport

theorem cutOff_unarmed (harmed : Unarmed s) : Unarmed (cutOff s k) := fun j => by
  by_cases hj : j = k
  · subst hj
    rw [cutOff_chan_same]
    nofun
  · rw [cutOff_chan_other hj]
    exact harmed j

section Held

variable (hhold : (s.chan k).holding = some f)
include hhold

theorem truncateChan_held : s.truncateChan k = (cutOff s k).judgeHoldWith (fun o t => t.occurOf o) f :=
  judgeEnd_held (u := cutOff s k) (by rw [cutOff_chan_same]; exact hhold)

theorem truncateChan_goesOn {j : Chan} (hj : j ≠ k) (hother : (s.chan j).holding = some f)
    (hrunning : (s.chan j).state = .running) : s.truncateChan k = cutOff s k := by
  rw [truncateChan_held hhold]
  exact judgeHold_goesOn _ (by rwa [cutOff_chan_other hj]) (by rwa [cutOff_chan_other hj])

theorem truncateChan_report (hreport : (s.chan k).reportAtEnd = true)
    (halone : ∀ j, j ≠ k → (s.chan j).holding ≠ some f) : s.truncateChan k = reported (cutOff s k) f k := by
  rw [truncateChan_held hhold]
  exact judgeHold_report (by rw [cutOff_chan_same]; exact hhold) (by rw [cutOff_chan_same]; rfl)
    (by rw [cutOff_chan_same]; exact hreport) (fun j hj => by rw [cutOff_chan_other hj]; exact halone j hj)

theorem truncateChan_absorb (hreport : (s.chan k).reportAtEnd = false) (hothers : ∀ j, j ≠ k →
    (s.chan j).holding = some f → (s.chan j).state ≠ .running ∧ (s.chan j).reportAtEnd = false) :
    s.truncateChan k = ((cutOff s k).absorb f).dropHolds f := by
  rw [truncateChan_held hhold]
  refine judgeHold_absorb _ fun j hj => ?_
  by_cases hjk : j = k
  · subst hjk
    rw [cutOff_chan_same]
    exact ⟨nofun, hreport⟩
  · rw [cutOff_chan_other hjk] at hj ⊢
    exact hothers j hjk hj

/-- A hold of this channel alone that reports leaves the factor's record with its held mark down, and CAPTURE_DONE taken. -/
theorem truncateChan_report_leaves (hreport : (s.chan k).reportAtEnd = true)
    (halone : ∀ j, j ≠ k → (s.chan j).holding ≠ some f) (harmed : Unarmed s) (hne : fCaptureDone k ≠ f)
    (hpart : s.mgu.part ≠ .bypass) :
    (s.truncateChan k).chan k = { truncatedChan (s.chan k) with holding := none } ∧
    (∀ j, j ≠ k → (s.truncateChan k).chan j = s.chan j) ∧
    (s.truncateChan k).fac f = { s.fac f with held := false } ∧
    ((s.truncateChan k).fac (fCaptureDone k)).flag = true ∧
    ((s.truncateChan k).fac (fCaptureDone k)).count = min 255 ((s.fac (fCaptureDone k)).count + 1) := by
  have hcut : Unarmed (cutOff s k) := cutOff_unarmed harmed
  rw [truncateChan_report hhold hreport halone]
  refine ⟨?_, fun j hj => ?_, reported_fac_held hcut hne, reported_fac_done hcut hne hpart⟩
  · rw [reported_chan_of_holding hcut (by rw [cutOff_chan_same]; exact hhold), cutOff_chan_same]
  · rw [reported_chan_of_not_holding hcut (by rw [cutOff_chan_other hj]; exact halone j hj), cutOff_chan_other hj]

/-- A hold that is absorbed takes the holding mark off every channel of the factor, and clears the factor alone. -/
theorem truncateChan_absorb_leaves (hreport : (s.chan k).reportAtEnd = false) (hothers : ∀ j, j ≠ k →
    (s.chan j).holding = some f → (s.chan j).state ≠ .running ∧ (s.chan j).reportAtEnd = false) :
    (s.truncateChan k).chan k = { truncatedChan (s.chan k) with state := .disarmed, holding := none } ∧
    (∀ j, j ≠ k → (s.chan j).holding = some f →
      (s.truncateChan k).chan j = { disarmDone (s.chan j) with holding := none }) ∧
    (∀ j, j ≠ k → (s.chan j).holding ≠ some f → (s.truncateChan k).chan j = s.chan j) ∧
    (s.truncateChan k).fac f = (s.fac f).clear ∧ ∀ g, g ≠ f → (s.truncateChan k).fac g = s.fac g := by
  rw [truncateChan_absorb hhold hreport hothers]
  refine ⟨?_, fun j hj hother => ?_, fun j hj hother => ?_, ?_, fun g hg => ?_⟩
  · rw [absorbed_chan_of_holding (by rw [cutOff_chan_same]; exact hhold), cutOff_chan_same]
    rfl
  · rw [absorbed_chan_of_holding (by rwa [cutOff_chan_other hj]), cutOff_chan_other hj]
  · rw [absorbed_chan_of_not_holding (by rwa [cutOff_chan_other hj]), cutOff_chan_other hj]
  · exact (absorbed_fac f).trans (if_pos rfl)
  · exact (absorbed_fac g).trans (if_neg hg.symm)

end Held

end Truncated

/-- Settles O32, by the branches of R157 and R158, by the hold of a RUNNING channel that is disarmed (R162), and by whether a
channel running on the bay reaches its target with the row (R160). -/
theorem captureArmed : Obligations.CaptureArmed := by
  refine ⟨fun s p imm h => ⟨fun hv => ?armBad, fun k hk => ⟨fun hbusy => ?armBusy, fun hfree hstate => ?armRunning,
      fun hfree hstate hlength => ?armShort, fun hfree hstate hlength => ?armArmed,
      fun hfree hstate hlength => ?armTaken⟩⟩,
    fun s p imm h => ⟨fun hv => ?disarmBad, fun k hk => ⟨fun hstate => ?disarmed, fun hstate => ?disarmIdle,
      fun hstate => ⟨(consumed s p).truncateChan k, ?disarmRunning, truncateChan_onlyEvents,
        truncateChan_unreported (s := consumed s p), truncateChan_reported (s := consumed s p),
        fun f hhold => ⟨?goesOn, fun hended => ⟨?report, ?absorb⟩⟩⟩⟩⟩,
    fun s b i => ⟨complete_onlyEvents, fun hshort => ?rows, fun k hon halone hfull hnone => ⟨?endsSilent, ?endsReported⟩⟩⟩
  case armBad => exact exec_of_runImm rfl h (opArm_badChannel _ hv)
  case armBusy => exact exec_of_runImm rfl h (opArm_busy _ hk hbusy)
  case armRunning => exact exec_of_runImm rfl h (opArm_running _ hk hfree hstate)
  case armShort => exact exec_of_runImm rfl h (opArm_short _ hk hfree hstate hlength)
  case armArmed => exact exec_of_runImm rfl h (opArm_armed _ hk hfree hstate hlength)
  case armTaken => exact exec_of_runImm rfl h (opArm_taken _ hk hfree hstate hlength)
  case disarmBad => exact exec_of_runImm rfl h (opDisarm_badChannel _ hv)
  case disarmed => exact exec_of_runImm rfl h (opDisarm_disarmed _ hk hstate)
  case disarmIdle => exact exec_of_runImm rfl h (opDisarm_armed_or_done _ hk hstate)
  case disarmRunning => exact exec_of_runImm rfl h (opDisarm_running _ hk hstate)
  case goesOn =>
    rintro ⟨j, ⟨hj, hother⟩, hrunning⟩
    exact truncateChan_goesOn (s := consumed s p) hhold hj hother hrunning
  case report =>
    intro hreport halone harmed hne hpart
    exact truncateChan_report_leaves (s := consumed s p) hhold hreport (fun j hj hother => halone j ⟨hj, hother⟩) harmed
      (fun e => hne (congrArg Fin.val e).symm) hpart
  case absorb =>
    intro hreport hothers
    obtain ⟨hself, hholders, hrest, hfactor, hfactors⟩ := truncateChan_absorb_leaves (s := consumed s p) hhold hreport
      fun j hj hother => ⟨hended j ⟨hj, hother⟩, hothers j ⟨hj, hother⟩⟩
    exact ⟨hself, fun j hother => hholders j hother.1 hother.2, fun j hj hother => hrest j hj fun e => hother ⟨hj, e⟩,
      hfactor, hfactors⟩
  case rows =>
    rw [complete_short hshort]
    exact ⟨setChans_evu _ _, fun k => ⟨fun hon => setChans_chan_of_mem (mem_runningOn.mpr hon),
      fun hoff => setChans_chan_of_notMem (mt mem_runningOn.mp hoff)⟩⟩
  case endsSilent =>
    intro hreport
    rw [complete_full hon halone hfull]
    exact judgeEnd_unreported hnone hreport
  case endsReported =>
    intro hreport
    rw [complete_full hon halone hfull, ← hon.2]
    exact judgeEnd_reported hnone hreport

end Sys2Proof.Proofs.CaptureArmed

/-! A frame that arrives on IN (R176, R177, R179, R181): the frame check, the forward queue, the lines of the table of R177, and
the arrival as a whole. -/

namespace Sys2Proof.Proofs.FrameArrival

open Sys2Proof.Machine Sys2Proof.Safety

/-! ### The frame check (R176, R184) -/

theorem frameGood_iff {f : Frame} :
    frameGood f = true ↔
      crc16 (checkedBytes f) = f.check ∧ f.length.toNat ≤ 1024 ∧ f.length.toNat = f.payload.length := by
  simp [frameGood, and_assoc]

/-- The check field is not among the bytes the check is computed over. -/
theorem buildFrame_check (dest src kind : Byte) (payload : List Byte) :
    crc16 (checkedBytes (buildFrame dest src kind payload)) = (buildFrame dest src kind payload).check := rfl

theorem buildFrame_length {payload : List Byte} (h : payload.length ≤ 1024) (dest src kind : Byte) :
    (buildFrame dest src kind payload).length.toNat = payload.length :=
  Nat.mod_eq_of_lt (by omega)

theorem buildFrame_good {payload : List Byte} (h : payload.length ≤ 1024) (dest src kind : Byte) :
    frameGood (buildFrame dest src kind payload) = true :=
  have hlength := buildFrame_length h dest src kind
  frameGood_iff.mpr ⟨buildFrame_check dest src kind payload, hlength.trans_le h, hlength⟩

/-! ### The forward queue (R179, R181) -/

/-- A frame has joined the tail of the forward queue. -/
def joined (s : State) (f : Frame) : State := { s with riu := { s.riu with fwd := s.riu.fwd ++ [f] } }

/-- A frame has been dropped and counted, and the occurrence of it is still to be made. -/
def dropped (s : State) : State := { s with riu := { s.riu with overrun := min 65535 (s.riu.overrun + 1) } }

section Forward

variable {s : State} {f : Frame}

theorem forward_of_room (h : s.riu.fwd.length < 8) : s.forward f = joined s f := if_pos h

theorem forward_of_full (h : 8 ≤ s.riu.fwd.length) : s.forward f = (dropped s).occur fRingOverrun 0 [1] :=
  if_neg h.not_gt

theorem forward_onlyEvents (h : 8 ≤ s.riu.fwd.length) : OnlyEvents (dropped s) (s.forward f) := by
  rw [forward_of_full h]
  exact onlyEvents_of_mask ((dropped s).occur_maskE fRingOverrun 0 [1])

/-- In BYPASS nothing occurs (R181). -/
theorem occur_of_bypass (h : s.mgu.part = .bypass) (g : Factor) (m : BitVec 9) (d : List Byte) : s.occur g m d = s :=
  if_pos (beq_iff_eq.mpr h)

theorem forward_of_full_bypass (hpart : s.mgu.part = .bypass) (h : 8 ≤ s.riu.fwd.length) : s.forward f = dropped s :=
  (forward_of_full h).trans (occur_of_bypass (s := dropped s) hpart _ _ _)

end Forward

/-! ### The table of R177 -/

section Classify

variable {s : State} {f : Frame}

theorem actOn_own (hsrc : f.src = s.ownByte) : s.actOn f = s := by
  have hline : s.classify f = .strip := by simp [State.classify, hsrc]
  simp [State.actOn, hline]

theorem actOn_discarded (hsrc : f.src ≠ s.ownByte) (hdest : f.dest = s.ownByte) (hkind : f.kind ≠ kindRequest) :
    s.actOn f = s := by
  have hline : s.classify f = .discard := by simp [State.classify, hsrc, hdest, hkind]
  simp [State.actOn, hline]

theorem actOn_sample (hsrc : f.src ≠ s.ownByte) (hdest : f.dest ≠ s.ownByte) (hall : f.dest = broadcast)
    (hkind : f.kind = kindSample) : s.actOn f = (s.meuSample f.src f.payload).forward f := by
  have hline : s.classify f = .toMeu := by simp [State.classify, hsrc, hdest, hkind, ← hall]
  simp [State.actOn, hline]

theorem actOn_baystat (hsrc : f.src ≠ s.ownByte) (hdest : f.dest ≠ s.ownByte) (hall : f.dest = broadcast)
    (hkind : f.kind = kindBaystat) : s.actOn f = (s.bcuBaystat f.src f.payload).forward f := by
  have hkinds : kindBaystat ≠ kindSample := by decide
  have hline : s.classify f = .toBcu := by simp [State.classify, hsrc, hdest, hkind, hkinds, ← hall]
  simp [State.actOn, hline]

theorem actOn_passed (hsrc : f.src ≠ s.ownByte) (hdest : f.dest ≠ s.ownByte)
    (hsample : ¬ (f.kind = kindSample ∧ f.dest = broadcast)) (hbaystat : ¬ (f.kind = kindBaystat ∧ f.dest = broadcast)) :
    s.actOn f = s.forward f := by
  have hline : s.classify f = .pass := by simp [State.classify, hsrc, hdest, hsample, hbaystat]
  simp [State.actOn, hline]

end Classify

/-! ### The arrival (R176, R181) -/

section Receive

variable {s : State} {f : Frame}

theorem receive_of_bypass (hpart : s.mgu.part = .bypass) : s.receive f = s.refreshIn.forward f :=
  if_pos (beq_iff_eq.mpr hpart)

theorem receive_of_good (hpart : s.mgu.part ≠ .bypass) (hgood : frameGood f = true) :
    s.receive f = s.refreshIn.actOn f :=
  (if_neg (mt beq_iff_eq.mp hpart)).trans (if_pos hgood)

theorem receive_of_bad (hpart : s.mgu.part ≠ .bypass) (hbad : ¬ frameGood f = true) :
    s.receive f = s.refreshIn.checkFailure :=
  (if_neg (mt beq_iff_eq.mp hpart)).trans (if_neg hbad)

theorem exec_ringFrameReceive {t : State} (hfree : s.pins.resetHeld = false) (h : s.receive f = t) :
    exec (.ringFrameReceive f) s = .next t :=
  h ▸ State.live_of_free hfree (s.receive f)

theorem exec_ringFrameReceive_of_good {t : State} (hfree : s.pins.resetHeld = false) (hpart : s.mgu.part ≠ .bypass)
    (hgood : frameGood f = true) (h : s.refreshIn.actOn f = t) : exec (.ringFrameReceive f) s = .next t :=
  exec_ringFrameReceive hfree ((receive_of_good hpart hgood).trans h)

end Receive

/-! ### A SAMPLE frame at the MEU (R3, R4) -/

section Sample

variable {s : State} {src : Byte} {payload : List Byte}

theorem ownByte_ne_broadcast (h : s.riu.own ≠ 63) : broadcast ≠ s.ownByte := by
  unfold State.ownByte broadcast
  bv_omega

theorem exec_sampleFrame_broadcast (hfree : s.pins.resetHeld = false) (hpart : s.mgu.part ≠ .bypass)
    (hsrc : src ≠ s.ownByte) (hown : s.riu.own ≠ 63) (hlength : payload.length ≤ 1024) :
    exec (.sampleFrame broadcast src payload) s =
      .next ((s.refreshIn.meuSample src payload).forward (buildFrame broadcast src kindSample payload)) := by
  have hgood := receive_of_good hpart (buildFrame_good hlength broadcast src kindSample)
  have hact := actOn_sample (s := s.refreshIn) (f := buildFrame broadcast src kindSample payload) hsrc
    (ownByte_ne_broadcast hown) rfl rfl
  exact (State.live_of_free hfree _).trans (congrArg _ (hgood.trans hact))

theorem parseSample_of_length_ne (h : payload.length ≠ 11) : parseSample payload = none := by
  unfold parseSample
  split
  · exact absurd rfl h
  · rfl

theorem parseSample_eq {cycle number : Byte} {p : Pos} (hnumber : number.toNat < 32)
    (hp : p.val = cycle.toNat * 32 + number.toNat) (quality a1 a0 b1 b0 c1 c0 n1 n0 : Byte) :
    parseSample [cycle, number, quality, a1, a0, b1, b0, c1, c0, n1, n0] =
      some (p, quality == 1, { a := int16 a1 a0, b := int16 b1 b0, c := int16 c1 c0, n := int16 n1 n0 }) := by
  simp [parseSample, hnumber, ← hp]

theorem meuSample_of_length_ne (h : payload.length ≠ 11) : s.meuSample src payload = s := by
  unfold State.meuSample
  rw [parseSample_of_length_ne h]
  split
  · contradiction
  · rfl

theorem allSources_eq_finRange : allSources = List.finRange 12 := by decide

/-- The source found is the first entry in use that fits. -/
theorem findSource_eq_some {q : SourceEntry → Bool} {e : SrcIx} (huse : (s.src e).inUse = true) (hq : q (s.src e) = true)
    (hfirst : ∀ f, f < e → (s.src f).inUse = true → q (s.src f) = false) : s.findSource q = some e := by
  unfold State.findSource
  rw [allSources_eq_finRange, List.find?_eq_some_iff_getElem]
  refine ⟨by simp [huse, hq], e.val, by simp, by simp, fun j hj => ?_⟩
  rw [Bool.not_eq_true', Bool.and_eq_false_imp]
  simpa using hfirst ⟨j, hj.trans e.isLt⟩ hj

theorem giveSample_of_absent {e : SrcIx} (h : (s.ctx e).state = .absent) (p : Pos) (good : Bool) (q : Quad) :
    s.giveSample e p good q = s.firstFrame e p good q := by
  unfold State.giveSample
  simp [h]

theorem meuSample_of_absent {e : SrcIx} {p : Pos} {good : Bool} {q : Quad}
    (hfind : s.findSource (fun x => x.addr == some src.toNat) = some e)
    (hparse : parseSample payload = some (p, good, q)) (habsent : (s.ctx e).state = .absent) :
    s.meuSample src payload = s.firstFrame e p good q := by
  unfold State.meuSample
  rw [hfind, hparse]
  exact giveSample_of_absent habsent p good q

end Sample

/-- Settles O38, by BYPASS, the check and the lines of R177, by the room in the forward queue, and by whether the first SAMPLE
for an ABSENT source is GOOD. -/
theorem frameArrives : Obligations.FrameArrives := by
  refine ⟨fun dest src kind payload hlength => ⟨rfl, rfl, rfl, rfl, buildFrame_length hlength dest src kind,
      buildFrame_check dest src kind payload⟩,
    fun s f hfree => ⟨fun hpart hroom => exec_ringFrameReceive hfree ?bypassJoins,
      fun hpart hfull => exec_ringFrameReceive hfree ?bypassDrops,
      fun hpart => ⟨fun hbad => exec_ringFrameReceive hfree ?bad,
        fun hgood hsrc => exec_ringFrameReceive_of_good hfree hpart (frameGood_iff.mpr hgood) ?own,
        fun hgood hsrc hdest hkind => exec_ringFrameReceive_of_good hfree hpart (frameGood_iff.mpr hgood) ?discarded,
        fun hgood hsrc hdest hsample hbaystat => ?passed,
        fun hgood hsrc hdest hall => ⟨
          fun hkind => exec_ringFrameReceive_of_good hfree hpart (frameGood_iff.mpr hgood) ?sample,
          fun hkind => exec_ringFrameReceive_of_good hfree hpart (frameGood_iff.mpr hgood) ?baystat⟩⟩⟩,
    fun s f => ⟨fun hroom => forward_of_room hroom, fun hfull => ⟨forward_of_full hfull, forward_onlyEvents hfull⟩⟩,
    fun s src payload hfree hpart hsrc hown hlength => ?atMeu⟩
  case bypassJoins => exact (receive_of_bypass hpart).trans (forward_of_room hroom)
  case bypassDrops => exact (receive_of_bypass hpart).trans (forward_of_full_bypass hpart hfull)
  case bad => exact receive_of_bad hpart (mt frameGood_iff.mp hbad)
  case own => exact actOn_own hsrc
  case discarded => exact actOn_discarded hsrc hdest hkind
  case passed =>
    have hpass : exec (.ringFrameReceive f) s = .next (s.refreshIn.forward f) :=
      exec_ringFrameReceive_of_good hfree hpart (frameGood_iff.mpr hgood) (actOn_passed hsrc hdest hsample hbaystat)
    exact ⟨fun hroom => hpass.trans (congrArg _ (forward_of_room hroom)),
      fun hfull => ⟨_, hpass, forward_onlyEvents (s := s.refreshIn) hfull⟩⟩
  case sample => exact actOn_sample hsrc hdest hall hkind
  case baystat => exact actOn_baystat hsrc hdest hall hkind
  case atMeu =>
    have htaken := exec_sampleFrame_broadcast hfree hpart hsrc hown hlength
    refine ⟨htaken, fun hne => ?ignored, fun e p cycle number quality a1 a0 b1 b0 c1 c0 n1 n0 hpayload hnumber hp huse haddr
      hfirst habsent => ?first⟩
    case ignored => rwa [meuSample_of_length_ne hne] at htaken
    case first =>
      have hfind : s.refreshIn.findSource (fun x => x.addr == some src.toNat) = some e :=
        findSource_eq_some huse (beq_iff_eq.mpr haddr) fun f hf hfuse => beq_false_of_ne (hfirst f hf hfuse)
      have hparse := hpayload ▸ parseSample_eq hnumber hp quality a1 a0 b1 b0 c1 c0 n1 n0
      rw [meuSample_of_absent hfind hparse habsent] at htaken
      constructor
      · rintro rfl
        exact htaken
      · intro hquality
        rwa [beq_false_of_ne hquality] at htaken

end Sys2Proof.Proofs.FrameArrival
/-! What the composite operations of a command keep: the start and the end of an op, the derivation of the FIRE reasons, the warm
restart of the fire regime and the changes of the part state, each over a closed property that does not see the block sets. -/

namespace Sys2Proof.Proofs.ClosedCommands

open Sys2Proof.Machine Sys2Proof.Safety

/-! ### Requests and replies (R187) -/

theorem startRequest_cases (s : State) : s.startRequest = s ∨ ∃ r rest, s.mgu.queue = r :: rest ∧ s.mgu.cur = none ∧
    s.riu.replies.length < Config.replySlots ∧
    s.startRequest = { s with mgu := { s.mgu with queue := rest, cur := some r.start } } := by
  unfold State.startRequest
  split
  · next hstart =>
    simp only [State.canStart, Bool.and_eq_true, decide_eq_true_eq, Option.isNone_iff_eq_none] at hstart
    obtain ⟨⟨hcur, hroom⟩, -⟩ := hstart
    split
    · next r rest hqueue => exact .inr ⟨r, rest, hqueue, hcur, hroom, rfl⟩
    · exact .inl rfl
  · exact .inl rfl

theorem goOn_cases (s : State) (p : Progress) :
    (p.ops = [] ∧ s.goOn p = s.placeReply p) ∨ (p.ops ≠ [] ∧ s.goOn p = s.setCur (some p)) := by
  unfold State.goOn
  cases h : p.ops <;> simp

theorem opDone_cases (s : State) (a : Answer) :
    s.opDone a = s ∨ ∃ p, s.mgu.cur = some p ∧ s.opDone a = s.goOn (p.answered a) := by
  unfold State.opDone
  split
  · next p hcur => exact .inr ⟨p, hcur, rfl⟩
  · exact .inl rfl

section blind
variable {P : State → Prop} {s : State}

/-- A property that sees neither the request in progress nor the replies is kept by the placing of a reply. -/
theorem placeReply_blind (hcur : ∀ (s : State) p, P s → P (s.setCur p))
    (hreplies : ∀ (s : State) l, P s → P { s with riu := { s.riu with replies := l } }) {p : Progress} (hs : P s) :
    P (s.placeReply p) := hreplies _ _ (hcur s none hs)

theorem opDone_blind (hcur : ∀ (s : State) p, P s → P (s.setCur p))
    (hreplies : ∀ (s : State) l, P s → P { s with riu := { s.riu with replies := l } }) {a : Answer} (hs : P s) :
    P (s.opDone a) := by
  rcases opDone_cases s a with h | ⟨p, -, h⟩
  · rwa [h]
  · rw [h]
    rcases goOn_cases s (p.answered a) with ⟨-, h⟩ | ⟨-, h⟩
    · rw [h]
      exact placeReply_blind hcur hreplies hs
    · rw [h]
      exact hcur s _ hs

theorem startRequest_blind
    (hmgu : ∀ (s : State) q p, P s → P { s with mgu := { s.mgu with queue := q, cur := p } }) (hs : P s) :
    P s.startRequest := by
  rcases startRequest_cases s with h | ⟨r, rest, -, -, -, h⟩
  · rwa [h]
  · rw [h]
    exact hmgu s _ _ hs

/-! ### The part state and the warm restart of the fire regime (R110, R193 to R195) -/

/-- The entry to ACTIVE up to the stack step, over a property that does not see the block sets. -/
theorem enter_blind (hP : ClosedS P) (hreason : ∀ (s : State) b r v, P s → P (s.putReason b r v))
    (hs : P (s.setPart .active)) : P (forEach allBays (fun b u => if (u.cap (bayRec b)).inService then u.startIdle b else u)
      (s.setPart .active)).deriveFire.1 :=
  hP.deriveFire (fun _ _ _ h => hreason _ _ _ _ h)
    (forEach_inv P _ (fun _ _ h => ite_both (hP.startIdle h) h) _ _ hs)

/-- The return to UNCONFIGURED up to the FIRE entry, over a property that does not see the block sets. -/
theorem leave_blind (hP : ClosedS P) (hreason : ∀ (s : State) b r v, P s → P (s.putReason b r v))
    (hs : P (s.setPart .unconfigured)) : P (forEach allBays (fun b u => u.decommissionBay b) (s.setPart .unconfigured)) :=
  forEach_inv P _ (fun _ _ h => hP.decommissionBay hreason h) _ _ hs

/-- The fire regime at a warm restart: the levels and the stack, and then the FIRE reasons. -/
theorem fruRestart_blind (hP : ClosedS P) (hreason : ∀ (s : State) b v, P s → P (s.putReason b .fire v))
    (hlevels : ∀ (s : State) p e, P s → P { s with fru := { s.fru with pinLevel := p, effective := e } })
    (hunstack : ∀ s : State, P s → P (s.setStack (removeEntry .hunt s.fru.stack)))
    (hfire : ∀ s : State, P s → P (s.setStack s.fireStep.1)) (hs : P s) : P s.fruRestart := by
  have h1 := hunstack _ (hlevels s (pinLevelOf s.pins.tfb) (max s.fru.commanded (pinLevelOf s.pins.tfb)) hs)
  exact hP.deriveFire hreason (ite_both (hfire _ h1) h1)

end blind

end Sys2Proof.Proofs.ClosedCommands
/-! The shape of the setting-group stack through every step (R94, R96, R106). -/

namespace Sys2Proof.Proofs.StackInvariant

open Sys2Proof.Machine Sys2Proof.Safety Sys2Proof.Proofs.ClosedCommands

/-- The updates of the measurement, the protection, the slots and the hunt touch the stack in the HUNT entry alone. -/
theorem stackOk_closedM : ClosedM StackOk := by
  refine' {
    blind := fun s t h hs => by unfold StackOk; rw [State.maskE_fru h]; exact hs
    unstack := fun s hs => removeEntry_shape .hunt (by decide) hs
    stack := fun s g hs => placeEntry_shape _ hs
    .. }
  all_goals intros; assumption

theorem stackOk_deriveFire {s : State} (hs : StackOk s) : StackOk s.deriveFire.1 :=
  stackOk_closedM.toClosedS.deriveFire (fun _ _ _ h => h) hs

/-- Every other update that a command can make keeps the shape, each by the law of its operation on the stack. -/
theorem stackOk_closedExec (c : Instr) : ClosedExec c StackOk := by
  refine' {
    toClosedM := stackOk_closedM
    standdown := fun _ _ _ hs => hs
    cold := fun _ _ _ _ => (by decide : [Origin.base] ∈ stackShapes false)
    level := fun s _ hs => stackOk_deriveFire (s := { s with fru := { s.fru with effective := _ } }) hs
    fireStack := fun s hs => fireStep_shape hs
    base := fun s g hs => replaceGroup_shape .base g hs
    manual := fun s g hs => placeEntry_shape _ hs
    popManual := fun s hs => removeEntry_shape .manual (by decide) hs
    lockSeason := fun s _ hs => lockOrder_shape hs
    unlockSeason := fun s _ _ hs => unlock_shape hs
    fireMask := fun s x _ _ _ hs => stackOk_deriveFire (s := s.setFire s.fru.effective x) hs
    start := fun s hs => startRequest_blind (fun _ _ _ h => h) hs
    done := fun s a hs => opDone_blind (fun _ _ h => h) (fun _ _ h => h) hs
    restartReply := fun s p _ _ hs => hs
    warm := fun s _ hs => fruRestart_blind (s := s.blocksWarm) stackOk_closedM.toClosedS (fun _ _ _ h => h)
      (fun _ _ _ h => h) (fun _ h => removeEntry_shape .hunt (by decide) h) (fun _ h => fireStep_shape h) hs
    enter := fun s _ _ hs => enter_blind (s := s) stackOk_closedM.toClosedS (fun _ _ _ _ h => h) hs
    leave := fun s _ _ _ hs => leave_blind (s := s) stackOk_closedM.toClosedS (fun _ _ _ _ h => h) hs
    unfire := fun s hs => removeEntry_shape .fire (by decide) hs
    derive := fun s hs => stackOk_deriveFire hs
    .. }
  all_goals intros; assumption

/-- Settles O51: the operations on the stack keep its shape, and nothing else touches the stack or the season lock. -/
theorem stackShapeKept : Obligations.StackShapeKept := by
  intro s t hs hstep
  exact step_closed (fun _ _ h => h) (fun _ h => h) (fun c _ _ => stackOk_closedExec c) hstep hs

end Sys2Proof.Proofs.StackInvariant
/-! The bookkeeping of the command slots through every step (R50, R52, R53). -/

namespace Sys2Proof.Proofs.SlotInvariant

open Sys2Proof.Machine Sys2Proof.Safety Sys2Proof.Proofs.ClosedCommands

/-! ### One slot -/

theorem slotOk_cold : SlotOk Slot.cold where
  noTripWaits := rfl
  tag := nofun
  trip := nofun
  lastTag := Nat.zero_le _

theorem pend_trip_set {p : Pending} {c : ReqClass} {v : Option Command} (hp : p.trip = none) (h : c ≠ .trip ∨ v = none) :
    (p.set c v).trip = none := by
  cases c with
  | trip => exact h.resolve_left (not_not.mpr rfl)
  | hunt | reclose | management | annunciate => exact hp

/-- A flight changed in what the bookkeeping does not read, or an OPEN that takes the trip along. -/
theorem slotOk_reflight {x : Slot} (hx : SlotOk x) {f g : Flight} {st : SlotState} (hf : x.state.flight = some f)
    (hst : st.flight = some g) (htag : g.tag = f.tag) (htrip : g.tripAttached = true → g.cmd = .opening) :
    SlotOk { x with state := st } where
  noTripWaits := hx.noTripWaits
  tag := fun k hk => by
    obtain rfl : g = k := Option.some.inj (hst.symm.trans hk)
    rw [htag]
    exact hx.tag f hf
  trip := fun k hk => by
    obtain rfl : g = k := Option.some.inj (hst.symm.trans hk)
    exact htrip
  lastTag := hx.lastTag

theorem slotOk_move {x y : Slot} (hx : SlotOk x) (h : SlotMove x y) : SlotOk y := by
  cases h with
  | pend c v h => exact ⟨pend_trip_set hx.noTripWaits h, hx.tag, hx.trip, hx.lastTag⟩
  | result r => exact ⟨hx.noTripWaits, hx.tag, hx.trip, hx.lastTag⟩
  | free => exact ⟨hx.noTripWaits, nofun, nofun, hx.lastTag⟩
  | echoed f h =>
    have hf : x.state.flight = some f := by rw [h]; rfl
    exact slotOk_reflight hx hf rfl rfl (hx.trip f hf)
  | attach f h o => exact slotOk_reflight (f := f) hx (by rw [h]; rfl) rfl rfl fun _ => o
  | attachEchoed f h o => exact slotOk_reflight (f := f) hx (by rw [h]; rfl) rfl rfl fun _ => o

theorem nextTag_bounds {n : Nat} (h : n ≤ 255) : 1 ≤ nextTag n ∧ nextTag n ≤ 255 := by
  unfold nextTag
  split <;> omega

/-- The slot after an issue: only a TRIP request carries a trip, and it is an OPEN. -/
theorem slotOk_issued {x : Slot} (hx : SlotOk x) {c : ReqClass} {cmd : Command} (t : Word32) (k : Nat)
    (hasked : x.pend.get c = some cmd ∨ (c = .trip ∧ cmd = .opening)) : SlotOk (x.issued c cmd t k) where
  noTripWaits := pend_trip_set hx.noTripWaits (.inr rfl)
  tag := fun f hf => by
    obtain rfl := Option.some.inj hf
    exact ⟨rfl, nextTag_bounds hx.lastTag⟩
  trip := fun f hf htrip => by
    obtain rfl := Option.some.inj hf
    obtain rfl : c = .trip := by simpa using htrip
    rcases hasked with hwaits | ⟨-, hopen⟩
    · exact absurd (hx.noTripWaits.symm.trans hwaits) nofun
    · exact hopen
  lastTag := (nextTag_bounds hx.lastTag).2

theorem slotOk_warm {x : Slot} (hx : SlotOk x) : SlotOk x.warm :=
  ⟨rfl, nofun, nofun, hx.lastTag⟩

theorem slotOk_tick {x : Slot} (hx : SlotOk x) : SlotOk x.tick := by
  cases h : x.state with
  | free => exact ⟨hx.noTripWaits, fun f hf => by simp [Slot.tick, h, SlotState.tick, SlotState.flight] at hf,
      fun f hf => by simp [Slot.tick, h, SlotState.tick, SlotState.flight] at hf, hx.lastTag⟩
  | inFlight f | echoed f =>
    have hf : x.state.flight = some f := by rw [h]; rfl
    exact slotOk_reflight (g := f.tick) hx hf (by rw [h]; rfl) rfl (hx.trip f hf)

/-! ### Every slot -/

theorem slotsOk_setSlot {s : State} {n : Rec} {x : Slot} (hx : SlotOk x) (hs : SlotsOk s) : SlotsOk (s.setSlot n x) := by
  intro m
  have hslot : (s.setSlot n x).slot m = if n = m then x else s.slot m := Vector.look_put _ _ _ _
  rw [hslot]
  split
  · exact hx
  · exact hs m

theorem slotsOk_each {s t : State} {f : Slot → Slot} (ht : t.bcu.slots = s.bcu.slots.each f)
    (hf : ∀ x, SlotOk x → SlotOk (f x)) (hs : SlotsOk s) : SlotsOk t := by
  intro n
  have hslot : t.slot n = f (s.slot n) := by
    unfold State.slot
    rw [ht, Vector.look_each]
  rw [hslot]
  exact hf _ (hs n)

theorem slotsOk_closedM : ClosedM SlotsOk := by
  refine' {
    blind := fun s t h hs n => by unfold State.slot; rw [State.maskE_bcu h]; exact hs n
    slot := fun s n x h hs => slotsOk_setSlot (slotOk_move (hs n) h) hs
    issue := fun s n c cmd k h hs => slotsOk_setSlot (slotOk_issued (hs n) _ _ h.asked) hs
    .. }
  all_goals intros; assumption

theorem slotsOk_deriveFire {s : State} (hs : SlotsOk s) : SlotsOk s.deriveFire.1 :=
  slotsOk_closedM.toClosedS.deriveFire (fun _ _ _ h => h) hs

/-- No command moves a slot but by the moves of the shared operations and the two resets. -/
theorem slotsOk_closedExec (c : Instr) : ClosedExec c SlotsOk := by
  refine' {
    toClosedM := slotsOk_closedM
    standdown := fun _ _ _ hs => hs
    cold := fun s straps _ _ n => by
      have hslot : (s.coldReset straps).slot n = Slot.cold := Vector.look_replicate _ _
      rw [hslot]
      exact slotOk_cold
    level := fun s _ hs => slotsOk_deriveFire (s := { s with fru := { s.fru with effective := _ } }) hs
    fireMask := fun s x _ _ _ hs => slotsOk_deriveFire (s := s.setFire s.fru.effective x) hs
    start := fun s hs => startRequest_blind (fun _ _ _ h => h) hs
    done := fun s a hs => opDone_blind (fun _ _ h => h) (fun _ _ h => h) hs
    restartReply := fun s p _ _ hs => hs
    warm := fun s _ hs => fruRestart_blind (s := s.blocksWarm) slotsOk_closedM.toClosedS (fun _ _ _ h => h)
      (fun _ _ _ h => h) (fun _ h => h) (fun _ h => h) (slotsOk_each rfl (fun _ => slotOk_warm) hs)
    enter := fun s _ _ hs => enter_blind (s := s) slotsOk_closedM.toClosedS (fun _ _ _ _ h => h) hs
    leave := fun s _ _ _ hs => leave_blind (s := s) slotsOk_closedM.toClosedS (fun _ _ _ _ h => h) hs
    derive := fun s hs => slotsOk_deriveFire hs
    .. }
  all_goals intros; assumption

/-- Settles O59: every move of a slot keeps its bookkeeping, and so does a millisecond. -/
theorem slotsKept : Obligations.SlotsKept := by
  intro s t hs hstep
  exact step_closed (fun _ _ h => h) (fun _ h => slotsOk_each rfl (fun _ => slotOk_tick) h)
    (fun c _ _ => slotsOk_closedExec c) hstep hs

end Sys2Proof.Proofs.SlotInvariant
/-! The FIRE reasons through every step (R101). -/

namespace Sys2Proof.Proofs.FireInvariant

open Sys2Proof.Machine Sys2Proof.Safety Sys2Proof.Proofs.ClosedCommands

/-! ### What the FIRE reasons depend on -/

theorem fireOk_iff {s : State} : FireOk s ↔ ∀ b, (s.rcl b).block.fire = s.shouldBurn b := Iff.rfl

theorem fireOk_of_same {s t : State} (hs : FireOk s) (hfire : ∀ b, (t.rcl b).block.fire = (s.rcl b).block.fire)
    (hburn : ∀ b, t.shouldBurn b = s.shouldBurn b) : FireOk t := fun b =>
  (hfire b).trans ((hs b).trans (hburn b).symm)

theorem fireOk_deriveFire (s : State) : FireOk s.deriveFire.1 := fun b =>
  (s.deriveFire_fire b).trans (s.shouldBurn_of_maskR s.deriveFire_maskR b).symm

/-- Where the part protects nothing, no bay carries FIRE. -/
theorem fireOk_idle_iff {s : State} (h : s.protecting = false) : FireOk s ↔ ∀ b, (s.rcl b).block.fire = false := by
  have hburn : ∀ b, s.shouldBurn b = false := fun b => by
    simp only [State.shouldBurn, State.runs, h, Bool.false_and]
  exact forall_congr' fun b => by
    rw [← hburn b]
    exact Iff.rfl

/-- Where the part protects nothing before and after, the FIRE reasons alone count. -/
theorem fireOk_of_idle {s t : State} (hs : FireOk s) (hfire : ∀ b, (t.rcl b).block.fire = (s.rcl b).block.fire)
    (hidle : s.protecting = false) (hidle' : t.protecting = false) : FireOk t :=
  (fireOk_idle_iff hidle').mpr fun b => (hfire b).trans ((fireOk_idle_iff hidle).mp hs b)

theorem rcl_setRcl (s : State) (b c : Bay) (x : RecloseRecord) :
    (s.setRcl b x).rcl c = if b = c then x else s.rcl c := Vector.look_put _ _ _ _

theorem fireOk_setRcl {s : State} {b : Bay} {x : RecloseRecord} (hx : x.block.fire = (s.rcl b).block.fire) (hs : FireOk s) :
    FireOk (s.setRcl b x) := by
  refine fireOk_of_same hs (fun c => ?_) (fun _ => rfl)
  rw [rcl_setRcl]
  split
  · next h => rw [hx, h]
  · rfl

theorem fireOk_putReason {s : State} {b : Bay} {r : BlockReason} (hr : r ≠ .fire) (v : Bool) (hs : FireOk s) :
    FireOk (s.putReason b r v) :=
  fireOk_setRcl (((s.rcl b).block.has_set r .fire v).trans (if_neg hr.symm)) hs

/-! ### Every command -/

theorem fireOk_closedM : ClosedM FireOk := by
  refine' {
    blind := fun s t h hs => by
      refine fireOk_of_same hs (fun b => ?_) fun b =>
        State.shouldBurn_of_maskR (State.maskR_of_maskS (State.maskS_of_maskE h)) b
      unfold State.rcl
      rw [State.maskE_rcc h]
    rcl := fun s b x m hs => fireOk_setRcl (by rw [m.block]) hs
    hunt := fun s b v hs => fireOk_putReason (by decide) v hs
    local_ := fun s b v hs => fireOk_putReason (by decide) v hs
    interlock := fun s b v hs => fireOk_putReason (by decide) v hs
    .. }
  all_goals intros; assumption

/-- No bay carries FIRE in a part that leaves ACTIVE by a DECOMMISSION: each bay's FIRE is taken out (R87, R194). -/
theorem decommissionBay_fire (s : State) (b c : Bay) :
    ((s.decommissionBay b).rcl c).block.fire = if c = b then false else (s.rcl c).block.fire := by
  unfold State.decommissionBay
  dsimp only
  generalize hu : (if (s.rcl b).state.isLockout = true then
    ((s.setPend (bayRec b) .reclose none).startIdle b).lamp (bayRec b) .off
    else (s.setPend (bayRec b) .reclose none).startIdle b) = u
  have hsame : (u.rcl c).block = (s.rcl c).block := by
    rw [← hu]
    refine State.maskS_block (s := s) ?_ c
    have hidle := (closedS_mask s).startIdle (b := b)
      ((closedS_mask s).setPend (n := bayRec b) (c := .reclose) (v := none) (.inr rfl) rfl)
    exact ite_both (P := fun t => t.maskS = s.maskS) ((closedS_mask s).lamp hidle) hidle
  have hput : ∀ (t : State) (r : BlockReason), r ≠ .fire → ((t.putReason b r false).rcl c).block.fire = (t.rcl c).block.fire := by
    intro t r hr
    rw [t.putReason_block]
    split
    · next h => exact h ▸ ((t.rcl b).block.has_set r .fire false).trans (if_neg hr.symm)
    · rfl
  rw [hput _ .manual (by decide), hput _ .hunt (by decide), u.putReason_block, ← hsame]
  split <;> rfl

theorem decommissionBay_part (s : State) (b : Bay) : (s.decommissionBay b).mgu.part = s.mgu.part :=
  ClosedS.decommissionBay (P := fun t => t.mgu.part = s.mgu.part)
    { blind := fun _ _ h hs => by rw [State.maskE_mgu h]; exact hs
      slot := fun _ _ _ _ hs => hs
      issue := fun _ _ _ _ _ _ hs => hs
      out := fun _ _ _ hs => hs
      rcl := fun _ _ _ _ hs => hs } (fun _ _ _ _ hs => hs) rfl

theorem decommission_fire (l : List Bay) (s : State) (c : Bay) :
    ((forEach l (fun b u => u.decommissionBay b) s).rcl c).block.fire = if c ∈ l then false else (s.rcl c).block.fire := by
  unfold forEach
  induction l generalizing s with
  | nil => rfl
  | cons b l ih =>
    rw [List.foldl_cons, ih, decommissionBay_fire]
    by_cases h : c = b <;> simp [h]

theorem fireOk_leave (s : State) : FireOk (forEach allBays (fun b u => u.decommissionBay b) (s.setPart .unconfigured)) := by
  have hpart : (forEach allBays (fun b u => u.decommissionBay b) (s.setPart .unconfigured)).mgu.part = .unconfigured :=
    forEach_keep (fun u => u.mgu.part) _ (fun b u => decommissionBay_part u b) _ _
  refine (fireOk_idle_iff ?_).mpr fun b => ?_
  · simp [State.protecting, hpart]
  · rw [decommission_fire, if_pos (mem_allBays b)]

/-- The FIRE reasons are derived anew where a table, a level or the part state they depend on changes, and nothing else
changes one of them. -/
theorem fireOk_closedExec (c : Instr) : ClosedExec c FireOk := by
  refine' {
    toClosedM := fireOk_closedM
    standdown := fun _ s hpart hs => fireOk_of_same hs (fun _ => rfl) (fun b => by
      simp [State.shouldBurn, State.runs, State.protecting, State.setPart, State.fireRecord, State.cap, hpart])
    cold := fun s straps _ _ => by
      refine (fireOk_idle_iff ?_).mpr fun b => ?_
      · unfold State.protecting State.coldReset State.cold Mgu.cold partOfStraps
        dsimp only
        split <;> rfl
      · have hrcl : (s.coldReset straps).rcl b = RecloseRecord.cold := Vector.look_replicate _ _
        rw [hrcl]
        rfl
    levelBypass := fun s hpart hs => by
      have h : s.protecting = false := by simp [State.protecting, hpart]
      exact fireOk_of_idle hs (fun _ => rfl) h h
    level := fun s _ _ => fireOk_deriveFire _
    start := fun s hs => by
      rcases startRequest_cases s with h | ⟨r, rest, -, -, -, h⟩
      · rwa [h]
      · rw [h]
        exact hs
    done := fun s a hs => opDone_blind (fun _ _ h => h) (fun _ _ h => h) hs
    restartReply := fun s p _ _ hs => hs
    warm := fun s _ _ => fireOk_deriveFire _
    capability := fun s n x _ hp hs => fireOk_of_idle hs (fun _ => rfl) hp hp
    capabilityReason := fun s b v _ hs => fireOk_putReason (by decide) v hs
    fireMap := fun s l x _ _ _ hmask hs => fireOk_of_same hs (fun _ => rfl) (fun b => by
      have hrecord : (s.setFire l x).fireRecord.mask = s.fireRecord.mask := by
        change ((s.fru.fireMap.put l x).look s.fru.effective).mask = _
        rw [Vector.look_put]
        split
        · next h => rw [hmask h, h]; rfl
        · rfl
      simp only [State.shouldBurn, hrecord]
      rfl)
    fireMask := fun s x _ _ _ _ => fireOk_deriveFire _
    manualReason := fun s b v hs => fireOk_putReason (by decide) v hs
    clearStanddown := fun s _ hpart hs => fireOk_of_same hs (fun _ => rfl) (fun b => by
      simp [State.shouldBurn, State.runs, State.protecting, State.setPart, State.fireRecord, State.cap, hpart])
    enter := fun s _ _ _ => fireOk_deriveFire _
    leave := fun s _ _ _ _ => fireOk_leave s
    derive := fun s _ => fireOk_deriveFire s
    .. }
  all_goals intros; assumption

theorem fireOk_tick {s : State} (hs : FireOk s) : FireOk s.tick :=
  fireOk_of_same hs (fun b => by
    have hrcl : s.tick.rcl b = (s.rcl b).tick := Vector.look_each _ _ _
    rw [hrcl]
    rfl) (fun _ => rfl)

/-- Settles O56: every change of what the FIRE reasons depend on is followed by their derivation. -/
theorem fireReasonsKept : Obligations.FireReasonsKept := by
  intro s t hs hstep
  exact step_closed (fun _ _ h => h) (fun _ h => fireOk_tick h) (fun c _ _ => fireOk_closedExec c) hstep hs

end Sys2Proof.Proofs.FireInvariant
/-! The bounds of accumulators, PHI counts, shot counts and shot caps through every step (R28, R31, R73, R93). -/

namespace Sys2Proof.Proofs.CountInvariant

open Sys2Proof.Machine Sys2Proof.Safety Sys2Proof.Proofs.ClosedCommands

/-! ### The elements -/

/-- The bounds of one bay's elements. -/
def ElemOk (x : Elements) : Prop := x.ptoc ≤ Config.fullScale ∧ x.etoc ≤ Config.fullScale ∧ x.phi ≤ 2

theorem elemOk_cold : ElemOk Elements.cold := ⟨Nat.zero_le _, Nat.zero_le _, Nat.zero_le _⟩

theorem elemOk_move {r x : Elements} (hr : ElemOk r) (m : ElemMove r x) : ElemOk x := by
  obtain ⟨hptoc, hetoc, hphi⟩ := hr
  exact ⟨m.ptoc.trans (max_le le_rfl hptoc), m.etoc.trans (max_le le_rfl hetoc), m.phi.trans (max_le le_rfl hphi)⟩

theorem elementsOk_setElem {s : State} {b : Bay} {x : Elements} (hs : ElementsOk s) (hx : ElemOk x) :
    ElementsOk (s.setElem b x) := by
  intro c
  have helem : (s.setElem b x).elem c = if b = c then x else s.elem c := Vector.look_put _ _ _ _
  rw [helem]
  split
  · exact hx
  · exact hs c

theorem elementsOk_of_cold {s : State} (h : s.pru.elem = Vector.replicate 8 Elements.cold) : ElementsOk s := by
  intro b
  have helem : s.elem b = Elements.cold := by
    unfold State.elem
    rw [h, Vector.look_replicate]
  rw [helem]
  exact elemOk_cold

theorem elementsOk_closedM : ClosedM ElementsOk := by
  refine' {
    blind := fun s t h hs b => by unfold State.elem; rw [State.maskE_pru h]; exact hs b
    latch := fun s b l hs => elementsOk_setElem hs (hs b)
    elem := fun s b x m hs => elementsOk_setElem hs (elemOk_move (hs b) m)
    .. }
  all_goals intros; assumption

theorem elementsOk_deriveFire {s : State} (hs : ElementsOk s) : ElementsOk s.deriveFire.1 :=
  elementsOk_closedM.toClosedS.deriveFire (fun _ _ _ h => h) hs

theorem elementsOk_closedExec (c : Instr) : ClosedExec c ElementsOk := by
  refine' {
    toClosedM := elementsOk_closedM
    standdown := fun _ _ _ hs => hs
    cold := fun s straps _ _ => elementsOk_of_cold rfl
    level := fun s _ hs => elementsOk_deriveFire (s := { s with fru := { s.fru with effective := _ } }) hs
    fireMask := fun s x _ _ _ hs => elementsOk_deriveFire (s := s.setFire s.fru.effective x) hs
    start := fun s hs => startRequest_blind (fun _ _ _ h => h) hs
    done := fun s a hs => opDone_blind (fun _ _ h => h) (fun _ _ h => h) hs
    restartReply := fun s p _ _ hs => hs
    warm := fun s _ _ => fruRestart_blind (s := s.blocksWarm) elementsOk_closedM.toClosedS (fun _ _ _ h => h)
      (fun _ _ _ h => h) (fun _ h => h) (fun _ h => h) (elementsOk_of_cold rfl)
    enter := fun s _ _ hs => enter_blind (s := s) elementsOk_closedM.toClosedS (fun _ _ _ _ h => h) hs
    leave := fun s _ _ _ hs => leave_blind (s := s) elementsOk_closedM.toClosedS (fun _ _ _ _ h => h) hs
    derive := fun s hs => elementsOk_deriveFire hs
    .. }
  all_goals intros; assumption

/-! ### The shots -/

theorem shotsOk_of_same {s t : State} (hs : ShotsOk s) (hshots : ∀ b, (t.rcl b).shots = (s.rcl b).shots)
    (hcaps : t.fru.fireMap = s.fru.fireMap) : ShotsOk t :=
  ⟨fun b => (hshots b).trans_le (hs.1 b), fun l => by rw [hcaps]; exact hs.2 l⟩

theorem shotsOk_setRcl {s : State} {b : Bay} {x : RecloseRecord} (hs : ShotsOk s) (hx : x.shots ≤ 4) :
    ShotsOk (s.setRcl b x) := by
  refine ⟨fun c => ?_, hs.2⟩
  have hrcl : (s.setRcl b x).rcl c = if b = c then x else s.rcl c := Vector.look_put _ _ _ _
  rw [hrcl]
  split
  · exact hx
  · exact hs.1 c

/-- The effective shots stay within the cap of the record in force (R24). -/
theorem effShots_le {s : State} (hs : ShotsOk s) (b : Bay) : s.effShots b ≤ 4 :=
  (Nat.min_le_right _ _).trans (hs.2 s.fru.effective)

theorem shotsOk_move {s : State} {b : Bay} {x : RecloseRecord} (hs : ShotsOk s)
    (m : RclMove (s.rcl b) (s.effShots b) x) : ShotsOk (s.setRcl b x) := by
  refine shotsOk_setRcl hs ?_
  rcases m.shots with h | h | h | h
  · exact h.trans_le (hs.1 b)
  · exact h.trans_le (Nat.min_le_left _ _)
  · exact h.trans_le (Nat.zero_le _)
  · exact h.trans_le (effShots_le hs b)

theorem shotsOk_putReason {s : State} {b : Bay} {r : BlockReason} {v : Bool} (hs : ShotsOk s) :
    ShotsOk (s.putReason b r v) := shotsOk_setRcl hs (hs.1 b)

theorem shotsOk_setFire {s : State} {l : Level} {x : FireRecord} (m : FireMove (s.fru.fireMap.look l) x) (hs : ShotsOk s) :
    ShotsOk (s.setFire l x) := by
  refine ⟨hs.1, fun k => ?_⟩
  have hlook : (s.setFire l x).fru.fireMap.look k = if l = k then x else s.fru.fireMap.look k := Vector.look_put _ _ _ _
  rw [hlook]
  split
  · exact m.elim (fun h => h.trans_le (hs.2 l)) id
  · exact hs.2 k

theorem shotsOk_each {s t : State} {f : RecloseRecord → RecloseRecord} (hs : ShotsOk s) (ht : t.rcc = s.rcc.each f)
    (hcaps : t.fru.fireMap = s.fru.fireMap) (hf : ∀ r, (f r).shots ≤ r.shots) : ShotsOk t := by
  refine ⟨fun b => ?_, fun l => by rw [hcaps]; exact hs.2 l⟩
  have hrcl : t.rcl b = f (s.rcl b) := by
    unfold State.rcl
    rw [ht, Vector.look_each]
  rw [hrcl]
  exact (hf _).trans (hs.1 b)

theorem shotsOk_coldReset (s : State) (straps : BitVec 6) : ShotsOk (s.coldReset straps) := by
  refine ⟨fun b => ?_, (by decide : ∀ l, (FireRecord.coldMap.look l).shotCap ≤ 4)⟩
  have hrcl : (s.coldReset straps).rcl b = RecloseRecord.cold := Vector.look_replicate _ _
  rw [hrcl]
  exact Nat.zero_le _

theorem shotsOk_closedM : ClosedM ShotsOk := by
  refine' {
    blind := fun s t h hs =>
      shotsOk_of_same hs (fun b => by unfold State.rcl; rw [State.maskE_rcc h]) (by rw [State.maskE_fru h])
    rcl := fun s b x m hs => shotsOk_move hs m
    hunt := fun s b v hs => shotsOk_putReason hs
    local_ := fun s b v hs => shotsOk_putReason hs
    interlock := fun s b v hs => shotsOk_putReason hs
    .. }
  all_goals intros; assumption

theorem shotsOk_deriveFire {s : State} (hs : ShotsOk s) : ShotsOk s.deriveFire.1 :=
  shotsOk_closedM.toClosedS.deriveFire (fun _ _ _ h => shotsOk_putReason h) hs

theorem shotsOk_closedExec (c : Instr) : ClosedExec c ShotsOk := by
  refine' {
    toClosedM := shotsOk_closedM
    standdown := fun _ _ _ hs => hs
    cold := fun s straps _ _ => shotsOk_coldReset s straps
    level := fun s _ hs => shotsOk_deriveFire (s := { s with fru := { s.fru with effective := _ } }) hs
    fireMap := fun s l x _ _ m _ hs => shotsOk_setFire m hs
    fireMask := fun s x _ _ m hs => shotsOk_deriveFire (shotsOk_setFire m hs)
    capabilityReason := fun s b v _ hs => shotsOk_putReason hs
    manualReason := fun s b v hs => shotsOk_putReason hs
    start := fun s hs => startRequest_blind (fun _ _ _ h => h) hs
    done := fun s a hs => opDone_blind (fun _ _ h => h) (fun _ _ h => h) hs
    restartReply := fun s p _ _ hs => hs
    warm := fun s _ hs => fruRestart_blind (s := s.blocksWarm) shotsOk_closedM.toClosedS (fun _ _ _ h => shotsOk_putReason h)
      (fun _ _ _ h => h) (fun _ h => h) (fun _ h => h) (shotsOk_each hs rfl rfl (fun _ => Nat.zero_le _))
    enter := fun s _ _ hs => enter_blind (s := s) shotsOk_closedM.toClosedS (fun _ _ _ _ h => shotsOk_putReason h) hs
    leave := fun s _ _ _ hs => leave_blind (s := s) shotsOk_closedM.toClosedS (fun _ _ _ _ h => shotsOk_putReason h) hs
    derive := fun s hs => shotsOk_deriveFire hs
    .. }
  all_goals intros; assumption

/-- Settles O57: every move of an element, a reclose record or a fire map record keeps its bounds. -/
theorem countsKept : Obligations.CountsKept := by
  intro s t hstep
  exact ⟨step_closed (fun _ _ h => h) (fun _ h => h) (fun c _ _ => elementsOk_closedExec c) hstep,
    step_closed (fun _ _ h => h) (fun _ h => shotsOk_each h rfl rfl (fun _ => le_rfl)) (fun c _ _ => shotsOk_closedExec c) hstep⟩

end Sys2Proof.Proofs.CountInvariant
/-! The sizes of the queues, windows and lists, and the account of every request, through every step (R149, R163, R178, R179, R184,
R187). -/

namespace Sys2Proof.Proofs.QueueInvariant

open Sys2Proof.Machine Sys2Proof.Safety Sys2Proof.Proofs.ClosedCommands

/-! ### The sizes -/

/-- The windows, history rings and waiting lists of a measurement unit are within their sizes. -/
def MeuBounded (m : Meu) : Prop :=
  (∀ e, (m.ctx.look e).window.length ≤ Config.windowLength) ∧ (∀ b, (m.history.look b).length ≤ Config.historyLength) ∧
    ∀ b, (m.waiting.look b).length ≤ Config.waitingLength

/-- The queues of a ring interface are within their sizes. -/
def RingBounded (r : Riu) : Prop :=
  r.fwd.length ≤ Config.forwardQueueSize ∧ r.capQueue.length ≤ Config.captureQueueSize

/-- The sizes of QueuesOk, block by block. -/
def QueuesBounded (s : State) : Prop :=
  MeuBounded s.meu ∧ RingBounded s.riu ∧ s.mgu.queue.length ≤ Config.requestQueueSize ∧
    s.riu.replies.length + s.mgu.cur.toList.length ≤ Config.replySlots ∧ s.recd.count ≤ Config.recordSlots

theorem queuesOk_iff {s : State} : QueuesOk s ↔ QueuesBounded s :=
  ⟨fun h => ⟨⟨h.windows, h.history, h.waiting⟩, ⟨h.forward, h.capture⟩, h.requests, h.replies, h.records⟩,
    fun ⟨⟨windows, history, waiting⟩, ⟨forward, capture⟩, requests, replies, records⟩ =>
      ⟨forward, requests, capture, replies, windows, history, waiting, records⟩⟩

theorem meuBounded_cold : MeuBounded Meu.cold := by
  refine ⟨fun e => ?_, fun b => ?_, fun b => ?_⟩ <;> simp [Meu.cold, SourceCtx.fresh]

/-- A table all of whose lists are within a size, with one of them replaced by one that grows past neither. -/
theorem bounded_put {α β : Type} {n k : Nat} {v : Vector α n} {len : α → List β} (i : Fin n) {x : α}
    (hv : ∀ j, (len (v.look j)).length ≤ k) (hx : (len x).length ≤ max k (len (v.look i)).length) (j : Fin n) :
    (len ((v.put i x).look j)).length ≤ k := by
  rw [Vector.look_put]
  split
  · exact hx.trans (max_le le_rfl (hv i))
  · exact hv j

theorem storeRecord_count (s : State) (r : FaultRecord) :
    (s.storeRecord r).recd.count = satInc Config.recordSlots s.recd.count := rfl

theorem queuesBounded_closedM : ClosedM QueuesBounded := by
  refine' {
    blind := fun s t h hs => by
      unfold QueuesBounded
      rw [State.maskE_meu h, State.maskE_riu h, State.maskE_mgu h, State.maskE_count h]
      exact hs
    record := fun s r ⟨meu, ring, requests, replies, _⟩ => ⟨meu, ring, requests, replies, Nat.min_le_left _ _⟩
    history := fun s b l hl ⟨⟨windows, history, waiting⟩, rest⟩ =>
      ⟨⟨windows, bounded_put (len := id) b history hl, waiting⟩, rest⟩
    waiting := fun s b l hl ⟨⟨windows, history, waiting⟩, rest⟩ =>
      ⟨⟨windows, history, bounded_put (len := id) b waiting hl⟩, rest⟩
    ctx := fun s e x hx ⟨⟨windows, history, waiting⟩, rest⟩ =>
      ⟨⟨bounded_put (len := SourceCtx.window) e windows hx, history, waiting⟩, rest⟩
    .. }
  all_goals intros; assumption

theorem queuesBounded_deriveFire {s : State} (hs : QueuesBounded s) : QueuesBounded s.deriveFire.1 :=
  queuesBounded_closedM.toClosedS.deriveFire (fun _ _ _ h => h) hs

/-- The reserved slot takes the reply of the request in progress (R187). -/
theorem queuesBounded_placeReply {s : State} {p q : Progress} (hcur : s.mgu.cur = some p) (hs : QueuesBounded s) :
    QueuesBounded (s.placeReply q) := by
  obtain ⟨meu, ring, requests, replies, records⟩ := hs
  refine ⟨meu, ring, requests, ?_, records⟩
  rw [hcur] at replies
  simpa [State.placeReply] using replies

theorem queuesBounded_opDone {s : State} (a : Answer) (hs : QueuesBounded s) : QueuesBounded (s.opDone a) := by
  rcases opDone_cases s a with h | ⟨p, hcur, h⟩
  · rwa [h]
  · rw [h]
    rcases goOn_cases s (p.answered a) with ⟨-, h⟩ | ⟨-, h⟩
    · rw [h]
      exact queuesBounded_placeReply hcur hs
    · rw [h]
      obtain ⟨meu, ring, requests, replies, records⟩ := hs
      rw [hcur] at replies
      exact ⟨meu, ring, requests, replies, records⟩

theorem queuesBounded_startRequest {s : State} (hs : QueuesBounded s) : QueuesBounded s.startRequest := by
  rcases startRequest_cases s with h | ⟨r, rest, hqueue, -, hroom, h⟩
  · rwa [h]
  · rw [h]
    obtain ⟨meu, ring, requests, -, records⟩ := hs
    rw [hqueue] at requests
    exact ⟨meu, ring, Nat.le_of_succ_le requests, hroom, records⟩

theorem queuesBounded_blocksWarm {s : State} (hs : QueuesBounded s) : QueuesBounded s.blocksWarm := by
  obtain ⟨-, ⟨forward, -⟩, requests, replies, records⟩ := hs
  exact ⟨meuBounded_cold, ⟨forward, Nat.zero_le _⟩, requests, (Nat.le_add_right _ _).trans replies, records⟩

theorem queuesBounded_tick {s : State} (hs : QueuesBounded s) : QueuesBounded s.tick := by
  obtain ⟨⟨windows, history, waiting⟩, rest⟩ := hs
  refine ⟨⟨fun e => ?_, history, waiting⟩, rest⟩
  have hctx : s.tick.meu.ctx.look e = (s.meu.ctx.look e).tick := Vector.look_each _ _ _
  rw [hctx]
  exact windows e

theorem queuesBounded_closedExec (c : Instr) : ClosedExec c QueuesBounded := by
  refine' {
    toClosedM := queuesBounded_closedM
    standdown := fun _ _ _ hs => hs
    cold := fun s straps _ _ => 
      ⟨meuBounded_cold, ⟨Nat.zero_le _, Nat.zero_le _⟩, Nat.zero_le _, Nat.zero_le _, Nat.zero_le _⟩
    level := fun s _ hs => queuesBounded_deriveFire (s := { s with fru := { s.fru with effective := _ } }) hs
    fireMask := fun s x _ _ _ hs => queuesBounded_deriveFire (s := s.setFire s.fru.effective x) hs
    riu := fun s r m ⟨meu, ⟨forward, capture⟩, requests, replies, records⟩ =>
      ⟨meu, ⟨m.fwd.trans (max_le le_rfl forward), m.capQueue.trans (max_le le_rfl capture)⟩, requests,
        (Nat.add_le_add_right m.replies _).trans replies, records⟩
    queue := fun s l m ⟨meu, ring, requests, rest⟩ => ⟨meu, ring, m.length.trans (max_le le_rfl requests), rest⟩
    cur := fun s p q hcur _ ⟨meu, ring, requests, replies, records⟩ =>
      ⟨meu, ring, requests, by rw [hcur] at replies; exact replies, records⟩
    start := fun s hs => queuesBounded_startRequest hs
    done := fun s a hs => queuesBounded_opDone a hs
    restartReply := fun s p hcur _ hs => queuesBounded_placeReply hcur hs
    warm := fun s _ hs => fruRestart_blind (s := s.blocksWarm) queuesBounded_closedM.toClosedS (fun _ _ _ h => h)
      (fun _ _ _ h => h) (fun _ h => h) (fun _ h => h) (queuesBounded_blocksWarm hs)
    enter := fun s _ _ hs => enter_blind (s := s) queuesBounded_closedM.toClosedS (fun _ _ _ _ h => h) hs
    leave := fun s _ _ _ hs => leave_blind (s := s) queuesBounded_closedM.toClosedS (fun _ _ _ _ h => h) hs
    derive := fun s hs => queuesBounded_deriveFire hs
    .. }
  all_goals intros; assumption

/-! ### The account of a request -/

/-- The account of a request in progress: each op has its entry or still waits, and the payload keeps its limit. -/
structure Accounted (p : Progress) : Prop where
  entries : p.entries.length + p.ops.length = p.opCount
  opCount : p.opCount ≤ 32
  size : p.size ≤ Config.payloadLimit

/-- RequestsOk, block by block. -/
def RequestsKept (s : State) : Prop :=
  (∀ r ∈ s.mgu.queue, 1 ≤ r.ops.length ∧ r.ops.length ≤ 32) ∧ (∀ p, s.mgu.cur = some p → p.ops ≠ [] ∧ Accounted p) ∧
    ∀ f ∈ s.riu.replies, f.payload.length ≤ Config.payloadLimit

theorem requestsOk_iff {s : State} : RequestsOk s ↔ RequestsKept s :=
  ⟨fun h => ⟨h.queue, fun p hp => ⟨(h.ops p hp).1, (h.ops p hp).2.1, (h.ops p hp).2.2, h.size p hp⟩, h.replies⟩,
    fun ⟨queue, cur, replies⟩ => ⟨queue, fun p hp => ⟨(cur p hp).1, (cur p hp).2.entries, (cur p hp).2.opCount⟩,
      fun p hp => (cur p hp).2.size, replies⟩⟩

theorem entry_length (e : ReplyEntry) : e.bytes.length = 5 := rfl

theorem block_length (b : ReplyBlock) : b.frameBytes.length = 3 + b.bytes.length := by
  simp [ReplyBlock.frameBytes, bytes16]
  omega

/-- The payload's length is the account's: 4 bytes, 5 for each entry, and 3 and its contents for each block (R184). -/
theorem payload_length (p : Progress) :
    p.payload.length = 4 + 5 * p.entries.length + (p.blocks.map (fun b => 3 + b.bytes.length)).sum := by
  have hentries : (p.entries.flatMap ReplyEntry.bytes).length = 5 * p.entries.length := by
    rw [List.length_flatMap, List.map_congr_left (fun e _ => entry_length e)]
    simp [Nat.mul_comm]
  have hblocks : (p.blocks.flatMap ReplyBlock.frameBytes).length = (p.blocks.map (fun b => 3 + b.bytes.length)).sum := by
    rw [List.length_flatMap, List.map_congr_left (fun b _ => block_length b)]
  unfold Progress.payload
  rw [List.length_append, List.length_append, hentries, hblocks]
  rfl

theorem Accounted.payload {p : Progress} (h : Accounted p) (hdone : p.ops = []) : p.payload.length ≤ Config.payloadLimit := by
  have hcount := h.entries
  rw [hdone, List.length_nil, Nat.add_zero] at hcount
  rw [payload_length, hcount]
  exact h.size

theorem accounted_start {r : Request} (h : r.ops.length ≤ 32) : Accounted r.start where
  entries := Nat.zero_add _
  opCount := h
  size := by
    have hsize : r.start.size = 4 + 5 * r.ops.length := rfl
    rw [hsize]
    exact (by omega : 4 + 5 * r.ops.length ≤ 164).trans (by decide)

theorem Accounted.abandon {p : Progress} (h : Accounted p) : Accounted p.abandon where
  entries := by simp [Progress.abandon, h.entries]
  opCount := h.opCount
  size := h.size

/-- What the head op's answer, its block within the limit, makes of a request. -/
def answeredOnce (p : Progress) (a : Answer) : Progress :=
  { p with
    ops := p.ops.drop 1
    entries := p.entries ++ [{ code := (p.limit a).code, value := (p.limit a).value }]
    blocks := p.blocks ++ ((p.limit a).block.map (fun b => { op := p.entries.length, bytes := b })).toList }

theorem answered_eq (p : Progress) (a : Answer) :
    p.answered a = if p.stop && (p.limit a).code != .ok then (answeredOnce p a).abandon else answeredOnce p a := rfl

/-- A block that R184 lets in keeps the payload within its limit. -/
theorem limit_block {p : Progress} {a : Answer} {l : List Byte} (h : (p.limit a).block = some l) :
    p.size + 3 + l.length ≤ Config.payloadLimit := by
  unfold Progress.limit at h
  split at h
  · next bytes hblock =>
    split at h
    · cases h
    · next hroom =>
      obtain rfl : bytes = l := Option.some.inj (hblock.symm.trans h)
      exact not_lt.mp hroom
  · next hnone => rw [hnone] at h; cases h

theorem answeredOnce_size (p : Progress) (a : Answer) : (answeredOnce p a).size =
    p.size + (((p.limit a).block.map (fun l => 3 + l.length)).getD 0) := by
  unfold Progress.size answeredOnce
  cases (p.limit a).block with
  | none => simp
  | some l => simp [Nat.add_assoc]

theorem Accounted.answeredOnce {p : Progress} (h : Accounted p) (hops : p.ops ≠ []) (a : Answer) :
    Accounted (answeredOnce p a) where
  entries := by
    have hlength := List.length_pos_iff.mpr hops
    have hentries := h.entries
    simp only [QueueInvariant.answeredOnce, List.length_append, List.length_drop, List.length_singleton]
    omega
  opCount := h.opCount
  size := by
    rw [answeredOnce_size]
    cases hblock : (p.limit a).block with
    | none => exact h.size
    | some l => simpa [Nat.add_assoc] using limit_block hblock

theorem Accounted.answered {p : Progress} (h : Accounted p) (hops : p.ops ≠ []) (a : Answer) : Accounted (p.answered a) := by
  rw [answered_eq]
  split
  · exact (h.answeredOnce hops a).abandon
  · exact h.answeredOnce hops a

theorem requestsKept_placeReply {s : State} {p : Progress} (hp : Accounted p) (hdone : p.ops = []) (hs : RequestsKept s) :
    RequestsKept (s.placeReply p) := by
  obtain ⟨queue, -, replies⟩ := hs
  refine ⟨queue, nofun, fun f hf => ?_⟩
  rcases List.mem_append.mp hf with h | h
  · exact replies f h
  · rw [List.mem_singleton.mp h]
    exact hp.payload hdone

theorem requestsKept_opDone {s : State} (a : Answer) (hs : RequestsKept s) : RequestsKept (s.opDone a) := by
  rcases opDone_cases s a with h | ⟨p, hcur, h⟩
  · rwa [h]
  · have ⟨hops, hp⟩ := hs.2.1 p hcur
    rw [h]
    rcases goOn_cases s (p.answered a) with ⟨hdone, h⟩ | ⟨hmore, h⟩
    · rw [h]
      exact requestsKept_placeReply (hp.answered hops a) hdone hs
    · rw [h]
      refine ⟨hs.1, fun q hq => ?_, hs.2.2⟩
      obtain rfl := Option.some.inj hq
      exact ⟨hmore, hp.answered hops a⟩

theorem requestsKept_startRequest {s : State} (hs : RequestsKept s) : RequestsKept s.startRequest := by
  rcases startRequest_cases s with h | ⟨r, rest, hqueue, -, -, h⟩
  · rwa [h]
  · rw [h]
    obtain ⟨queue, -, replies⟩ := hs
    rw [hqueue] at queue
    obtain ⟨hfirst, hlast⟩ := queue r List.mem_cons_self
    refine ⟨fun q hq => queue q (List.mem_cons_of_mem _ hq), fun p hp => ?_, replies⟩
    obtain rfl := Option.some.inj hp
    exact ⟨List.length_pos_iff.mp hfirst, accounted_start hlast⟩

theorem Accounted.of_curMove {p q : Progress} (h : Accounted p) (m : CurMove p q) : Accounted q where
  entries := by rw [m.entries, m.ops, m.opCount]; exact h.entries
  opCount := m.opCount.trans_le h.opCount
  size := by
    have hsize : q.size = p.size := by unfold Progress.size; rw [m.opCount, m.blocks]
    exact hsize.trans_le h.size

theorem requestsKept_closedM : ClosedM RequestsKept := by
  refine' {
    blind := fun s t h hs => by
      unfold RequestsKept
      rw [State.maskE_riu h, State.maskE_mgu h]
      exact hs
    .. }
  all_goals intros; assumption

theorem requestsKept_deriveFire {s : State} (hs : RequestsKept s) : RequestsKept s.deriveFire.1 :=
  requestsKept_closedM.toClosedS.deriveFire (fun _ _ _ h => h) hs

theorem requestsKept_closedExec (c : Instr) : ClosedExec c RequestsKept := by
  refine' {
    toClosedM := requestsKept_closedM
    standdown := fun _ _ _ hs => hs
    cold := fun s straps _ _ => ⟨nofun, nofun, nofun⟩
    level := fun s _ hs => requestsKept_deriveFire (s := { s with fru := { s.fru with effective := _ } }) hs
    fireMask := fun s x _ _ _ hs => requestsKept_deriveFire (s := s.setFire s.fru.effective x) hs
    riu := fun s r m ⟨queue, cur, replies⟩ => ⟨queue, cur, fun f hf => replies f (m.members f hf)⟩
    queue := fun s l m ⟨queue, cur, replies⟩ => ⟨fun r hr => (m.members r hr).elim (queue r) id, cur, replies⟩
    cur := fun s p q hcur m ⟨queue, cur, replies⟩ => ⟨queue, fun k hk => by
      obtain rfl := Option.some.inj hk
      exact ⟨m.ops ▸ (cur p hcur).1, (cur p hcur).2.of_curMove m⟩, replies⟩
    start := fun s hs => requestsKept_startRequest hs
    done := fun s a hs => requestsKept_opDone a hs
    restartReply := fun s p hcur hops hs =>
      requestsKept_placeReply ((hs.2.1 p hcur).2.answered hops okAnswer).abandon rfl hs
    warm := fun s _ ⟨queue, _, replies⟩ => fruRestart_blind (s := s.blocksWarm) requestsKept_closedM.toClosedS
      (fun _ _ _ h => h) (fun _ _ _ h => h) (fun _ h => h) (fun _ h => h) ⟨queue, nofun, replies⟩
    enter := fun s _ _ hs => enter_blind (s := s) requestsKept_closedM.toClosedS (fun _ _ _ _ h => h) hs
    leave := fun s _ _ _ hs => leave_blind (s := s) requestsKept_closedM.toClosedS (fun _ _ _ _ h => h) hs
    derive := fun s hs => requestsKept_deriveFire hs
    .. }
  all_goals intros; assumption

/-- Settles O58: no queue takes more than its free places, and an op's answer moves the account of its request by one. -/
theorem queuesKept : Obligations.QueuesKept := by
  intro s t hstep
  constructor
  · simp only [queuesOk_iff]
    exact step_closed (fun _ _ h => h) (fun _ h => queuesBounded_tick h) (fun c _ _ => queuesBounded_closedExec c) hstep
  · simp only [requestsOk_iff]
    exact step_closed (fun _ _ h => h) (fun _ h => h) (fun c _ _ => requestsKept_closedExec c) hstep

end Sys2Proof.Proofs.QueueInvariant
/-! The rules of the part state, the season lock and the tables over every command (R52, R63, R107, R108, R186, R191, R192). -/

namespace Sys2Proof.Proofs.CommandRules

open Sys2Proof.Machine Sys2Proof.Safety Sys2Proof.Proofs.ClosedCommands

/-! ### No CLOSE is issued in STANDDOWN (R52, R63) -/

/-- The part stands in STANDDOWN, and each CLOSE in flight was in flight in s₀. -/
def NoNewClose (s₀ t : State) : Prop :=
  t.mgu.part = .standdown ∧ ∀ n tag, closeInFlight (t.slot n) = some tag → closeInFlight (s₀.slot n) = some tag

theorem closeInFlight_move {x y : Slot} (h : SlotMove x y) {tag : Nat} (hy : closeInFlight y = some tag) :
    closeInFlight x = some tag := by
  cases h with
  | pend c v h => exact hy
  | result r => exact hy
  | free => cases hy
  | echoed f h =>
    unfold closeInFlight
    rw [h]
    exact hy
  | attach f h o | attachEchoed f h o => simp [closeInFlight, SlotState.flight, o] at hy

theorem noNewClose_setSlot {s₀ s : State} {n : Rec} {x : Slot} (hs : NoNewClose s₀ s)
    (hx : ∀ tag, closeInFlight x = some tag → closeInFlight (s₀.slot n) = some tag) : NoNewClose s₀ (s.setSlot n x) := by
  refine ⟨hs.1, fun m tag hm => ?_⟩
  have hslot : (s.setSlot n x).slot m = if n = m then x else s.slot m := Vector.look_put _ _ _ _
  rw [hslot] at hm
  split at hm
  · next h => exact h ▸ hx tag hm
  · exact hs.2 m tag hm

/-- What R52 lets issue in STANDDOWN is no CLOSE. -/
theorem noNewClose_issue {s₀ s : State} {n : Rec} {c : ReqClass} {cmd : Command} (k : Nat) (h : MayIssue s n c cmd)
    (hs : NoNewClose s₀ s) : NoNewClose s₀ (s.setSlot n ((s.slot n).issued c cmd s.mono k)) := by
  refine noNewClose_setSlot hs fun tag htag => ?_
  have hcmd : cmd ≠ .closing := fun hcmd => by
    have hfree := h.open_ hcmd
    simp [State.closeBlocked, hs.1] at hfree
  simp [closeInFlight, Slot.issued, SlotState.flight, hcmd] at htag

theorem noNewClose_closedM (s₀ : State) : ClosedM (NoNewClose s₀) := by
  refine' {
    blind := fun s t h hs => by
      unfold NoNewClose State.slot
      rw [State.maskE_mgu h, State.maskE_bcu h]
      exact hs
    slot := fun s n x h hs => noNewClose_setSlot hs fun tag htag => hs.2 n tag (closeInFlight_move h htag)
    issue := fun s n c cmd k h hs => noNewClose_issue k h hs
    .. }
  all_goals intros; assumption

theorem noNewClose_deriveFire {s₀ s : State} (hs : NoNewClose s₀ s) : NoNewClose s₀ s.deriveFire.1 :=
  (noNewClose_closedM s₀).toClosedS.deriveFire (fun _ _ _ h => h) hs

theorem noNewClose_blocksWarm {s₀ s : State} (hs : NoNewClose s₀ s) : NoNewClose s₀ s.blocksWarm := by
  refine ⟨hs.1, fun n tag h => ?_⟩
  have hslot : s.blocksWarm.slot n = (s.slot n).warm := Vector.look_each _ _ _
  rw [hslot] at h
  cases h

theorem noNewClose_closedExec {c : Instr} (s₀ : State) (hclear : c ≠ .clearStanddown) (hcold : isColdReset c = false) :
    ClosedExec c (NoNewClose s₀) := by
  refine' {
    toClosedM := noNewClose_closedM s₀
    standdown := fun _ s hpart hs => absurd (hpart.symm.trans hs.1) nofun
    cold := fun s straps h _ => by subst h; cases hcold
    level := fun s _ hs => noNewClose_deriveFire (s := { s with fru := { s.fru with effective := _ } }) hs
    fireMask := fun s x _ _ _ hs => noNewClose_deriveFire (s := s.setFire s.fru.effective x) hs
    start := fun s hs => startRequest_blind (fun _ _ _ h => h) hs
    done := fun s a hs => opDone_blind (fun _ _ h => h) (fun _ _ h => h) hs
    restartReply := fun s p _ _ hs => hs
    warm := fun s _ hs => fruRestart_blind (s := s.blocksWarm) (noNewClose_closedM s₀).toClosedS (fun _ _ _ h => h)
      (fun _ _ _ h => h) (fun _ h => h) (fun _ h => h) (noNewClose_blocksWarm hs)
    clearStanddown := fun s h _ _ => absurd h hclear
    enter := fun s _ hpart hs => absurd (hpart.symm.trans hs.1) nofun
    leave := fun s _ hpart _ hs => absurd (hpart.symm.trans hs.1) nofun
    derive := fun s hs => noNewClose_deriveFire hs
    .. }
  all_goals intros; assumption

/-- Settles O52: in STANDDOWN the condition of R52 keeps every CLOSE from its issue. -/
theorem noCloseInStanddown : Obligations.NoCloseInStanddown := by
  intro c s t hpart hclear hcold hexec
  exact exec_closed (noNewClose_closedExec s hclear hcold) hexec ⟨hpart, fun _ _ h => h⟩

/-! ### The season lock (R107, R108) -/

/-- The lock stands, the fire map is as it was, and the part state too where the command is a DECOMMISSION. -/
def LockStands (c : Instr) (s₀ t : State) : Prop :=
  t.fru.seasonLock = true ∧ t.fru.fireMap = s₀.fru.fireMap ∧ (c = .decommission → t.mgu.part = s₀.mgu.part)

theorem lockStands_closedM (c : Instr) (s₀ : State) : ClosedM (LockStands c s₀) := by
  refine' {
    blind := fun s t h hs => by
      unfold LockStands
      rw [State.maskE_mgu h, State.maskE_fru h]
      exact hs
    .. }
  all_goals intros; assumption

theorem lockStands_deriveFire {c : Instr} {s₀ s : State} (hs : LockStands c s₀ s) : LockStands c s₀ s.deriveFire.1 :=
  (lockStands_closedM c s₀).toClosedS.deriveFire (fun _ _ _ h => h) hs

theorem not_unlocked {c : Instr} {s₀ s : State} (hs : LockStands c s₀ s) : s.fru.seasonLock ≠ false := by
  rw [hs.1]
  decide

theorem lockStands_closedExec {c : Instr} (s₀ : State) (hunlock : c ≠ .seasonUnlock) (hcold : isColdReset c = false) :
    ClosedExec c (LockStands c s₀) := by
  have hS := (lockStands_closedM c s₀).toClosedS
  refine' {
    toClosedM := lockStands_closedM c s₀
    standdown := fun hends s _ hs => ⟨hs.1, hs.2.1, fun h => by subst h; cases hends⟩
    cold := fun s straps h _ => by subst h; cases hcold
    level := fun s _ hs => lockStands_deriveFire (s := { s with fru := { s.fru with effective := _ } }) hs
    lockSeason := fun s _ hs => ⟨rfl, hs.2⟩
    unlockSeason := fun s h _ _ => absurd h hunlock
    fireMap := fun s l x _ h _ _ hs => absurd h (not_unlocked hs)
    fireMask := fun s x _ h _ hs => absurd h (not_unlocked hs)
    start := fun s hs => startRequest_blind (fun _ _ _ h => h) hs
    done := fun s a hs => opDone_blind (fun _ _ h => h) (fun _ _ h => h) hs
    restartReply := fun s p _ _ hs => hs
    warm := fun s _ hs => fruRestart_blind (s := s.blocksWarm) hS (fun _ _ _ h => h)
      (fun _ _ _ h => h) (fun _ h => h) (fun _ h => h) hs
    clearStanddown := fun s h _ hs => ⟨hs.1, hs.2.1, fun k => by rw [h] at k; cases k⟩
    enter := fun s h _ hs => enter_blind (s := s) hS (fun _ _ _ _ h => h) ⟨hs.1, hs.2.1, fun k => by rw [h] at k; cases k⟩
    leave := fun s _ _ h hs => absurd h (not_unlocked hs)
    derive := fun s hs => lockStands_deriveFire hs
    .. }
  all_goals intros; assumption

/-- SEASON_UNLOCK takes the lock off at effective level OFF alone, and leaves the fire map (R108). -/
theorem opUnlock_regime (n : Rec) (s : State) :
    ((State.opUnlock n s).1.fru.seasonLock = s.fru.seasonLock ∨ s.fru.effective = 0) ∧
      (State.opUnlock n s).1.fru.fireMap = s.fru.fireMap := by
  unfold State.opUnlock
  split
  · exact ⟨.inl rfl, rfl⟩
  · split
    · next h => exact ⟨.inr h, rfl⟩
    · exact ⟨.inl rfl, rfl⟩

theorem exec_seasonUnlock {s t : State} (hlock : s.fru.seasonLock = true) (hexec : exec .seasonUnlock s = .next t) :
    (t.fru.seasonLock = true ∨ s.fru.effective = 0) ∧ t.fru.fireMap = s.fru.fireMap := by
  rw [live_next hexec]
  split
  · exact ⟨.inl hlock, rfl⟩
  · unfold State.runOp
    split
    · next p _ =>
      obtain ⟨hlocked, hmap⟩ := opUnlock_regime p.context s
      dsimp only
      rw [State.opDone_fru]
      exact ⟨hlocked.imp_left fun h => h.trans hlock, hmap⟩
    · exact ⟨.inl hlock, rfl⟩

/-- Settles O53: with the lock engaged a write to the fire map and a DECOMMISSION are refused, and the lock goes by SEASON_UNLOCK
at level OFF. -/
theorem seasonLockHolds : Obligations.SeasonLockHolds := by
  intro c s t hlock hcold hexec
  by_cases hunlock : c = .seasonUnlock
  · subst hunlock
    obtain ⟨hlocked, hmap⟩ := exec_seasonUnlock hlock hexec
    exact ⟨hlocked.imp_right fun h => ⟨rfl, h⟩, hmap, nofun⟩
  · have hstart : LockStands c s s := ⟨hlock, rfl, fun _ => rfl⟩
    obtain ⟨hlocked, hmap, hpart⟩ := exec_closed (lockStands_closedExec s hunlock hcold) hexec hstart
    exact ⟨.inl hlocked, hmap, hpart⟩

/-! ### The part state (R192) -/

/-- Where the command has brought the part from p so far. -/
def PartMoves (c : Instr) (p : PartState) (t : State) : Prop := PartChange c p t.mgu.part

theorem partMoves_closedM (c : Instr) (p : PartState) : ClosedM (PartMoves c p) := by
  refine' {
    blind := fun s t h hs => by
      unfold PartMoves
      rw [State.maskE_mgu h]
      exact hs
    .. }
  all_goals intros; assumption

theorem partMoves_deriveFire {c : Instr} {p : PartState} {s : State} (hs : PartMoves c p s) :
    PartMoves c p s.deriveFire.1 :=
  (partMoves_closedM c p).toClosedS.deriveFire (fun _ _ _ h => h) hs

/-- A change of the part state to q: the part stood in q₀ all along, since the command leads to no other state before. -/
theorem PartMoves.change {c : Instr} {p q₀ q : PartState} {s : State} (hs : PartMoves c p s) (hpart : s.mgu.part = q₀)
    (honly : ∀ p', PartChange c p' q₀ → p' = q₀) (hq : PartChange c q₀ q) : PartMoves c p (s.setPart q) := by
  unfold PartMoves at hs ⊢
  rw [hpart] at hs
  rw [honly p hs]
  exact hq

/-- A command in which a command at a slot ends leads to ACTIVE from ACTIVE alone. -/
theorem partChange_active_of_ends {c : Instr} {p q : PartState} (h : PartChange c p q) (hends : endsCommands c = true)
    (hq : q = .active) : p = .active := by
  cases h with
  | stays => exact hq
  | standdown => rfl
  | cold | commission | decommission | clear => cases hends

theorem partMoves_closedExec (c : Instr) (p : PartState) : ClosedExec c (PartMoves c p) := by
  have hS := (partMoves_closedM c p).toClosedS
  refine' {
    toClosedM := partMoves_closedM c p
    standdown := fun hends s hpart hs => hs.change hpart (fun _ h => partChange_active_of_ends h hends rfl) (.standdown c hends)
    cold := fun s straps h _ => by subst h; exact .cold straps p
    level := fun s _ hs => partMoves_deriveFire (s := { s with fru := { s.fru with effective := _ } }) hs
    fireMask := fun s x _ _ _ hs => partMoves_deriveFire (s := s.setFire s.fru.effective x) hs
    start := fun s hs => startRequest_blind (fun _ _ _ h => h) hs
    done := fun s a hs => opDone_blind (fun _ _ h => h) (fun _ _ h => h) hs
    restartReply := fun s p _ _ hs => hs
    warm := fun s _ hs => fruRestart_blind (s := s.blocksWarm) hS (fun _ _ _ h => h)
      (fun _ _ _ h => h) (fun _ h => h) (fun _ h => h) hs
    clearStanddown := fun s h hpart hs => by
      subst h
      refine hs.change hpart (fun p' h => ?_) .clear
      cases h with
      | stays => rfl
      | standdown _ hends => cases hends
    enter := fun s h hpart hs => enter_blind (s := s) hS (fun _ _ _ _ h => h) (by
      subst h
      refine hs.change hpart (fun p' h => ?_) .commission
      cases h with
      | stays => rfl)
    leave := fun s h hpart _ hs => leave_blind (s := s) hS (fun _ _ _ _ h => h) (by
      subst h
      refine hs.change hpart (fun p' h => ?_) .decommission
      cases h with
      | stays => rfl)
    derive := fun s hs => partMoves_deriveFire hs
    .. }
  all_goals intros; assumption

/-- Settles O54: each update of the part state comes about in the command of its row of R192, and the part's own step makes
none. -/
theorem partStateChanges : Obligations.PartStateChanges := by
  refine ⟨fun c s t hexec => exec_closed (partMoves_closedExec c s.mgu.part) hexec (.stays c s.mgu.part), ?_⟩
  intro s t hidle hstep
  unfold step at hstep
  rw [hidle] at hstep
  cases hstep
  exact idle_closed (P := fun t => t.mgu.part = s.mgu.part) (fun _ _ h => h) (fun _ h => h) rfl

/-! ### The tables (R186, R191) -/

/-- The tables and the address that only the writes and the resets change, as in s₀. -/
def TablesStand (c : Instr) (s₀ t : State) : Prop :=
  (writesTable c 1 = false → t.meu.table = s₀.meu.table) ∧
  (writesTable c 2 = false → (∀ imm, c ≠ .setBackupAddr imm) → t.bcu.cap = s₀.bcu.cap) ∧
  (writesTable c 3 = false → t.pru.groups = s₀.pru.groups) ∧
  (writesTable c 4 = false → writesTable c 5 = false → t.pru.curves = s₀.pru.curves) ∧
  (writesTable c 8 = false → t.fru.fireMap = s₀.fru.fireMap) ∧
  (writesTable c 10 = false → t.hnc.table = s₀.hnc.table) ∧
  (writesTable c 12 = false → t.recd.segments = s₀.recd.segments) ∧
  (writesTable c 13 = false → ∀ k, (t.chan k).conf = (s₀.chan k).conf) ∧
  (writesTable c 15 = false → ∀ f, (t.fac f).conf = (s₀.fac f).conf) ∧
  t.riu.own = s₀.riu.own ∧ t.pins.straps = s₀.pins.straps ∧ t.mono = s₀.mono

theorem tablesStand_closedM (c : Instr) (s₀ : State) : ClosedM (TablesStand c s₀) := by
  refine' {
    blind := fun s t h hs => by
      unfold TablesStand
      simp only [State.maskE_meu h, State.maskE_bcu h, State.maskE_pru h, State.maskE_fru h, State.maskE_hnc h,
        State.maskE_segments h, State.maskE_chan h, State.maskE_fac h, State.maskE_riu h, State.maskE_pins h,
        State.maskE_mono h]
      exact hs
    hnc := fun s x h ⟨src, cap, grp, crv, fire, hunt, rest⟩ => ⟨src, cap, grp, crv, fire, fun hw => h.trans (hunt hw), rest⟩
    .. }
  all_goals intros; assumption

theorem tablesStand_deriveFire {c : Instr} {s₀ s : State} (hs : TablesStand c s₀ s) : TablesStand c s₀ s.deriveFire.1 :=
  (tablesStand_closedM c s₀).toClosedS.deriveFire (fun _ _ _ h => h) hs

theorem channel_warm_conf (x : Channel) : x.warm.conf = x.conf := by
  unfold Channel.warm
  split <;> rfl

theorem tablesStand_blocksWarm {c : Instr} {s₀ s : State} (hs : TablesStand c s₀ s) : TablesStand c s₀ s.blocksWarm := by
  obtain ⟨src, cap, grp, crv, fire, hunt, seg, chan, fac, rest⟩ := hs
  refine ⟨src, cap, grp, crv, fire, hunt, seg, fun hw k => ?_, fun hw f => ?_, rest⟩
  · have hchan : s.blocksWarm.chan k = (s.chan k).warm := Vector.look_each _ _ _
    rw [hchan, channel_warm_conf]
    exact chan hw k
  · have hfac : s.blocksWarm.fac f = (s.fac f).warm := Vector.look_each _ _ _
    rw [hfac]
    exact fac hw f

theorem tablesStand_setFire {c : Instr} {s₀ s : State} {l : Level} {x : FireRecord} (hw : writesTable c 8 = true)
    (hs : TablesStand c s₀ s) : TablesStand c s₀ (s.setFire l x) := by
  obtain ⟨src, cap, grp, crv, -, rest⟩ := hs
  exact ⟨src, cap, grp, crv, fun h => absurd (hw.symm.trans h) nofun, rest⟩

theorem tablesStand_closedExec {c : Instr} (s₀ : State) (hcold : isColdReset c = false) : ClosedExec c (TablesStand c s₀) := by
  have hS := (tablesStand_closedM c s₀).toClosedS
  refine' {
    toClosedM := tablesStand_closedM c s₀
    standdown := fun _ _ _ hs => hs
    cold := fun s straps h _ => by subst h; cases hcold
    level := fun s _ hs => tablesStand_deriveFire (s := { s with fru := { s.fru with effective := _ } }) hs
    riu := fun s r m ⟨src, cap, grp, crv, fire, hunt, seg, chan, fac, own, rest⟩ =>
      ⟨src, cap, grp, crv, fire, hunt, seg, chan, fac, m.own.trans own, rest⟩
    start := fun s hs => startRequest_blind (fun _ _ _ h => h) hs
    done := fun s a hs => opDone_blind (fun _ _ h => h) (fun _ _ h => h) hs
    restartReply := fun s p _ _ hs => hs
    warm := fun s _ hs => fruRestart_blind (s := s.blocksWarm) hS (fun _ _ _ h => h)
      (fun _ _ _ h => h) (fun _ h => h) (fun _ h => h) (tablesStand_blocksWarm hs)
    source := fun s t hw _ ⟨_, rest⟩ => ⟨fun h => absurd (hw.symm.trans h) nofun, rest⟩
    capability := fun s n x hw _ ⟨src, _, rest⟩ =>
      ⟨src, fun h k => hw.elim (fun hw => absurd (hw.symm.trans h) nofun) (fun ⟨v, hv⟩ => absurd hv (k v)), rest⟩
    group := fun s g x hw ⟨src, cap, _, rest⟩ => ⟨src, cap, fun h => absurd (hw.symm.trans h) nofun, rest⟩
    curve := fun s k x hw ⟨src, cap, grp, _, rest⟩ => ⟨src, cap, grp, fun h4 h5 =>
      hw.elim (fun hw => absurd (hw.symm.trans h4) nofun) (fun hw => absurd (hw.symm.trans h5) nofun), rest⟩
    fireMap := fun s l x hw _ _ _ hs => tablesStand_setFire hw hs
    fireMask := fun s x hw _ _ hs => tablesStand_deriveFire (tablesStand_setFire hw hs)
    huntTable := fun s x hw ⟨src, cap, grp, crv, fire, _, rest⟩ =>
      ⟨src, cap, grp, crv, fire, fun h => absurd (hw.symm.trans h) nofun, rest⟩
    segment := fun s v hw ⟨src, cap, grp, crv, fire, hunt, _, rest⟩ =>
      ⟨src, cap, grp, crv, fire, hunt, fun h => absurd (hw.symm.trans h) nofun, rest⟩
    channel := fun s k x hw ⟨src, cap, grp, crv, fire, hunt, seg, _, rest⟩ =>
      ⟨src, cap, grp, crv, fire, hunt, seg, fun h => absurd (hw.symm.trans h) nofun, rest⟩
    factor := fun s f x hw ⟨src, cap, grp, crv, fire, hunt, seg, chan, _, rest⟩ =>
      ⟨src, cap, grp, crv, fire, hunt, seg, chan, fun h => absurd (hw.symm.trans h) nofun, rest⟩
    enter := fun s _ _ hs => enter_blind (s := s) hS (fun _ _ _ _ h => h) hs
    leave := fun s _ _ _ hs => leave_blind (s := s) hS (fun _ _ _ _ h => h) hs
    derive := fun s hs => tablesStand_deriveFire hs
    .. }
  all_goals intros; assumption

theorem channel_conf_fields {x y : Channel} (h : x.conf = y.conf) : x.trigger = y.trigger ∧ x.bay = y.bay ∧ x.pre = y.pre ∧
    x.length = y.length ∧ x.reportAtEnd = y.reportAtEnd := by
  simp only [Channel.conf, Channel.mk.injEq] at h
  obtain ⟨htrigger, hbay, hpre, hlength, hreport, -⟩ := h
  exact ⟨htrigger, hbay, hpre, hlength, hreport⟩

theorem factor_conf_fields {x y : FactorRecord} (h : x.conf = y.conf) : x.enable = y.enable ∧ x.level = y.level := by
  simp only [FactorRecord.conf, FactorRecord.mk.injEq] at h
  obtain ⟨-, -, -, -, -, -, -, -, henable, hlevel⟩ := h
  exact ⟨henable, hlevel⟩

/-- Settles O55: each update of a table is made by a command that writes it. -/
theorem tablesKept : Obligations.TablesKept := by
  intro c s t hcold hexec
  have hstart : TablesStand c s s := ⟨fun _ => rfl, fun _ _ => rfl, fun _ => rfl, fun _ _ => rfl, fun _ => rfl, fun _ => rfl,
    fun _ => rfl, fun _ _ => rfl, fun _ _ => rfl, rfl, rfl, rfl⟩
  obtain ⟨src, cap, grp, crv, fire, hunt, seg, chan, fac, rest⟩ := exec_closed (tablesStand_closedExec s hcold) hexec hstart
  exact ⟨src, cap, grp, crv, fire, hunt, seg, fun hw k => channel_conf_fields (chan hw k),
    fun hw f => factor_conf_fields (fac hw f), rest⟩

end Sys2Proof.Proofs.CommandRules
/-! The step (log entry 5), the commands waiting, and the start and the end of an op (R184, R187 to R190, R197). -/

namespace Sys2Proof.Proofs.Requests

open Sys2Proof.Machine Sys2Proof.Safety Sys2Proof.Proofs.ClosedCommands Sys2Proof.Proofs.BreakerFail
  Sys2Proof.Proofs.CaptureOps Sys2Proof.Proofs.SlotInvariant Sys2Proof.Proofs.FireInvariant
  Sys2Proof.Proofs.CountInvariant Sys2Proof.Proofs.QueueInvariant

/-! ### The step -/

theorem step_of_pending {s : State} {c : Instr} {rest : List Instr} (h : s.pending = c :: rest) :
    step s = exec c { s with pending := rest } := by
  unfold step
  rw [h]

theorem step_of_idle {s : State} (h : s.pending = []) : step s = .next s.idle := by
  unfold step
  rw [h]

/-- Settles O1, by the definition of a step. -/
theorem stepRunsFront : Obligations.StepRunsFront := fun _ _ _ h => step_of_pending h

section idle
variable {s : State}

theorem enqueue_of_idle (h : s.pending = []) (l : List Instr) : s.enqueue l = { s with pending := l } := by
  unfold State.enqueue
  rw [h, List.nil_append]

theorem idle_held (hheld : s.pins.resetHeld = true) : s.idle = s := if_pos hheld

theorem idle_places (hfree : s.pins.resetHeld = false) (hplace : s.canPlaceBlock = true) :
    s.idle = s.enqueue [.captureBlockPlace] := by
  simp [State.idle, hfree, hplace]

theorem idle_asks (hfree : s.pins.resetHeld = false) (hplace : s.canPlaceBlock = false) {c : Instr}
    (hop : s.nextOp = some c) : s.idle = s.enqueue [c] := by
  simp [State.idle, hfree, hplace, hop]

theorem idle_starts (hfree : s.pins.resetHeld = false) (hplace : s.canPlaceBlock = false) (hop : s.nextOp = none)
    (hstart : s.canStart = true) : s.idle = s.enqueue [.requestStart] := by
  simp [State.idle, hfree, hplace, hop, hstart]

theorem idle_ticks (hfree : s.pins.resetHeld = false) (hplace : s.canPlaceBlock = false) (hop : s.nextOp = none)
    (hstart : s.canStart = false) : s.idle = s.tick.enqueue s.tick.dueEvents := by
  simp [State.idle, hfree, hplace, hop, hstart]

end idle

/-! ### One millisecond (R197) -/

theorem tick_ctx (s : State) (e : SrcIx) : s.tick.ctx e = (s.ctx e).tick := Vector.look_each _ _ _

theorem tick_status (s : State) (n : Rec) : s.tick.status n = (s.status n).tick := Vector.look_each _ _ _

theorem tick_slot (s : State) (n : Rec) : s.tick.slot n = (s.slot n).tick := Vector.look_each _ _ _

theorem tick_rcl (s : State) (b : Bay) : s.tick.rcl b = (s.rcl b).tick := Vector.look_each _ _ _

theorem slot_tick_free {x : Slot} (h : x.state = .free) : x.tick = x := by
  obtain ⟨state, pend, lastTag, lastResult⟩ := x
  subst h
  rfl

theorem slot_tick_inFlight {x : Slot} {f : Flight} (h : x.state = .inFlight f) :
    x.tick = { x with state := .inFlight { f with timer := f.timer - 1 } } := by
  unfold Slot.tick
  rw [h]
  rfl

theorem slot_tick_echoed {x : Slot} {f : Flight} (h : x.state = .echoed f) :
    x.tick = { x with state := .echoed { f with timer := f.timer - 1 } } := by
  unfold Slot.tick
  rw [h]
  rfl

theorem reclaimTimer_tick_stopped {x : ReclaimTimer} (h : ∀ k, x ≠ .running k) : x.tick = x := by
  cases x with
  | running k => exact absurd rfl (h k)
  | stopped | runOut => rfl

/-! ### The expiries that stand -/

theorem due_iff {o : Option Nat} : due o = true ↔ o = some 0 := by
  unfold due
  exact beq_iff_eq

theorem commandDue_isSome {s : State} {n : Rec} :
    (s.commandDue n).isSome = true ↔ ∃ f, (s.slot n).state.flight = some f ∧ f.timer = 0 := by
  unfold State.commandDue
  cases (s.slot n).state.flight <;> simp [Option.filter]

theorem mem_allSources (e : SrcIx) : e ∈ allSources := by revert e; decide

theorem mem_allRecs (n : Rec) : n ∈ allRecs := by revert n; decide

/-- An expiry of a numbered thing is due where the thing's timer has run out. -/
theorem mem_filter_map_iff {α : Type} {l : List α} (hl : ∀ x, x ∈ l) {q : α → Bool} {f : α → Instr} {c : Instr} :
    c ∈ (l.filter q).map f ↔ ∃ x, c = f x ∧ q x = true := by
  simp only [List.mem_map, List.mem_filter, hl, true_and]
  exact exists_congr fun x => ⟨fun ⟨hq, hc⟩ => ⟨hc.symm, hq⟩, fun ⟨hc, hq⟩ => ⟨hq, hc.symm⟩⟩

theorem mem_ite_singleton {b : Bool} {c d : Instr} : c ∈ (if b = true then [d] else []) ↔ c = d ∧ b = true := by
  cases b <;> simp

theorem mem_dueEvents {t : State} {c : Instr} : c ∈ t.dueEvents ↔
    (c = .inSilenceExpiry ∧ t.riu.inUp = true ∧ t.riu.inTimer = some 0) ∨
    (∃ e, c = .sourceSilenceExpiry e ∧ (t.ctx e).state = .valid ∧ (t.ctx e).silence = some 0) ∨
    (∃ n, c = .baystatSilenceExpiry n ∧ (t.status n).silence = some 0) ∨
    (∃ n f, c = .commandTimeout n ∧ (t.slot n).state.flight = some f ∧ f.timer = 0) ∨
    (∃ b, c = .deadTimerExpiry b ∧ (t.rcl b).state = .dead ∧ (t.rcl b).deadTimer = some 0) ∨
    (∃ b, c = .springWaitExpiry b ∧ (t.rcl b).state = .dead ∧ (t.rcl b).springTimer = some 0) ∨
    (∃ b, c = .reclaimExpiry b ∧ (t.rcl b).state = .reclaim ∧ (t.rcl b).reclaimTimer = .running 0) ∨
    (c = .huntStartDelayExpiry ∧ t.hnc.state = .waiting ∧ t.hnc.timer = some 0) ∨
    (c = .dwellExpiry ∧ t.hnc.state = .dwell ∧ t.hnc.timer = some 0) ∨
    (c = .retestDelayExpiry ∧ t.hnc.state = .retestWait ∧ t.hnc.timer = some 0) ∨
    (c = .retestDwellExpiry ∧ t.hnc.state = .retestDwell ∧ t.hnc.timer = some 0) := by
  have hcommand : (∃ n, c = Instr.commandTimeout n ∧ (t.commandDue n).isSome = true) ↔
      ∃ n f, c = .commandTimeout n ∧ (t.slot n).state.flight = some f ∧ f.timer = 0 := by
    simp only [commandDue_isSome, exists_and_left]
  unfold State.dueEvents
  simp only [List.mem_append, mem_ite_singleton, mem_filter_map_iff mem_allSources, mem_filter_map_iff mem_allRecs,
    mem_filter_map_iff mem_allBays, hcommand, or_assoc]
  simp only [State.inDue, State.sourceDue, State.baystatDue, State.deadDue, State.springDue, State.reclaimDue,
    State.huntDue, due_iff, Bool.and_eq_true, beq_iff_eq]

/-- Settles O2: the cases of the idle step in its order, the timers of a millisecond, and the expiries that then stand. -/
theorem idleStepGoesOn : Obligations.IdleStepGoesOn := by
  intro s hidle
  refine ⟨fun hheld => ?held, fun hfree hplace => ?places, fun hfree hplace c hop => ?asks,
    fun hfree hplace hop hstart => ?starts, fun hfree hplace hop hstart => ⟨?ticks, rfl, rfl, fun e => tick_ctx s e,
      fun n => ⟨tick_status s n, fun h => ?free, fun f h => ?inFlight, fun f h => ?echoed⟩,
      fun b => ⟨?record, fun k h => ?running, fun h => ?stopped⟩, fun c => mem_dueEvents⟩⟩
  case held => rw [step_of_idle hidle, idle_held hheld]
  case places => rw [step_of_idle hidle, idle_places hfree hplace, enqueue_of_idle hidle]
  case asks => rw [step_of_idle hidle, idle_asks hfree hplace hop, enqueue_of_idle hidle]
  case starts => rw [step_of_idle hidle, idle_starts hfree hplace hop hstart, enqueue_of_idle hidle]
  case ticks => rw [step_of_idle hidle, idle_ticks hfree hplace hop hstart, enqueue_of_idle (s := s.tick) hidle]
  case free => rw [tick_slot, slot_tick_free h]
  case inFlight => rw [tick_slot, slot_tick_inFlight h]
  case echoed => rw [tick_slot, slot_tick_echoed h]
  case record => rw [tick_rcl]; rfl
  case running =>
    rw [tick_rcl]
    unfold RecloseRecord.tick
    rw [h]
    rfl
  case stopped =>
    rw [tick_rcl]
    exact reclaimTimer_tick_stopped h

/-! ### Every command answers -/

theorem exec_answers (c : Instr) (s : State) : ∃ t, exec c s = .next t := by
  cases c <;> exact ⟨_, rfl⟩

theorem pending_closedM (l : List Instr) : ClosedM (fun t => t.pending = l) := by
  refine' { blind := fun s t h hs => (State.maskE_pending h).trans hs, .. }
  all_goals intros; assumption

/-- No command touches the commands that wait behind it. -/
theorem pending_closedExec (c : Instr) (l : List Instr) : ClosedExec c (fun t => t.pending = l) := by
  have hS := (pending_closedM l).toClosedS
  have hderive : ∀ {s : State}, s.pending = l → s.deriveFire.1.pending = l := hS.deriveFire fun _ _ _ h => h
  refine' {
    toClosedM := pending_closedM l
    cold := fun _ _ _ hs => hs
    hold := fun _ _ hs => hs
    standdown := fun _ _ _ hs => hs
    level := fun s _ hs => hderive (s := { s with fru := { s.fru with effective := _ } }) hs
    fireMask := fun s x _ _ _ hs => hderive (s := s.setFire s.fru.effective x) hs
    start := fun s hs => startRequest_blind (P := fun t => t.pending = l) (fun _ _ _ h => h) hs
    done := fun s a hs => (s.opDone_pending a).trans hs
    restartReply := fun s p _ _ (hs : (s.placeReply _).pending = l) => hs
    warm := fun s _ (hs : s.blocksWarm.pending = l) => fruRestart_blind (P := fun t => t.pending = l) hS
      (fun _ _ _ h => h) (fun _ _ _ h => h) (fun _ h => h) (fun _ h => h) hs
    enter := fun s _ _ hs => enter_blind (P := fun t => t.pending = l) (s := s) hS (fun _ _ _ _ h => h) hs
    leave := fun s _ _ _ hs => leave_blind (P := fun t => t.pending = l) (s := s) hS (fun _ _ _ _ h => h) hs
    derive := fun s hs => hderive hs
    .. }
  all_goals intros; assumption

/-- Settles O3: each command has a next state, by its arm of exec, and touches no command that waits. -/
theorem everyCommandAnswers : Obligations.EveryCommandAnswers := by
  intro c s
  obtain ⟨t, hexec⟩ := exec_answers c s
  exact ⟨t, hexec, exec_closed (pending_closedExec c s.pending) hexec rfl⟩

/-! ### Op words -/

/-- The law of each command's op word. -/
theorem opWord_statement : ∀ i : Instr, Laws.OpWords.Statement i
  | .coldReset straps => Laws.OpWords.coldReset straps
  | .tfbPinChange asserted => Laws.OpWords.tfbPinChange asserted
  | .ringFrameReceive f => Laws.OpWords.ringFrameReceive f
  | .sampleFrame dest src payload => Laws.OpWords.sampleFrame dest src payload
  | .baystatFrame dest src payload => Laws.OpWords.baystatFrame dest src payload
  | .mgmtReqFrame dest src payload => Laws.OpWords.mgmtReqFrame dest src payload
  | .outTake => Laws.OpWords.outTake
  | .requestStart => Laws.OpWords.requestStart
  | .captureBlockPlace => Laws.OpWords.captureBlockPlace
  | .sourceSilenceExpiry e => Laws.OpWords.sourceSilenceExpiry e
  | .baystatSilenceExpiry n => Laws.OpWords.baystatSilenceExpiry n
  | .commandTimeout n => Laws.OpWords.commandTimeout n
  | .deadTimerExpiry b => Laws.OpWords.deadTimerExpiry b
  | .springWaitExpiry b => Laws.OpWords.springWaitExpiry b
  | .reclaimExpiry b => Laws.OpWords.reclaimExpiry b
  | .huntStartDelayExpiry => Laws.OpWords.huntStartDelayExpiry
  | .dwellExpiry => Laws.OpWords.dwellExpiry
  | .retestDelayExpiry => Laws.OpWords.retestDelayExpiry
  | .retestDwellExpiry => Laws.OpWords.retestDwellExpiry
  | .inSilenceExpiry => Laws.OpWords.inSilenceExpiry
  | .badOp word => Laws.OpWords.badOp word
  | .bayContext imm => Laws.OpWords.bayContext imm
  | .widen target imm => Laws.OpWords.widen target imm
  | .write target imm => Laws.OpWords.write target imm
  | .writeSource addr imm => Laws.OpWords.writeSource addr imm
  | .writeGroup addr imm => Laws.OpWords.writeGroup addr imm
  | .writeCurve header addr imm => Laws.OpWords.writeCurve header addr imm
  | .writeCapability addr imm => Laws.OpWords.writeCapability addr imm
  | .writeFireMap addr imm => Laws.OpWords.writeFireMap addr imm
  | .writeHuntTable addr imm => Laws.OpWords.writeHuntTable addr imm
  | .writeSegment addr imm => Laws.OpWords.writeSegment addr imm
  | .writeCaptureConfig addr imm => Laws.OpWords.writeCaptureConfig addr imm
  | .writeEventConfig addr imm => Laws.OpWords.writeEventConfig addr imm
  | .read target => Laws.OpWords.read target
  | .readStatus imm => Laws.OpWords.readStatus imm
  | .readRecords imm => Laws.OpWords.readRecords imm
  | .readCapture imm => Laws.OpWords.readCapture imm
  | .selectBaseGroup imm => Laws.OpWords.selectBaseGroup imm
  | .pushManual imm => Laws.OpWords.pushManual imm
  | .popManual => Laws.OpWords.popManual
  | .setFireLevel imm => Laws.OpWords.setFireLevel imm
  | .seasonLock => Laws.OpWords.seasonLock
  | .seasonUnlock => Laws.OpWords.seasonUnlock
  | .bayOpen => Laws.OpWords.bayOpen
  | .bayClose => Laws.OpWords.bayClose
  | .bayIndicate imm => Laws.OpWords.bayIndicate imm
  | .bayInterlock imm => Laws.OpWords.bayInterlock imm
  | .blockRange imm => Laws.OpWords.blockRange imm
  | .unblockRange imm => Laws.OpWords.unblockRange imm
  | .resetLockout => Laws.OpWords.resetLockout
  | .ackBreakerFail => Laws.OpWords.ackBreakerFail
  | .clearStanddown => Laws.OpWords.clearStanddown
  | .startHunt => Laws.OpWords.startHunt
  | .abortHunt => Laws.OpWords.abortHunt
  | .armCapture imm => Laws.OpWords.armCapture imm
  | .disarmCapture imm => Laws.OpWords.disarmCapture imm
  | .clearEvents imm => Laws.OpWords.clearEvents imm
  | .setThreshold imm => Laws.OpWords.setThreshold imm
  | .setTime imm => Laws.OpWords.setTime imm
  | .setReportDest imm => Laws.OpWords.setReportDest imm
  | .setBackupAddr imm => Laws.OpWords.setBackupAddr imm
  | .commission => Laws.OpWords.commission
  | .decommission => Laws.OpWords.decommission
  | .restart => Laws.OpWords.restart
  | .resetPinAsserted => Laws.OpWords.resetPinAsserted
/-- Settles O4, command by command. -/
theorem opWordsDecode : Obligations.OpWordsDecode := fun i w hwf hword => opWord_statement i hwf w hword

/-! ### The start of a request (R187) -/

theorem startRequest_taken {s : State} {r : Request} {rest : List Request} (hcur : s.mgu.cur = none)
    (hroom : s.riu.replies.length < 2) (hqueue : s.mgu.queue = r :: rest) :
    s.startRequest = { s with mgu := { s.mgu with queue := rest, cur := some r.start } } := by
  have hstart : s.canStart = true := by simp [State.canStart, hcur, hroom, hqueue]
  unfold State.startRequest
  rw [if_pos hstart, hqueue]

theorem startRequest_refused {s : State} (h : s.mgu.cur ≠ none ∨ 2 ≤ s.riu.replies.length ∨ s.mgu.queue = []) :
    s.startRequest = s := by
  refine if_neg fun hstart => ?_
  simp only [State.canStart, Bool.and_eq_true, decide_eq_true_eq, Option.isNone_iff_eq_none, Bool.not_eq_true',
    List.isEmpty_eq_false_iff] at hstart
  obtain ⟨⟨hcur, hroom⟩, hqueue⟩ := hstart
  rcases h with h | h | h
  · exact h hcur
  · exact absurd hroom (not_lt.mpr h)
  · exact hqueue h

/-- Settles O5, by the three conditions of a start. -/
theorem requestStarts : Obligations.RequestStarts := by
  intro s hfree
  have hlive : ∀ {t}, s.startRequest = t → exec .requestStart s = .next t := fun h => h ▸ State.live_of_free hfree _
  exact ⟨fun r rest hcur hroom hqueue => hlive (startRequest_taken hcur hroom hqueue), fun h => hlive (startRequest_refused h)⟩

/-! ### The end of an op (R184, R187, R188) -/

theorem limit_of_fits {p : Progress} {a : Answer} (h : ∀ bytes, a.block = some bytes → p.size + 3 + bytes.length ≤ 1024) :
    p.limit a = a := by
  unfold Progress.limit
  split
  · next bytes hblock => exact if_neg (not_lt.mpr (h bytes hblock))
  · rfl

theorem limit_of_block {p : Progress} {a : Answer} {bytes : List Byte} (hblock : a.block = some bytes)
    (h : p.size + 3 + bytes.length ≤ 1024) : p.limit a = a := by
  refine limit_of_fits fun l hl => ?_
  obtain rfl := Option.some.inj (hblock.symm.trans hl)
  exact h

theorem limit_of_passes {p : Progress} {a : Answer} {bytes : List Byte} (hblock : a.block = some bytes)
    (h : 1024 < p.size + 3 + bytes.length) : p.limit a = refuse .badArg := by
  unfold Progress.limit
  rw [hblock]
  exact if_pos h

theorem limit_refuse (p : Progress) (c : ResultCode) : p.limit (refuse c) = refuse c := rfl

theorem limit_limit (p : Progress) (a : Answer) : p.limit (p.limit a) = p.limit a := by
  by_cases hfits : ∀ bytes, a.block = some bytes → p.size + 3 + bytes.length ≤ 1024
  · rw [limit_of_fits hfits, limit_of_fits hfits]
  · obtain ⟨bytes, hblock, hpasses⟩ := by simpa using hfits
    rw [limit_of_passes hblock hpasses]
    exact limit_refuse p .badArg

theorem answered_limit (p : Progress) (a : Answer) : p.answered (p.limit a) = p.answered a := by
  unfold Progress.answered
  rw [limit_limit]

/-- The request after an op whose block, if any, keeps the limit. -/
theorem answered_of_fits {p : Progress} {a : Answer} (h : p.limit a = a) : p.answered a =
    (let q : Progress := { p with
      ops := p.ops.drop 1
      entries := p.entries ++ [{ code := a.code, value := a.value }]
      blocks := p.blocks ++ (a.block.map (fun b => { op := p.entries.length, bytes := b })).toList }
     if p.stop && a.code != .ok then q.abandon else q) := by
  unfold Progress.answered
  rw [h]

theorem opDone_of_cur {s : State} {p : Progress} (hcur : s.mgu.cur = some p) (a : Answer) :
    s.opDone a = s.goOn (p.answered a) := by
  unfold State.opDone
  rw [hcur]

/-- Settles O6: the request goes on with the ops left, or ends with the reply, by whether ops are left and by the refusal. -/
theorem opAnswerEntered : Obligations.OpAnswerEntered := by
  refine ⟨fun s p a w rest hcur hops hfits => ⟨fun hrest hgoes => ?goesOn, fun hends => ?ends⟩,
    fun s p a bytes hcur hblock hpasses => ?passes, fun p a bytes hblock => ⟨fun hfits => ?fits, fun hpasses => ?refused,
      fun hstop hfits => ?entered, fun hstop hpasses => ?notEntered⟩⟩
  case goesOn =>
    rw [opDone_of_cur hcur, answered_of_fits (limit_of_fits hfits), hgoes, hops]
    exact if_neg (by simpa using hrest)
  case ends =>
    rw [opDone_of_cur hcur, answered_of_fits (limit_of_fits hfits), hops]
    cases hrefused : (p.stop && a.code != .ok) with
    | true => rfl
    | false =>
      obtain rfl : rest = [] := hends.resolve_right (by simp [hrefused])
      simp [State.goOn, State.placeReply, Progress.payload]
  case passes => rw [opDone_of_cur hcur, opDone_of_cur hcur, ← limit_of_passes hblock hpasses, answered_limit]
  case fits => exact limit_of_block hblock hfits
  case refused => exact limit_of_passes hblock hpasses
  case entered =>
    rw [answered_of_fits (limit_of_block hblock hfits), hstop, hblock]
    exact ⟨rfl, rfl⟩
  case notEntered =>
    rw [← answered_limit, limit_of_passes hblock hpasses, answered_of_fits (limit_refuse p .badArg), hstop]
    exact ⟨List.append_nil _, rfl⟩

/-! ### WIDEN and BAY_CONTEXT (R188 to R190) -/

theorem widenValue_eq (target imm : BitVec 12) :
    widenValue target imm = BitVec.ofNat 20 (target.toNat % 256 * 4096 + imm.toNat) := by
  have himm := imm.isLt
  apply BitVec.eq_of_toNat_eq
  rw [widenValue, BitVec.toNat_append, ← Nat.shiftLeft_add_eq_or_of_lt himm, Nat.shiftLeft_eq, BitVec.extractLsb'_toNat,
    BitVec.toNat_ofNat, Nat.shiftRight_zero]
  omega

theorem zeroExtend_widenValue (target imm : BitVec 12) :
    (widenValue target imm).zeroExtend 32 = BitVec.ofNat 32 (target.toNat % 256 * 4096 + imm.toNat) := by
  have himm := imm.isLt
  rw [widenValue_eq]
  apply BitVec.eq_of_toNat_eq
  rw [BitVec.toNat_setWidth, BitVec.toNat_ofNat, BitVec.toNat_ofNat]
  omega

/-- Settles O7, by the bodies of the two ops. -/
theorem widenPends : Obligations.WidenPends := by
  refine ⟨fun s p w h => exec_of_runOp rfl h rfl, fun s p target imm h => exec_of_runOp rfl h ?_⟩
  unfold State.opWiden
  rw [(runs_cur h).1]
  dsimp only
  rw [zeroExtend_widenValue, widenValue_eq]
  rfl

/-- Settles O8, by whether the value names a record. -/
theorem bayContextJudged : Obligations.BayContextJudged := by
  intro s p imm h
  refine ⟨fun n hn => exec_of_runImm rfl h ?taken, fun hv => exec_of_runImm rfl h ?refused⟩
  case taken =>
    have hvalue : valueOf p imm = BitVec.ofNat 32 n.val := by rw [← hn, BitVec.ofNat_toNat, BitVec.setWidth_eq]
    rw [State.opContext, index?_eq_some hn.symm, consumed_cur, hvalue]
    rfl
  case refused => rw [State.opContext, index?_eq_none hv]; rfl

/-! ### The state after reset -/

/-- Settles O60: State.reset is a cold reset, and each invariant holds after one. -/
theorem resetIsWellKept : Obligations.ResetIsWellKept := by
  refine ⟨(by decide : [Origin.base] ∈ stackShapes false), elementsOk_of_cold rfl, shotsOk_coldReset State.reset _,
    queuesOk_iff.mpr ⟨meuBounded_cold, ⟨Nat.zero_le _, Nat.zero_le _⟩, Nat.zero_le _, Nat.zero_le _, Nat.zero_le _⟩,
    fun n => ?slots, (fireOk_idle_iff rfl).mpr fun b => ?fire, requestsOk_iff.mpr ⟨fun _ h => absurd h List.not_mem_nil,
      fun p (h : (none : Option Progress) = some p) => (nomatch h), fun _ h => absurd h List.not_mem_nil⟩⟩
  case slots => rw [show State.reset.slot n = Slot.cold from Vector.look_replicate _ _]; exact slotOk_cold
  case fire => rw [show State.reset.rcl b = RecloseRecord.cold from Vector.look_replicate _ _]; rfl

end Sys2Proof.Proofs.Requests
/-! How each table judges a WRITE: the address, the range of each field, the rules of use, and the state an accepted write leaves
where it leaves nothing but the stored value (R1, R20, R22, R41, R103, R126, R153, R156, R166, R186, R191). -/

namespace Sys2Proof.Proofs.TableWrites

open Sys2Proof.Machine Sys2Proof.Safety Sys2Proof.Proofs.CaptureOps

/-! ### Addresses and values -/

section address
variable {addr : BitVec 8} {m n k : Nat}

theorem addrIndex_of {e : Fin n} (ha : addr.toNat = e.val * m + k) (hk : k < m) : addrIndex addr m n = some e := by
  have hdiv : addr.toNat / m = e.val := by
    rw [ha, Nat.add_comm, Nat.add_mul_div_right _ _ (by omega), Nat.div_eq_of_lt hk, Nat.zero_add]
  unfold addrIndex
  rw [dif_pos (hdiv ▸ e.isLt)]
  exact congrArg some (Fin.ext hdiv)

theorem addrField_of {e : Nat} (ha : addr.toNat = e * m + k) (hk : k < m) : addrField addr m = k := by
  unfold addrField
  rw [ha, Nat.add_comm, Nat.add_mul_mod_self_right, Nat.mod_eq_of_lt hk]

end address

theorem inRange_iff {lo hi v : Nat} : inRange lo hi v = true ↔ lo ≤ v ∧ v ≤ hi := by
  unfold inRange
  rw [Bool.and_eq_true, decide_eq_true_eq, decide_eq_true_eq]

theorem inRange_of {lo hi v : Nat} (hlo : lo ≤ v) (hhi : v ≤ hi) : inRange lo hi v = true := inRange_iff.mpr ⟨hlo, hhi⟩

theorem inRange_outside {lo hi v : Nat} (h : v < lo ∨ hi < v) : inRange lo hi v = false :=
  eq_false_of_ne_true fun hin => by
    obtain ⟨hlo, hhi⟩ := inRange_iff.mp hin
    omega

theorem yesNo_of_le {v : Nat} (h : v ≤ 1) : yesNo v = some (v == 1) := by
  obtain rfl | rfl : v = 0 ∨ v = 1 := by omega
  · rfl
  · rfl

theorem yesNo_eq_none {v : Nat} (h : 1 < v) : yesNo v = none := by
  unfold yesNo
  split
  · omega
  · omega
  · rfl

theorem indexOrNone_unset (n : Nat) : indexOrNone n 255 = some none := rfl

theorem indexOrNone_named {n v : Nat} (hn : n ≤ 255) {k : Fin n} (h : k.val = v) : indexOrNone n v = some (some k) := by
  unfold indexOrNone
  rw [if_neg (by omega), index?_eq_some h]

theorem indexOrNone_eq_none {n v : Nat} (h : n ≤ v) (hne : v ≠ 255) : indexOrNone n v = none := by
  unfold indexOrNone
  rw [if_neg hne, index?_eq_none h]

/-! ### The part state and the use of a group -/

theorem protecting_iff {s : State} : s.protecting = true ↔ s.mgu.part = .active ∨ s.mgu.part = .standdown := by
  unfold State.protecting
  rw [Bool.or_eq_true, beq_iff_eq, beq_iff_eq]

theorem protecting_eq_false {s : State} : s.protecting = false ↔ ¬ (s.mgu.part = .active ∨ s.mgu.part = .standdown) := by
  rw [← protecting_iff, Bool.not_eq_true]

theorem unconfigured_idle {s : State} (h : s.mgu.part = .unconfigured) : s.protecting = false :=
  protecting_eq_false.mpr (by simp [h])

theorem groupInUse_iff {s : State} {g : GroupNo} : s.groupInUse g = true ↔
    (s.mgu.part = .active ∨ s.mgu.part = .standdown) ∧ ∃ e ∈ s.fru.stack, e.group = g := by
  unfold State.groupInUse
  rw [Bool.and_eq_true, protecting_iff, List.any_eq_true]
  simp only [beq_iff_eq]

/-! ### A write as an op -/

/-- A write that the request asks for ends with the state and the code of its table. -/
theorem exec_of_write {c : Instr} {imm : BitVec 12} {body : Word32 → Rec → State → Written} {s t : State} {p : Progress}
    {code : ResultCode} (harm : exec c s = s.live (s.runImm c imm fun v n u => writeAnswer (body v n u))) (h : Runs s c p)
    (hw : body (valueOf p imm) p.context (consumed s p) = (t, code)) : exec c s = .next (t.opDone (refuse code)) :=
  exec_of_runImm harm h (by rw [hw]; rfl)

/-! ### Targets (R186) -/

theorem fireWrite_unlisted {x : FireRecord} {k v : Nat} (hk : 4 < k) : fireWrite x k v = none := by
  obtain ⟨j, rfl⟩ := Nat.exists_eq_add_of_le' hk
  rfl

theorem segmentWrite_unlisted {x : Segment} {k : Nat} {v : Word32} (hk : 3 < k) : segmentWrite x k v = none := by
  obtain ⟨j, rfl⟩ := Nat.exists_eq_add_of_le' hk
  rfl

theorem channelWrite_unlisted {x : Channel} {k v : Nat} (hk : 4 < k) : channelWrite x k v = none := by
  obtain ⟨j, rfl⟩ := Nat.exists_eq_add_of_le' hk
  rfl

theorem eventWrite_unlisted {x : FactorRecord} {k v : Nat} (hk : 1 < k) : eventWrite x k v = none := by
  obtain ⟨j, rfl⟩ := Nat.exists_eq_add_of_le' hk
  rfl

/-- Above the station fields of the hunt table stand the positions of its plan. -/
theorem huntWrite_plan {x : HuntTable} {addr : BitVec 8} {v : Nat} (ha : 4 < addr.toNat) : huntWrite x addr v =
    let q := x.plan.look (planIndex addr)
    if isPlanBay addr then
      (indexOrNone 8 v).map (fun b => { x with plan := x.plan.put (planIndex addr) { q with bay := b } })
    else if inRange 16 31 addr.toNat && inRange 500 60000 v then
      some { x with plan := x.plan.put (planIndex addr) { q with dwell := v } }
    else none := by
  unfold huntWrite
  split
  iterate 5 omega
  rfl

section unwritable
variable {s : State} {addr : BitVec 8}

theorem writeTable1_unwritable {v : Nat} (h : writableAddr 1 addr = false) : s.writeTable1 addr v = (s, .badArg) := by
  unfold State.writeTable1
  split
  · rfl
  · rw [if_pos (by rw [h]; rfl)]

theorem writeTable2_unwritable {v : Nat} {n : Rec} (h : writableAddr 2 addr = false) :
    s.writeTable2 addr v n = (s, .badArg) := if_pos (by rw [h]; rfl)

theorem groupWrite_unwritable {x : Group} {n : Rec} {k v : Nat} (hk : 24 < k) : groupWrite x n k v = none := by
  unfold groupWrite
  split
  · rw [index?_eq_none (by omega)]
    rfl
  · rw [index?_eq_none (by omega)]
    rfl

theorem writeTable3_unwritable {v : Nat} {n : Rec} (h : writableAddr 3 addr = false) :
    s.writeTable3 addr v n = (s, .badArg) := by
  unfold State.writeTable3
  split
  · rfl
  · next g hg =>
    have hk : 24 < addrField addr 32 := by
      simpa [writableAddr, hg] using h
    rw [groupWrite_unwritable hk]

theorem writeCurves_unwritable {v : Nat} (h : writableAddr 5 addr = false) : s.writeCurves true addr v = (s, .badArg) := by
  have hk : ¬ addrField addr 32 = 0 := by simpa [writableAddr] using h
  simp [State.writeCurves, curveWrite, hk]

theorem writeTable8_unwritable {v : Nat} (h : writableAddr 8 addr = false) : s.writeTable8 addr v = (s, .badArg) := by
  unfold State.writeTable8
  split
  · rfl
  · next l hl =>
    have hk : 4 < addrField addr 32 := by simpa [writableAddr, hl] using h
    have hnone : ∀ x, fireWrite x (addrField addr 32) v = none := fun _ => fireWrite_unlisted hk
    dsimp only
    rw [hnone]

theorem writeTable10_unwritable {v : Nat} (h : writableAddr 10 addr = false) : s.writeTable10 addr v = (s, .badArg) := by
  have hk : 4 < addr.toNat ∧ ¬ (16 ≤ addr.toNat ∧ addr.toNat ≤ 31) := by simpa [writableAddr] using h
  obtain ⟨hlow, hplan⟩ := hk
  have hout : inRange 16 31 addr.toNat = false := inRange_outside (by omega)
  have hnone : ∀ x, huntWrite x addr v = none := fun x => by
    rw [huntWrite_plan hlow]
    simp [isPlanBay, hout]
  unfold State.writeTable10
  rw [hnone]

theorem writeTable12_unwritable {v : Word32} (h : writableAddr 12 addr = false) : s.writeTable12 addr v = (s, .badArg) := by
  have hk : 3 < addrField addr 8 := by simpa [writableAddr] using h
  have hnone : ∀ x, segmentWrite x (addrField addr 8) v = none := fun _ => segmentWrite_unlisted hk
  unfold State.writeTable12
  dsimp only
  rw [hnone]

theorem writeTable13_unwritable {v : Nat} (h : writableAddr 13 addr = false) : s.writeTable13 addr v = (s, .badArg) := by
  unfold State.writeTable13
  split
  · rfl
  · next k hindex =>
    have hk : 4 < addrField addr 16 := by simpa [writableAddr, hindex] using h
    have hnone : ∀ x, channelWrite x (addrField addr 16) v = none := fun _ => channelWrite_unlisted hk
    dsimp only
    rw [hnone]

theorem writeTable15_unwritable {v : Nat} (h : writableAddr 15 addr = false) : s.writeTable15 addr v = (s, .badArg) := by
  unfold State.writeTable15
  split
  · rfl
  · next f hf =>
    have hk : 1 < addrField addr 8 := by simpa [writableAddr, hf] using h
    have hnone : ∀ x, eventWrite x (addrField addr 8) v = none := fun _ => eventWrite_unlisted hk
    rw [hnone]

/-- A target that no table lists is refused. -/
theorem writeTarget_unlisted {table : Nat} {v : Word32} {n : Rec} (h : table ∉ [1, 2, 3, 4, 5, 8, 10, 12, 13, 15]) :
    s.writeTarget table addr v n = (s, .badArg) := by
  simp only [List.mem_cons, List.not_mem_nil, or_false, not_or] at h
  unfold State.writeTarget
  split <;> first | rfl | omega

/-- A target that no table marks writable is refused, by the table that lists it or by none. -/
theorem writeTarget_unwritable {table : Nat} {v : Word32} {n : Rec} (h : writableAddr table addr = false) :
    s.writeTarget table addr v n = (s, .badArg) := by
  unfold State.writeTarget
  split
  · exact writeTable1_unwritable h
  · exact writeTable2_unwritable h
  · exact writeTable3_unwritable h
  · exact absurd h nofun
  · exact writeCurves_unwritable h
  · exact writeTable8_unwritable h
  · exact writeTable10_unwritable h
  · exact writeTable12_unwritable h
  · exact writeTable13_unwritable h
  · exact writeTable15_unwritable h
  · rfl

end unwritable

/-- Settles O9, by the table of the target. -/
theorem writeJudgedByItsTable : Obligations.WriteJudgedByItsTable := by
  intro s p target imm h
  refine ⟨(consumed s p).writeTarget (targetTable target) (targetAddr target) (valueOf p imm) p.context,
    exec_of_runImm rfl h rfl, ?_, ?_, ?_, ?_, ?_, ?_, ?_, ?_, ?_, ?_, writeTarget_unwritable, writeTarget_unlisted⟩
  all_goals
    intro htable
    rw [htable]
    rfl

/-! ### The source table (R1) -/

section sources
variable {s : State} {e : SrcIx} {addr : BitVec 8} {k v : Nat}

theorem any_iff_exists {α : Type} {l : List α} (hl : ∀ x, x ∈ l) {q : α → Bool} : l.any q = true ↔ ∃ x, q x = true := by
  simp [List.any_eq_true, hl]

theorem otherInUse_iff {q : SourceEntry → Bool} : s.otherInUse e q = true ↔
    ∃ f, f ≠ e ∧ (s.src f).inUse = true ∧ q (s.src f) = true := by
  unfold State.otherInUse
  rw [any_iff_exists Requests.mem_allSources]
  simp only [Bool.and_eq_true, bne_iff_ne, and_assoc]

theorem otherInUse_eq_false {q : SourceEntry → Bool} (h : ∀ f, f ≠ e → (s.src f).inUse = true → q (s.src f) = false) :
    s.otherInUse e q = false :=
  eq_false_of_ne_true fun hin => by
    obtain ⟨f, hne, huse, hq⟩ := otherInUse_iff.mp hin
    exact absurd hq (by rw [h f hne huse]; decide)

theorem writable_source (ha : addr.toNat = e.val * 16 + k) (hk : k ≤ 2) : writableAddr 1 addr = true := by
  simp [writableAddr, addrIndex_of ha (by omega), addrField_of ha (by omega), hk]

theorem writeTable1_protecting (ha : addr.toNat = e.val * 16 + k) (hk : k ≤ 2) (h : s.protecting = true) :
    s.writeTable1 addr v = (s, .state) := by
  simp [State.writeTable1, addrIndex_of ha (by omega), writable_source ha hk, h]

theorem writeTable1_refused (ha : addr.toNat = e.val * 16 + k) (hk : k ≤ 2) (h : s.protecting = false) {c : ResultCode}
    (hc : s.sourceWrite e k v = .error c) : s.writeTable1 addr v = (s, c) := by
  simp [State.writeTable1, addrIndex_of ha (by omega), addrField_of ha (by omega), writable_source ha hk, h, hc]

theorem writeTable1_stored (ha : addr.toNat = e.val * 16 + k) (hk : k ≤ 2) (h : s.protecting = false) {x : SourceEntry}
    (hx : s.sourceWrite e k v = .ok x) : s.writeTable1 addr v = (s.storeSource e x, .ok) := by
  simp [State.writeTable1, addrIndex_of ha (by omega), addrField_of ha (by omega), writable_source ha hk, h, hx]

/-! The rows of R1, each for the field it judges. -/

theorem sourceWrite_addr_range (h : v = 0 ∨ 62 < v) : s.sourceWrite e 0 v = .error .badArg := if_pos h

theorem sourceWrite_addr_taken (hrange : 1 ≤ v ∧ v ≤ 62) (h : v = s.riu.own.toNat ∨ ((s.src e).inUse = true ∧
    ∃ f, f ≠ e ∧ (s.src f).inUse = true ∧ (s.src f).addr = some v)) : s.sourceWrite e 0 v = .error .conflict := by
  have htaken : ((s.src e).inUse && s.otherInUse e (fun y => y.addr == some v) || v == s.riu.own.toNat) = true := by
    rw [Bool.or_eq_true, Bool.and_eq_true, otherInUse_iff]
    simpa [or_comm] using h
  exact (if_neg (by omega)).trans (if_pos htaken)

theorem sourceWrite_addr_stored (hrange : 1 ≤ v ∧ v ≤ 62) (hown : v ≠ s.riu.own.toNat)
    (hfree : (s.src e).inUse = true → ∀ f, f ≠ e → (s.src f).inUse = true → (s.src f).addr ≠ some v) :
    s.sourceWrite e 0 v = .ok { s.src e with addr := some v } := by
  have htaken : ¬ ((s.src e).inUse && s.otherInUse e (fun y => y.addr == some v) || v == s.riu.own.toNat) = true := by
    rw [Bool.or_eq_true, Bool.and_eq_true, otherInUse_iff]
    rintro (⟨huse, f, hne, hother, haddr⟩ | h)
    · exact hfree huse f hne hother (beq_iff_eq.mp haddr)
    · exact hown (beq_iff_eq.mp h)
  exact (if_neg (by omega)).trans (if_neg htaken)

theorem roleOf_eq_none (h : 8 < v) : roleOf v = none := by
  unfold roleOf
  rw [index?_eq_none (by omega)]
  exact if_neg (by omega)

theorem sourceWrite_role_range (h : 8 < v) : s.sourceWrite e 1 v = .error .badArg := by
  simp only [State.sourceWrite, roleOf_eq_none h]

theorem sourceWrite_role_taken {r : Role} (hr : roleOf v = some r) (huse : (s.src e).inUse = true)
    (h : ∃ f, f ≠ e ∧ (s.src f).inUse = true ∧ (s.src f).role = some r) : s.sourceWrite e 1 v = .error .conflict := by
  have htaken : s.otherInUse e (fun y => y.role == some r) = true := otherInUse_iff.mpr (by simpa using h)
  simp only [State.sourceWrite, hr, huse, htaken]
  rfl

theorem sourceWrite_role_stored {r : Role} (hr : roleOf v = some r)
    (hfree : (s.src e).inUse = true → ∀ f, f ≠ e → (s.src f).inUse = true → (s.src f).role ≠ some r) :
    s.sourceWrite e 1 v = .ok { s.src e with role := some r } := by
  have htaken : ¬ ((s.src e).inUse && s.otherInUse e (fun y => y.role == some r)) = true := by
    rw [Bool.and_eq_true, otherInUse_iff]
    rintro ⟨huse, f, hne, hother, hrole⟩
    exact hfree huse f hne hother (beq_iff_eq.mp hrole)
  simp only [State.sourceWrite, hr]
  exact if_neg htaken

theorem sourceWrite_use_range (h : 1 < v) : s.sourceWrite e 2 v = .error .badArg := by
  simp only [State.sourceWrite, yesNo_eq_none h]

theorem sourceWrite_use_off : s.sourceWrite e 2 0 = .ok { s.src e with inUse := false } := rfl

theorem sourceWrite_use_unset (h : (s.src e).addr = none ∨ (s.src e).role = none) :
    s.sourceWrite e 2 1 = .error .badArg := if_pos (by simpa using h)

theorem sourceWrite_use_taken (haddr : (s.src e).addr ≠ none) (hrole : (s.src e).role ≠ none)
    (h : ∃ f, f ≠ e ∧ (s.src f).inUse = true ∧ ((s.src f).addr = (s.src e).addr ∨ (s.src f).role = (s.src e).role)) :
    s.sourceWrite e 2 1 = .error .conflict :=
  (if_neg (by simp [haddr, hrole])).trans (if_pos (otherInUse_iff.mpr (by simpa using h)))

theorem sourceWrite_use_stored (haddr : (s.src e).addr ≠ none) (hrole : (s.src e).role ≠ none)
    (h : ∀ f, f ≠ e → (s.src f).inUse = true → (s.src f).addr ≠ (s.src e).addr ∧ (s.src f).role ≠ (s.src e).role) :
    s.sourceWrite e 2 1 = .ok { s.src e with inUse := true } :=
  (if_neg (by simp [haddr, hrole])).trans (if_neg (by
    rw [Bool.not_eq_true]
    exact otherInUse_eq_false fun f hne huse => by simp [h f hne huse]))

end sources

/-- Settles O10, by the rows of R1. -/
theorem sourceWriteRefused : Obligations.SourceWriteRefused := by
  intro s p addr imm e k h ha hk
  refine ⟨fun hpart => ?protecting, fun hpart => ?rows⟩
  case protecting => exact exec_of_write rfl h (writeTable1_protecting ha hk (protecting_iff.mpr hpart))
  case rows =>
    have hrefused : ∀ {c}, s.sourceWrite e k (valueOf p imm).toNat = .error c →
        exec (.writeSource addr imm) s = .next ((consumed s p).opDone (refuse c)) := fun hc =>
      exec_of_write rfl h (writeTable1_refused (s := consumed s p) ha hk (unconfigured_idle hpart) hc)
    refine ⟨?_, ?_, ?_, ?_, ?_, ?_, ?_⟩
    · rintro rfl hv
      exact hrefused (sourceWrite_addr_range hv)
    · rintro rfl hlo hhi htaken
      exact hrefused (sourceWrite_addr_taken ⟨hlo, hhi⟩ htaken)
    · rintro rfl hv
      exact hrefused (sourceWrite_role_range hv)
    · rintro rfl r hr huse htaken
      exact hrefused (sourceWrite_role_taken hr huse htaken)
    · rintro rfl hv hunset
      exact hrefused (hv ▸ sourceWrite_use_unset hunset)
    · rintro rfl hv haddr hrole htaken
      exact hrefused (hv ▸ sourceWrite_use_taken haddr hrole htaken)
    · rintro rfl hv
      exact hrefused (sourceWrite_use_range hv)

end Sys2Proof.Proofs.TableWrites
/-! Writes that store one field and do nothing more: the setting groups (R20), the curves (R22), the hunt table (R126), the segments
(R153), the capture channels (R156), and the event factors with the out-slot (R166). -/

namespace Sys2Proof.Proofs.FieldWrites

open Sys2Proof.Machine Sys2Proof.Safety Sys2Proof.Proofs.CaptureOps Sys2Proof.Proofs.TableWrites

/-! ### The setting groups (R20, R105) -/

section groups
variable {s : State} {addr : BitVec 8} {g : GroupNo} {k v : Nat} {n : Rec}

theorem groupWrite_bay {x : Group} {b : Bay} {i : Fin 25} (hi : i.val = k) (hn : n = bayRec b) :
    groupWrite x n k v = if bayFieldOk k v then some (x.setBay b i v) else none := by
  unfold groupWrite
  rw [hn, recBay_bayRec, index?_eq_some hi]
  rfl

theorem groupWrite_station {x : Group} {i : Fin 4} (hi : i.val = k) (hn : n = 8) :
    groupWrite x n k v = if stationFieldOk k v then some (x.setStation i v) else none := by
  subst hn
  unfold groupWrite
  rw [index?_eq_some hi]
  rfl

theorem groupWrite_noStationField {x : Group} (hk : 4 ≤ k) (hn : n = 8) : groupWrite x n k v = none := by
  subst hn
  unfold groupWrite
  rw [index?_eq_none hk]
  rfl

variable (ha : addr.toNat = g.val * 32 + k) (hk : k ≤ 24)
include ha hk

theorem writeTable3_badArg (hx : groupWrite (s.pru.groups.look g) n k v = none) :
    s.writeTable3 addr v n = (s, .badArg) := by
  simp only [State.writeTable3, addrIndex_of ha (by omega), addrField_of ha (by omega), hx]

theorem writeTable3_inUse {x : Group} (hx : groupWrite (s.pru.groups.look g) n k v = some x) (huse : s.groupInUse g = true) :
    s.writeTable3 addr v n = (s, .inUse) := by
  simp only [State.writeTable3, addrIndex_of ha (by omega), addrField_of ha (by omega), hx, huse, if_true]

theorem writeTable3_stored {x : Group} (hx : groupWrite (s.pru.groups.look g) n k v = some x) (huse : ¬ s.groupInUse g = true) :
    s.writeTable3 addr v n = (s.setGroup g x, .ok) := by
  simp only [State.writeTable3, addrIndex_of ha (by omega), addrField_of ha (by omega), hx, if_neg huse]

end groups

theorem bayFieldOk_iff (k v : Nat) : bayFieldOk k v = true ↔
    (k = 0 ∧ (v = 0 ∨ 500 ≤ v ∧ v ≤ 40000)) ∨ (k = 1 ∧ 50 ≤ v ∧ v ≤ 20000) ∨ ((k = 2 ∨ k = 7) ∧ v ≤ 7) ∨
    ((k = 3 ∨ k = 5 ∨ k = 8 ∨ k = 10) ∧ 5 ≤ v ∧ v ≤ 150) ∨ ((k = 4 ∨ k = 9) ∧ (v ≤ 7 ∨ v = 255)) ∨
    (k = 6 ∧ 20 ≤ v ∧ v ≤ 10000) ∨ (k = 11 ∧ v ≤ 16777216) ∨ (k = 12 ∧ (v = 0 ∨ 2 ≤ v ∧ v ≤ 2000)) ∨
    (k = 13 ∧ 1 ≤ v ∧ v ≤ 12000) ∨ ((k = 14 ∨ k = 15 ∨ k = 19) ∧ v ≤ 1) ∨ (k = 16 ∧ 1 ≤ v ∧ v ≤ 1000) ∨
    ((k = 17 ∨ k = 18) ∧ v ≤ 4) ∨ (20 ≤ k ∧ k ≤ 23 ∧ 100 ≤ v ∧ v ≤ 180000) ∨ (k = 24 ∧ 1000 ≤ v ∧ v ≤ 600000) := by
  by_cases hk : k ≤ 24
  · interval_cases k <;> simp [bayFieldOk, inRange_iff]
  · obtain ⟨j, rfl⟩ := Nat.exists_eq_add_of_le' (Nat.lt_of_not_le hk)
    refine ⟨fun h => absurd h Bool.false_ne_true, fun h => ?_⟩
    omega

theorem stationFieldOk_iff (k v : Nat) : stationFieldOk k v = true ↔
    (k = 0 ∧ 20 ≤ v ∧ v ≤ 800) ∨ (k = 1 ∧ 1 ≤ v ∧ v ≤ 799) ∨ (k = 2 ∧ 1 ≤ v ∧ v ≤ 2000) ∨ (k = 3 ∧ 1 ≤ v ∧ v ≤ 200) := by
  by_cases hk : k ≤ 3
  · interval_cases k <;> simp [stationFieldOk, inRange_iff]
  · obtain ⟨j, rfl⟩ := Nat.exists_eq_add_of_le' (Nat.lt_of_not_le hk)
    refine ⟨fun h => absurd h Bool.false_ne_true, fun h => ?_⟩
    omega

/-- Settles O12: the range of the field first, then the use of the group (log entry 34). -/
theorem groupWriteJudged : Obligations.GroupWriteJudged := by
  refine ⟨fun s p addr imm g k h ha hk => ?_, bayFieldOk_iff, stationFieldOk_iff⟩
  have huse := groupInUse_iff (s := s) (g := g)
  have hbad : groupWrite (s.pru.groups.look g) p.context k (valueOf p imm).toNat = none →
      exec (.writeGroup addr imm) s = .next ((consumed s p).opDone (refuse .badArg)) := fun hx =>
    exec_of_write rfl h (writeTable3_badArg (s := consumed s p) ha hk hx)
  have hjudged : ∀ {ok : Bool} {x : Group},
      groupWrite (s.pru.groups.look g) p.context k (valueOf p imm).toNat = (if ok then some x else none) →
      (ok = false → exec (.writeGroup addr imm) s = .next ((consumed s p).opDone (refuse .badArg))) ∧
      (ok = true → s.groupInUse g = true → exec (.writeGroup addr imm) s = .next ((consumed s p).opDone (refuse .inUse))) ∧
      (ok = true → ¬ s.groupInUse g = true →
        exec (.writeGroup addr imm) s = .next (((consumed s p).setGroup g x).opDone okAnswer)) := by
    intro ok x hx
    refine ⟨fun hok => hbad (by rw [hx, hok]; rfl), fun hok hin => ?_, fun hok hin => ?_⟩
    · exact exec_of_write rfl h (writeTable3_inUse (s := consumed s p) ha hk (hx.trans (by rw [hok]; rfl)) hin)
    · exact exec_of_write rfl h (writeTable3_stored (s := consumed s p) ha hk (hx.trans (by rw [hok]; rfl)) hin)
  rw [huse] at hjudged
  exact ⟨fun b hb i hi => hjudged (groupWrite_bay hi hb), fun hn hk4 => hbad (groupWrite_noStationField hk4 hn),
    fun hn i hi => hjudged (groupWrite_station hi hn)⟩

/-! ### The curves (R22) -/

section curves
variable {s : State} {header : Bool} {addr : BitVec 8} {c : CurveNo} {k v : Nat} (ha : addr.toNat = c.val * 32 + k) (hk : k < 32)
include ha hk

theorem curveOf_addr : curveOf addr = c := Fin.ext (by
  show addr.toNat / 32 = c.val
  omega)

/-- A write to a curve field of a range: out of range, of a curve in use, or stored. -/
theorem writeCurves_judged {lo hi : Nat} {y : Curve}
    (hx : curveWrite (s.pru.curves.look c) header addr v = if inRange lo hi v then some y else none) :
    (v < lo ∨ hi < v → s.writeCurves header addr v = (s, .badArg)) ∧
    (lo ≤ v → v ≤ hi → s.curveInUse c = true → s.writeCurves header addr v = (s, .inUse)) ∧
    (lo ≤ v → v ≤ hi → s.curveInUse c = false → s.writeCurves header addr v = (s.setCurve c y, .ok)) := by
  refine ⟨fun hv => ?_, fun hlo hhi huse => ?_, fun hlo hhi huse => ?_⟩
  · simp only [State.writeCurves, curveOf_addr ha hk, hx, inRange_outside hv, Bool.false_eq_true, if_false]
  · simp only [State.writeCurves, curveOf_addr ha hk, hx, inRange_of hlo hhi, huse, if_true]
  · simp only [State.writeCurves, curveOf_addr ha hk, hx, inRange_of hlo hhi, huse, if_true, Bool.false_eq_true, if_false]

theorem curveWrite_count {x : Curve} (hk0 : k = 0) :
    curveWrite x true addr v = if inRange 2 16 v then some { x with count := some v } else none := by
  simp [curveWrite, addrField_of ha hk, hk0]

theorem curveWrite_multiple {x : Curve} {i : Fin 16} (hi : k = i.val) :
    curveWrite x false addr v = if inRange 1 2560 v then some { x with m := x.m.put i (some v) } else none := by
  have hslot : slotOf addr = i := Fin.ext (by show addr.toNat % 16 = i.val; omega)
  simp [curveWrite, addrField_of ha hk, hi, hslot]

theorem curveWrite_increment {x : Curve} {i : Fin 16} (hi : k = 16 + i.val) :
    curveWrite x false addr v = if inRange 1 16777216 v then some { x with inc := x.inc.put i (some v) } else none := by
  have hslot : slotOf addr = i := Fin.ext (by show addr.toNat % 16 = i.val; omega)
  simp [curveWrite, addrField_of ha hk, hi, hslot]

end curves

/-- Settles O13, by the three rows of R22. -/
theorem curveWriteJudged : Obligations.CurveWriteJudged := by
  intro s p header addr imm c k h ha hk
  have hexec : ∀ {lo hi : Nat} {y : Curve}, curveWrite (s.pru.curves.look c) header addr (valueOf p imm).toNat =
      (if inRange lo hi (valueOf p imm).toNat then some y else none) →
      ((valueOf p imm).toNat < lo ∨ hi < (valueOf p imm).toNat →
        exec (.writeCurve header addr imm) s = .next ((consumed s p).opDone (refuse .badArg))) ∧
      (lo ≤ (valueOf p imm).toNat → (valueOf p imm).toNat ≤ hi → s.curveInUse c = true →
        exec (.writeCurve header addr imm) s = .next ((consumed s p).opDone (refuse .inUse))) ∧
      (lo ≤ (valueOf p imm).toNat → (valueOf p imm).toNat ≤ hi → s.curveInUse c = false →
        exec (.writeCurve header addr imm) s = .next (((consumed s p).setCurve c y).opDone okAnswer)) := by
    intro lo hi y hx
    obtain ⟨hbad, huse, hstored⟩ := writeCurves_judged (s := consumed s p) ha hk hx
    exact ⟨fun hv => exec_of_write rfl h (hbad hv), fun hlo hhi hin => exec_of_write rfl h (huse hlo hhi hin),
      fun hlo hhi hin => exec_of_write rfl h (hstored hlo hhi hin)⟩
  refine ⟨?_, ?_, ?_⟩
  · rintro rfl hk0
    exact hexec (curveWrite_count ha hk hk0)
  · rintro rfl i hi
    exact hexec (curveWrite_multiple ha hk hi)
  · rintro rfl i hi
    exact hexec (curveWrite_increment ha hk hi)

/-! ### The hunt table (R126) -/

section hunt
variable {s : State} {addr : BitVec 8} {v : Nat} {k : Fin 8}

theorem planHolds_iff {b : Bay} : s.planHolds k b = true ↔ ∃ j, j ≠ k ∧ (s.hnc.table.plan.look j).bay = some b := by
  unfold State.planHolds
  rw [any_iff_exists mem_allBays]
  simp only [Bool.and_eq_true, bne_iff_ne, beq_iff_eq]

theorem writeTable10_badArg (hx : huntWrite s.hnc.table addr v = none) : s.writeTable10 addr v = (s, .badArg) := by
  simp only [State.writeTable10, hx]

theorem writeTable10_refused {x : HuntTable} (hx : huntWrite s.hnc.table addr v = some x) {c : ResultCode}
    (hc : s.huntWriteRefused addr v = some c) : s.writeTable10 addr v = (s, c) := by
  simp only [State.writeTable10, hx, hc, storeUnless]

theorem writeTable10_stored {x : HuntTable} (hx : huntWrite s.hnc.table addr v = some x)
    (hc : s.huntWriteRefused addr v = none) : s.writeTable10 addr v = (s.setHuntTable x, .ok) := by
  simp only [State.writeTable10, hx, hc, storeUnless]

theorem huntWriteRefused_busy (h : s.hnc.state ≠ .idle) : s.huntWriteRefused addr v = some .busy := if_pos (by simp [h])

theorem huntWriteRefused_other (hidle : s.hnc.state = .idle) (h : isPlanBay addr = false ∨ 8 ≤ v) :
    s.huntWriteRefused addr v = none := by
  have hnone : (if isPlanBay addr then index? 8 v else none) = none := by
    rcases h with h | h
    · rw [h]; rfl
    · rw [index?_eq_none h, ite_self]
  simp [State.huntWriteRefused, hidle, hnone]

/-- The checks of a plan bay: another position holds it, or it is out of service while the part protects. -/
theorem huntWriteRefused_bay (hidle : s.hnc.state = .idle) (hbay : isPlanBay addr = true) (hk : planIndex addr = k)
    {b : Bay} (hb : b.val = v) : s.huntWriteRefused addr v =
      if s.planHolds k b then some .conflict
      else if s.protecting && !(s.cap (bayRec b)).inService then some .state else none := by
  simp [State.huntWriteRefused, hidle, hbay, hk, index?_eq_some hb]

/-- The address of the bay of a position of the plan. -/
theorem planBay_addr (ha : addr.toNat = 16 + 2 * k.val) : isPlanBay addr = true ∧ planIndex addr = k ∧ 4 < addr.toNat := by
  refine ⟨?_, Fin.ext ?_, by omega⟩
  · rw [isPlanBay, inRange_of (by omega) (by omega), Bool.true_and, beq_iff_eq]
    omega
  · show (addr.toNat - 16) / 2 % 8 = k.val
    omega

/-- The address of the dwell of a position of the plan. -/
theorem planDwell_addr (ha : addr.toNat = 16 + 2 * k.val + 1) :
    isPlanBay addr = false ∧ inRange 16 31 addr.toNat = true ∧ planIndex addr = k ∧ 4 < addr.toNat := by
  have hin : inRange 16 31 addr.toNat = true := inRange_of (by omega) (by omega)
  refine ⟨?_, hin, Fin.ext ?_, by omega⟩
  · rw [isPlanBay, hin, Bool.true_and, beq_eq_false_iff_ne]
    omega
  · show (addr.toNat - 16) / 2 % 8 = k.val
    omega

theorem station_not_planBay (ha : addr.toNat ≤ 4) : isPlanBay addr = false := by
  rw [isPlanBay, inRange_outside (.inl (by omega)), Bool.false_and]

theorem huntWrite_planBay {x : HuntTable} (ha : addr.toNat = 16 + 2 * k.val) : huntWrite x addr v =
    (indexOrNone 8 v).map (fun b => { x with plan := x.plan.put k { x.plan.look k with bay := b } }) := by
  obtain ⟨hbay, hk, hlow⟩ := planBay_addr ha
  rw [huntWrite_plan hlow]
  simp only [hbay, hk, if_true]

theorem huntWrite_planDwell {x : HuntTable} (ha : addr.toNat = 16 + 2 * k.val + 1) : huntWrite x addr v =
    if inRange 500 60000 v then some { x with plan := x.plan.put k { x.plan.look k with dwell := v } } else none := by
  obtain ⟨hbay, hin, hk, hlow⟩ := planDwell_addr ha
  rw [huntWrite_plan hlow]
  simp only [hbay, hin, hk, Bool.true_and, Bool.false_eq_true, if_false]

theorem huntWrite_enable {x : HuntTable} (ha : addr.toNat = 0) :
    huntWrite x addr v = (yesNo v).map (fun b => { x with enable := b }) := by
  simp only [huntWrite, ha]

theorem huntWrite_group {x : HuntTable} (ha : addr.toNat = 1) :
    huntWrite x addr v = (indexOrNone 6 v).map (fun g => { x with group := g }) := by
  simp only [huntWrite, ha]

theorem huntWrite_startDelay {x : HuntTable} (ha : addr.toNat = 2) :
    huntWrite x addr v = if inRange 1000 600000 v then some { x with startDelay := v } else none := by
  simp only [huntWrite, ha]

theorem huntWrite_retestDelay {x : HuntTable} (ha : addr.toNat = 3) :
    huntWrite x addr v = if inRange 1000 600000 v then some { x with retestDelay := v } else none := by
  simp only [huntWrite, ha]

theorem huntWrite_fireLimit {x : HuntTable} (ha : addr.toNat = 4) :
    huntWrite x addr v = if inRange 1 5 v then some { x with fireLimit := v } else none := by
  simp only [huntWrite, ha]

end hunt

/-- Settles O18: the range of the field first, then the state of the hunt, then the bay's two checks. -/
theorem huntTableWriteJudged : Obligations.HuntTableWriteJudged := by
  intro s p addr imm h
  have hrefused : huntWrite s.hnc.table addr (valueOf p imm).toNat = none →
      exec (.writeHuntTable addr imm) s = .next ((consumed s p).opDone (refuse .badArg)) := fun hx =>
    exec_of_write rfl h (writeTable10_badArg (s := consumed s p) hx)
  have hbusy : ∀ {y}, huntWrite s.hnc.table addr (valueOf p imm).toNat = some y → s.hnc.state ≠ .idle →
      exec (.writeHuntTable addr imm) s = .next ((consumed s p).opDone (refuse .busy)) := fun hx hne =>
    exec_of_write rfl h (writeTable10_refused (s := consumed s p) hx (huntWriteRefused_busy hne))
  have hstored : ∀ {y}, huntWrite s.hnc.table addr (valueOf p imm).toNat = some y →
      isPlanBay addr = false ∨ 8 ≤ (valueOf p imm).toNat →
      (s.hnc.state ≠ .idle → exec (.writeHuntTable addr imm) s = .next ((consumed s p).opDone (refuse .busy))) ∧
      (s.hnc.state = .idle →
        exec (.writeHuntTable addr imm) s = .next (((consumed s p).setHuntTable y).opDone okAnswer)) :=
    fun hx hother => ⟨hbusy hx, fun hidle =>
      exec_of_write rfl h (writeTable10_stored (s := consumed s p) hx (huntWriteRefused_other hidle hother))⟩
  have hlow : ∀ {a : Nat}, a ≤ 4 → addr.toNat = a → isPlanBay addr = false ∨ 8 ≤ (valueOf p imm).toNat := fun ha4 ha =>
    .inl (station_not_planBay (ha.trans_le ha4))
  refine ⟨fun ha hv => ?enable, fun ha hv => ?enableBad, fun ha hv => ?groupNone, fun ha g hg => ?group,
    fun ha hv hne => ?groupBad, fun ha hlo hhi => ?startDelay, fun ha hlo hhi => ?retestDelay, fun ha hv => ?delayBad,
    fun ha hlo hhi => ?fireLimit, fun ha hv => ?fireLimitBad, fun k ha hlo hhi => ?dwell, fun k ha hv => ?dwellBad,
    fun k ha hv hne => ?bayBad, fun k ha hv => ?bayNone, fun k b ha hb => ?bay⟩
  case enable => exact hstored (by rw [huntWrite_enable ha, yesNo_of_le hv]; rfl) (hlow (by decide) ha)
  case enableBad => exact hrefused (by rw [huntWrite_enable ha, yesNo_eq_none hv]; rfl)
  case groupNone => exact hstored (by rw [huntWrite_group ha, hv]; rfl) (hlow (by decide) ha)
  case group => exact hstored (by rw [huntWrite_group ha, indexOrNone_named (by decide) hg]; rfl) (hlow (by decide) ha)
  case groupBad => exact hrefused (by rw [huntWrite_group ha, indexOrNone_eq_none hv hne]; rfl)
  case startDelay => exact hstored (by rw [huntWrite_startDelay ha, inRange_of hlo hhi]; rfl) (hlow (by decide) ha)
  case retestDelay => exact hstored (by rw [huntWrite_retestDelay ha, inRange_of hlo hhi]; rfl) (hlow (by decide) ha)
  case delayBad =>
    rcases ha with ha | ha
    · exact hrefused (by rw [huntWrite_startDelay ha, inRange_outside hv]; rfl)
    · exact hrefused (by rw [huntWrite_retestDelay ha, inRange_outside hv]; rfl)
  case fireLimit => exact hstored (by rw [huntWrite_fireLimit ha, inRange_of hlo hhi]; rfl) (hlow (by decide) ha)
  case fireLimitBad => exact hrefused (by rw [huntWrite_fireLimit ha, inRange_outside hv]; rfl)
  case dwell => exact hstored (by rw [huntWrite_planDwell ha, inRange_of hlo hhi]; rfl) (.inl (planDwell_addr ha).1)
  case dwellBad => exact hrefused (by rw [huntWrite_planDwell ha, inRange_outside hv]; rfl)
  case bayBad => exact hrefused (by rw [huntWrite_planBay ha, indexOrNone_eq_none hv hne]; rfl)
  case bayNone => exact hstored (by rw [huntWrite_planBay ha, hv]; rfl) (.inr (by omega))
  case bay =>
    obtain ⟨hplan, hk, -⟩ := planBay_addr ha
    have hx := huntWrite_planBay (x := s.hnc.table) (v := (valueOf p imm).toNat) ha
    rw [indexOrNone_named (by decide) hb] at hx
    have hjudge : s.hnc.state = .idle → _ := fun hidle => huntWriteRefused_bay (s := s) hidle hplan hk hb
    rw [← planHolds_iff, ← protecting_iff]
    refine ⟨fun hidle hheld => ?held, fun hidle hfree hout => ?outOfService, fun hfree hserved => ⟨hbusy hx, fun hidle => ?_⟩⟩
    case held => exact exec_of_write rfl h (writeTable10_refused (s := consumed s p) hx ((hjudge hidle).trans (if_pos hheld)))
    case outOfService =>
      refine exec_of_write rfl h (writeTable10_refused (s := consumed s p) hx ((hjudge hidle).trans ?_))
      rw [if_neg hfree, if_pos (by simp [hout])]
    · refine exec_of_write rfl h (writeTable10_stored (s := consumed s p) hx ((hjudge hidle).trans ?_))
      rw [if_neg hfree, if_neg (by simpa using hserved)]

/-! ### The segments and the capture channels (R153, R156) -/

section recorder
variable {s : State} {addr : BitVec 8} {k : Nat}

theorem segIndex_addr {i : SegIx} (ha : addr.toNat = i.val * 8 + k) (hk : k < 8) : segIndex addr = i := Fin.ext (by
  show addr.toNat / 8 = i.val
  omega)

theorem writeTable12_badArg {i : SegIx} {v : Word32} (ha : addr.toNat = i.val * 8 + k) (hk : k < 8)
    (hx : segmentWrite (s.recd.segments.look i) k v = none) : s.writeTable12 addr v = (s, .badArg) := by
  simp only [State.writeTable12, segIndex_addr ha hk, addrField_of ha hk, hx]

theorem writeTable12_stored {i : SegIx} {v : Word32} (ha : addr.toNat = i.val * 8 + k) (hk : k < 8) {x : Segment}
    (hx : segmentWrite (s.recd.segments.look i) k v = some x) :
    s.writeTable12 addr v = ({ s with recd := { s.recd with segments := s.recd.segments.put i x } }, .ok) := by
  simp only [State.writeTable12, segIndex_addr ha hk, addrField_of ha hk, hx]

theorem segmentWrite_low {x : Segment} {v : Word32} : segmentWrite x 1 v =
    if -32768 ≤ v.toInt ∧ v.toInt ≤ 32767 then some { x with xLow := v.toInt } else none := by
  simp [segmentWrite]

theorem segmentWrite_high {x : Segment} {v : Word32} : segmentWrite x 2 v =
    if -32768 ≤ v.toInt ∧ v.toInt ≤ 32767 then some { x with xHigh := v.toInt } else none := by
  simp [segmentWrite]

variable {c : Chan} {v : Nat} (ha : addr.toNat = c.val * 16 + k) (hk : k < 16)
include ha hk

theorem writeTable13_badArg (hx : channelWrite (s.chan c) k v = none) : s.writeTable13 addr v = (s, .badArg) := by
  simp only [State.writeTable13, addrIndex_of ha hk, addrField_of ha hk, hx]

theorem writeTable13_state {x : Channel} (hx : channelWrite (s.chan c) k v = some x)
    (h : (s.chan c).state = .armed ∨ (s.chan c).state = .running) : s.writeTable13 addr v = (s, .state) := by
  have hbusy : ((s.chan c).state == .armed || (s.chan c).state == .running) = true := by simpa using h
  simp only [State.writeTable13, addrIndex_of ha hk, addrField_of ha hk, hx, hbusy, if_true, storeUnless]

theorem writeTable13_stored {x : Channel} (hx : channelWrite (s.chan c) k v = some x)
    (h : (s.chan c).state = .disarmed ∨ (s.chan c).state = .done) : s.writeTable13 addr v = (s.setChan c x, .ok) := by
  have hfree : ((s.chan c).state == .armed || (s.chan c).state == .running) = false := by
    rcases h with h | h <;> rw [h] <;> rfl
  simp only [State.writeTable13, addrIndex_of ha hk, addrField_of ha hk, hx, hfree, Bool.false_eq_true, if_false, storeUnless]

end recorder

/-- Settles O19, by the fields of the two tables. -/
theorem recorderWriteJudged : Obligations.RecorderWriteJudged := by
  refine ⟨fun s p addr imm i k h ha hk => ?segments, fun s p addr imm c k h ha hk => ?channels⟩
  case segments =>
    have hrefused : segmentWrite (s.recd.segments.look i) k (valueOf p imm) = none →
        exec (.writeSegment addr imm) s = .next ((consumed s p).opDone (refuse .badArg)) := fun hx =>
      exec_of_write rfl h (writeTable12_badArg (s := consumed s p) ha hk hx)
    have hstored : ∀ {y}, segmentWrite (s.recd.segments.look i) k (valueOf p imm) = some y →
        exec (.writeSegment addr imm) s = .next (({ consumed s p with
          recd := { s.recd with segments := s.recd.segments.put i y } } : State).opDone okAnswer) := fun hx =>
      exec_of_write rfl h (writeTable12_stored (s := consumed s p) ha hk hx)
    refine ⟨?_, ?_, ?_, ?_, ?_, ?_, ?_, ?_⟩
    · rintro rfl b hb
      exact hstored (by rw [segmentWrite, indexOrNone_named (by decide) hb]; rfl)
    · rintro rfl hv
      exact hstored (by rw [segmentWrite, hv]; rfl)
    · rintro rfl hv hne
      exact hrefused (by rw [segmentWrite, indexOrNone_eq_none hv hne]; rfl)
    · rintro rfl hlo hhi
      exact hstored (segmentWrite_low.trans (if_pos ⟨hlo, hhi⟩))
    · rintro rfl hlo hhi
      exact hstored (segmentWrite_high.trans (if_pos ⟨hlo, hhi⟩))
    · rintro (rfl | rfl) hv
      · exact hrefused (segmentWrite_low.trans (if_neg (by omega)))
      · exact hrefused (segmentWrite_high.trans (if_neg (by omega)))
    · rintro rfl hv
      exact hstored (if_pos hv)
    · rintro rfl hv
      exact hrefused (if_neg (by omega))
  case channels =>
    have hrefused : channelWrite (s.chan c) k (valueOf p imm).toNat = none →
        exec (.writeCaptureConfig addr imm) s = .next ((consumed s p).opDone (refuse .badArg)) := fun hx =>
      exec_of_write rfl h (writeTable13_badArg (s := consumed s p) ha hk hx)
    have hstored : ∀ {y}, channelWrite (s.chan c) k (valueOf p imm).toNat = some y →
        ((s.chan c).state = .armed ∨ (s.chan c).state = .running →
          exec (.writeCaptureConfig addr imm) s = .next ((consumed s p).opDone (refuse .state))) ∧
        ((s.chan c).state = .disarmed ∨ (s.chan c).state = .done →
          exec (.writeCaptureConfig addr imm) s = .next (((consumed s p).setChan c y).opDone okAnswer)) := fun hx =>
      ⟨fun hst => exec_of_write rfl h (writeTable13_state (s := consumed s p) ha hk hx hst),
        fun hst => exec_of_write rfl h (writeTable13_stored (s := consumed s p) ha hk hx hst)⟩
    refine ⟨?_, ?_, ?_, ?_, ?_, ?_, ?_, ?_, ?_, ?_⟩
    · rintro rfl f hf
      exact hstored (by rw [channelWrite, index?_eq_some hf]; rfl)
    · rintro rfl hv
      exact hrefused (by rw [channelWrite, index?_eq_none hv]; rfl)
    · rintro rfl b hb
      exact hstored (by rw [channelWrite, index?_eq_some hb]; rfl)
    · rintro rfl hv
      exact hrefused (by rw [channelWrite, index?_eq_none hv]; rfl)
    · rintro rfl hv
      exact hstored (if_pos hv)
    · rintro rfl hv
      exact hrefused (if_neg (by omega))
    · rintro rfl hlo hhi
      exact hstored (if_pos (inRange_of hlo hhi))
    · rintro rfl hv
      exact hrefused (by rw [channelWrite, inRange_outside hv]; rfl)
    · rintro rfl hv
      exact hstored (by rw [channelWrite, yesNo_of_le hv]; rfl)
    · rintro rfl hv
      exact hrefused (by rw [channelWrite, yesNo_eq_none hv]; rfl)

/-! ### The event factors (R166) -/

section events
variable {s : State} {addr : BitVec 8} {f : Factor} {k v : Nat} (ha : addr.toNat = f.val * 8 + k) (hk : k < 8)
include ha hk

theorem writeTable15_badArg (hx : eventWrite (s.fac f) k v = none) : s.writeTable15 addr v = (s, .badArg) := by
  simp only [State.writeTable15, addrIndex_of ha hk, addrField_of ha hk, hx]

theorem writeTable15_held {x : FactorRecord} (hx : eventWrite (s.fac f) k v = some x) (h : s.fac f = x) :
    s.writeTable15 addr v = (s, .ok) := by
  simp only [State.writeTable15, addrIndex_of ha hk, addrField_of ha hk, hx, if_pos h]

theorem writeTable15_stored {x : FactorRecord} (hx : eventWrite (s.fac f) k v = some x) (h : ¬ s.fac f = x) :
    s.writeTable15 addr v = ((s.setFac f x).judgeOutSlot, .ok) := by
  simp only [State.writeTable15, addrIndex_of ha hk, addrField_of ha hk, hx, if_neg h]

end events

/-- Settles O20: an accepted write that changes the record has the out-slot judged again. -/
theorem eventWriteJudged : Obligations.EventWriteJudged := by
  intro s p addr imm f k h ha hk
  have hrefused : eventWrite (s.fac f) k (valueOf p imm).toNat = none →
      exec (.writeEventConfig addr imm) s = .next ((consumed s p).opDone (refuse .badArg)) := fun hx =>
    exec_of_write rfl h (writeTable15_badArg (s := consumed s p) ha hk hx)
  have hstored : ∀ {y}, eventWrite (s.fac f) k (valueOf p imm).toNat = some y →
      (y = s.fac f → exec (.writeEventConfig addr imm) s = .next ((consumed s p).opDone okAnswer)) ∧
      (y ≠ s.fac f → exec (.writeEventConfig addr imm) s =
        .next ((((consumed s p).setFac f y).judgeOutSlot).opDone okAnswer)) := fun hx =>
    ⟨fun hy => exec_of_write rfl h (writeTable15_held (s := consumed s p) ha hk hx hy.symm),
      fun hy => exec_of_write rfl h (writeTable15_stored (s := consumed s p) ha hk hx fun e => hy e.symm)⟩
  refine ⟨?_, ?_, ?_, ?_⟩
  · rintro rfl hv
    exact hstored (by rw [eventWrite, yesNo_of_le hv]; rfl)
  · rintro rfl hv
    exact hrefused (by rw [eventWrite, yesNo_eq_none hv]; rfl)
  · rintro rfl hv
    exact hstored (if_pos hv)
  · rintro rfl hv
    exact hrefused (if_neg (by omega))

end Sys2Proof.Proofs.FieldWrites
/-! The frames compose: what one operation leaves as it was, and a next one, stays through both.  A reason put in a block set, a
bay's elements and its direction are no table and no setting. -/

namespace Sys2Proof.Proofs.FrameRules

open Sys2Proof.Machine Sys2Proof.Safety

section trans
variable {s t u : State}

theorem onlyMeasures_refl (s : State) : OnlyMeasures s s := onlyMeasures_of_mask rfl

theorem onlyMeasures_trans (h : OnlyMeasures s t) (k : OnlyMeasures t u) : OnlyMeasures s u where
  sources := k.sources.trans h.sources
  groups := k.groups.trans h.groups
  curves := k.curves.trans h.curves
  capabilities := k.capabilities.trans h.capabilities
  regime := (congrArg (fun f : Fru => { f with stack := s.fru.stack }) k.regime).trans h.regime
  huntTable := k.huntTable.trans h.huntTable
  requests := (congrArg (fun f : Mgu => { f with part := s.mgu.part }) k.requests).trans h.requests
  ring := (congrArg (fun f : Riu => { f with outPlaces := s.riu.outPlaces }) k.ring).trans h.ring
  pins := k.pins.trans h.pins
  mono := k.mono.trans h.mono
  pending := k.pending.trans h.pending
  segments := k.segments.trans h.segments
  readouts := k.readouts.trans h.readouts
  reports := ⟨k.reports.1.trans h.reports.1, k.reports.2.trans h.reports.2⟩
  factors := fun f => ⟨(k.factors f).1.trans (h.factors f).1, (k.factors f).2.trans (h.factors f).2⟩
  channels := fun c => by
    obtain ⟨ht, hb, hp, hl, hr⟩ := h.channels c
    obtain ⟨kt, kb, kp, kl, kr⟩ := k.channels c
    exact ⟨kt.trans ht, kb.trans hb, kp.trans hp, kl.trans hl, kr.trans hr⟩

theorem onlyControl_trans (h : OnlyControl s t) (k : OnlyControl t u) : OnlyControl s u where
  toOnlyMeasures := onlyMeasures_trans h.toOnlyMeasures k.toOnlyMeasures
  meu := k.meu.trans h.meu
  efu := k.efu.trans h.efu
  latest := k.latest.trans h.latest
  counts := fun b => (k.counts b).trans (h.counts b)

theorem onlyHunt_trans (h : OnlyHunt s t) (k : OnlyHunt t u) : OnlyHunt s u where
  toOnlyControl := onlyControl_trans h.toOnlyControl k.toOnlyControl
  pru := k.pru.trans h.pru
  status := k.status.trans h.status
  backup := k.backup.trans h.backup
  part := k.part.trans h.part

theorem onlySlots_trans (h : OnlySlots s t) (k : OnlySlots t u) : OnlySlots s u where
  toOnlyHunt := onlyHunt_trans h.toOnlyHunt k.toOnlyHunt
  fru := k.fru.trans h.fru
  hnc := k.hnc.trans h.hnc
  records := by
    obtain ⟨ht, hc, hn⟩ := h.records
    obtain ⟨kt, kc, kn⟩ := k.records
    exact ⟨kt.trans ht, kc.trans hc, kn.trans hn⟩
  bare := fun i => (k.bare i).trans (h.bare i)

end trans

theorem addReason_onlySlots (s : State) (b : Bay) (r : BlockReason) : OnlySlots s (s.addReason b r) :=
  onlySlots_of_maskR (s.addReason_maskR b r)

theorem removeReason_onlySlots (s : State) (b : Bay) (r : BlockReason) : OnlySlots s (s.removeReason b r) :=
  onlySlots_of_maskR (s.removeReason_maskR b r)

end Sys2Proof.Proofs.FrameRules
/-! What each update of the bay status leaves in the status of every record: its own field of its own record, and nothing else
(R43 to R49). -/

namespace Sys2Proof.Proofs.StatusRules

open Sys2Proof.Machine Sys2Proof.Safety Sys2Proof.Proofs.FrameRules

theorem put_look_self {α : Type} {n : Nat} (v : Vector α n) (i : Fin n) : v.put i (v.look i) = v :=
  Vector.ext_look fun j => by
    rw [Vector.look_put]
    split
    · next e => rw [e]
    · rfl

theorem setStatus_self (s : State) (n : Rec) : s.setStatus n (s.status n) = s := by
  unfold State.setStatus State.status
  rw [put_look_self]

theorem setStatus_status (s : State) (n m : Rec) (x : BayStatus) :
    (s.setStatus n x).status m = if n = m then x else s.status m := Vector.look_put _ _ _ _

theorem status_of_eq {s t : State} (h : t.bcu.status = s.bcu.status) (m : Rec) : t.status m = s.status m :=
  congrArg (fun v => Vector.look v m) h

/-- The slots, the reclose controller, the hunt and the end of a command leave the bay status. -/
theorem closedC_status (v : Vector BayStatus 9) : ClosedC (fun t => t.bcu.status = v) := by
  refine' {
    blind := fun s t h hs => (congrArg Bcu.status (State.maskE_bcu h)).trans hs
    .. }
  all_goals intros; assumption

theorem addReason_status (s : State) (b : Bay) (r : BlockReason) : (s.addReason b r).bcu.status = s.bcu.status :=
  (addReason_onlySlots s b r).status

theorem removeReason_status (s : State) (b : Bay) (r : BlockReason) : (s.removeReason b r).bcu.status = s.bcu.status :=
  (removeReason_onlySlots s b r).status

theorem toggleReason_status (s : State) (b : Bay) (r : BlockReason) (on : Bool) :
    (if on then s.addReason b r else s.removeReason b r).bcu.status = s.bcu.status :=
  ite_both (P := fun t : State => t.bcu.status = s.bcu.status) (addReason_status _ _ _) (removeReason_status _ _ _)

theorem localChanged_status (s : State) (n : Rec) (on : Bool) : (s.localChanged n on).bcu.status = s.bcu.status := by
  have hP := closedC_status s.bcu.status
  have hreason : (match recBay n with
      | some b => if on then s.addReason b .localMode else s.removeReason b .localMode
      | none => s).bcu.status = s.bcu.status := by
    split
    · exact toggleReason_status _ _ _ _
    · rfl
  unfold State.localChanged
  refine hP.occur (ite_both (P := fun t : State => t.bcu.status = s.bcu.status) (hP.withdrawAll ?_) ?_) <;> exact hreason

theorem interlockChanged_status (s : State) (n : Rec) (on : Bool) :
    (s.interlockChanged n on).bcu.status = s.bcu.status := by
  have hP := closedC_status s.bcu.status
  have hreason : (match recBay n with
      | some b => if on then s.addReason b .interlock else s.removeReason b .interlock
      | none => s).bcu.status = s.bcu.status := by
    split
    · exact toggleReason_status _ _ _ _
    · rfl
  unfold State.interlockChanged
  refine hP.occur (ite_both (P := fun t : State => t.bcu.status = s.bcu.status) (hP.withdrawCloses ?_) ?_) <;> exact hreason

theorem storePosition_held {s : State} {n : Rec} : s.storePosition n (s.status n).position = s := if_pos (beq_self_eq_true _)

theorem storePosition_status (s : State) (n : Rec) (p : Position) :
    (s.storePosition n p).bcu.status = (s.setStatus n { s.status n with position := p }).bcu.status := by
  unfold State.storePosition
  dsimp only
  split
  · next h => rw [← beq_iff_eq.mp h]; exact congrArg (fun t : State => t.bcu.status) (setStatus_self s n).symm
  · have hP := closedC_status (s.setStatus n { s.status n with position := p }).bcu.status
    split
    · exact hP.hncPosition (hP.rccPosition rfl)
    · rfl

theorem storeSpring_held {s : State} {n : Rec} : s.storeSpring n (s.status n).spring = s := if_pos (beq_self_eq_true _)

theorem storeSpring_status (s : State) (n : Rec) (v : Bool) :
    (s.storeSpring n v).bcu.status = (s.setStatus n { s.status n with spring := v }).bcu.status := by
  unfold State.storeSpring
  dsimp only
  split
  · next h => rw [← beq_iff_eq.mp h]; exact congrArg (fun t : State => t.bcu.status) (setStatus_self s n).symm
  · have hP := closedC_status (s.setStatus n { s.status n with spring := v }).bcu.status
    split
    · exact ite_both (P := fun t : State => t.bcu.status = _) (hP.springCharged rfl) rfl
    · rfl

theorem judgePresence_status (s : State) (n : Rec) :
    (s.judgePresence n).bcu.status = (s.setStatus n { s.status n with presence := s.presentNow n }).bcu.status := by
  unfold State.judgePresence
  dsimp only
  split
  · next h => rw [← beq_iff_eq.mp h]; exact congrArg (fun t : State => t.bcu.status) (setStatus_self s n).symm
  · have hP := closedC_status (s.setStatus n { s.status n with presence := s.presentNow n }).bcu.status
    exact ite_both (P := fun t : State => t.bcu.status = _) (hP.lamp (hP.occur rfl)) (hP.occur rfl)

theorem storeInputs_held {s : State} {n : Rec} :
    s.storeInputs n (s.status n).localMode (s.status n).interlock = s := by
  unfold State.storeInputs
  dsimp only
  rw [if_pos (beq_self_eq_true _), if_pos (beq_self_eq_true _)]
  exact setStatus_self s n

theorem storeInputs_status (s : State) (n : Rec) (l i : Bool) :
    (s.storeInputs n l i).bcu.status = (s.setStatus n { s.status n with localMode := l, interlock := i }).bcu.status := by
  unfold State.storeInputs
  dsimp only
  refine ite_both (P := fun t : State => t.bcu.status = _) ?_ ((interlockChanged_status _ _ _).trans ?_) <;>
  exact ite_both (P := fun t : State => t.bcu.status = _) rfl (localChanged_status _ _ _)

end Sys2Proof.Proofs.StatusRules
/-! Writes to the capability table and of record 8's address: the rows of R41 in their order, and what a changed field does (R42). -/

namespace Sys2Proof.Proofs.CapabilityWrites

open Sys2Proof.Machine Sys2Proof.Safety Sys2Proof.Proofs.CaptureOps Sys2Proof.Proofs.TableWrites Sys2Proof.Proofs.FrameRules
  Sys2Proof.Proofs.FireInvariant Sys2Proof.Proofs.StatusRules

/-! ### The rows of R41 -/

section rows
variable {s : State} {n : Rec} {k v : Nat}

theorem addrTaken_iff : s.addrTaken n v = true ↔
    v = s.riu.own.toNat ∨ ∃ m, m ≠ n ∧ (s.cap m).addr = some v := by
  unfold State.addrTaken
  rw [Bool.or_eq_true, any_iff_exists Requests.mem_allRecs, beq_iff_eq, or_comm]
  simp only [Bool.and_eq_true, bne_iff_ne, beq_iff_eq]

theorem capabilityWrite_addr_range (h : v = 0 ∨ 62 < v) : s.capabilityWrite n 0 v = .error .badArg := if_pos h

theorem capabilityWrite_addr_taken (hrange : 1 ≤ v ∧ v ≤ 62) (h : s.addrTaken n v = true) :
    s.capabilityWrite n 0 v = .error .conflict := (if_neg (by omega)).trans (if_pos h)

theorem capabilityWrite_addr_stored (hrange : 1 ≤ v ∧ v ≤ 62) (h : ¬ s.addrTaken n v = true) :
    s.capabilityWrite n 0 v = .ok { s.cap n with addr := some v } := (if_neg (by omega)).trans (if_neg h)

theorem capabilityWrite_service_unset (h : (s.cap n).addr = none) : s.capabilityWrite n 1 1 = .error .badArg :=
  if_pos (by rw [h]; rfl)

theorem capabilityWrite_service_off : s.capabilityWrite n 1 0 = .ok { s.cap n with inService := false } := rfl

theorem capabilityWrite_service_on (h : (s.cap n).addr ≠ none) :
    s.capabilityWrite n 1 1 = .ok { s.cap n with inService := true } := if_neg (by simp [h])

/-- A value above 1 of a yes or no field is refused (log entry 13). -/
theorem capabilityWrite_yesNo_range (hk : 1 ≤ k) (hv : 1 < v) : s.capabilityWrite n k v = .error .badArg := by
  unfold State.capabilityWrite
  rw [yesNo_eq_none hv]
  split
  · omega
  iterate 6 contradiction
  rfl

/-- The five fields of a bay's equipment take yes or no. -/
theorem capabilityWrite_field (hv : v ≤ 1) :
    s.capabilityWrite n 2 v = .ok { s.cap n with recloseCap := v == 1 } ∧
    s.capabilityWrite n 3 v = .ok { s.cap n with sefCap := v == 1 } ∧
    s.capabilityWrite n 4 v = .ok { s.cap n with hasLocal := v == 1 } ∧
    s.capabilityWrite n 5 v = .ok { s.cap n with hasInterlock := v == 1 } ∧
    s.capabilityWrite n 6 v = .ok { s.cap n with hasSpring := v == 1 } := by
  simp only [State.capabilityWrite, yesNo_of_le hv, and_self]

theorem capabilityWrite_field_ok (hk : 1 < k) (hk6 : k ≤ 6) (hv : v ≤ 1) : ∃ c, s.capabilityWrite n k v = .ok c := by
  obtain ⟨h2, h3, h4, h5, h6⟩ := capabilityWrite_field (s := s) (n := n) hv
  obtain rfl | rfl | rfl | rfl | rfl : k = 2 ∨ k = 3 ∨ k = 4 ∨ k = 5 ∨ k = 6 := by omega
  · exact ⟨_, h2⟩
  · exact ⟨_, h3⟩
  · exact ⟨_, h4⟩
  · exact ⟨_, h5⟩
  · exact ⟨_, h6⟩

theorem judgeCapability_protecting (r : Except ResultCode Capability) (h : s.protecting = true) :
    s.judgeCapability n r = (s, .state) := if_pos h

section idle
variable (hidle : ¬ s.protecting = true)
include hidle

theorem judgeCapability_error (c : ResultCode) : s.judgeCapability n (.error c) = (s, c) := if_neg hidle

theorem judgeCapability_busy (x : Capability) (h : (s.slot n).busy = true) : s.judgeCapability n (.ok x) = (s, .busy) :=
  (if_neg hidle).trans (if_pos h)

theorem judgeCapability_stored (x : Capability) (h : ¬ (s.slot n).busy = true) :
    s.judgeCapability n (.ok x) = (s.storeCapability n x, .ok) := (if_neg hidle).trans (if_neg h)

end idle

theorem writeTable2_eq {addr : BitVec 8} (ha : addr.toNat ≤ 6) : s.writeTable2 addr v n = s.judgeCapability n
    (if n = 8 ∧ 1 < addr.toNat then .error .badArg else s.capabilityWrite n addr.toNat v) :=
  if_neg (by simp [writableAddr, ha])

end rows

/-- Settles O14, by the rows of R41 in their order. -/
theorem capabilityWriteRefused : Obligations.CapabilityWriteRefused := by
  intro s p addr imm h ha
  have hexec : ∀ {r : Except ResultCode Capability} {c : ResultCode},
      (if p.context = 8 ∧ 1 < addr.toNat then .error .badArg
        else s.capabilityWrite p.context addr.toNat (valueOf p imm).toNat) = r →
      (consumed s p).judgeCapability p.context r = (consumed s p, c) →
      exec (.writeCapability addr imm) s = .next ((consumed s p).opDone (refuse c)) := fun hr hc =>
    exec_of_write rfl h ((writeTable2_eq (s := consumed s p) ha).trans
      ((congrArg ((consumed s p).judgeCapability p.context) hr).trans hc))
  dsimp only
  simp only [← protecting_iff, ← addrTaken_iff]
  have herror : ¬ s.protecting = true → ∀ {c : ResultCode}, (if p.context = 8 ∧ 1 < addr.toNat then .error .badArg
        else s.capabilityWrite p.context addr.toNat (valueOf p imm).toNat) = Except.error c →
      exec (.writeCapability addr imm) s = .next ((consumed s p).opDone (refuse c)) := fun hidle _ hr =>
    hexec hr (judgeCapability_error (s := consumed s p) hidle _)
  have hbusy : ¬ s.protecting = true → (s.slot p.context).busy = true → ∀ {x : Capability},
      (if p.context = 8 ∧ 1 < addr.toNat then .error .badArg
        else s.capabilityWrite p.context addr.toNat (valueOf p imm).toNat) = Except.ok x →
      exec (.writeCapability addr imm) s = .next ((consumed s p).opDone (refuse .busy)) := fun hidle hbusy _ hr =>
    hexec hr (judgeCapability_busy (s := consumed s p) hidle _ hbusy)
  refine ⟨fun hp => hexec rfl (judgeCapability_protecting (s := consumed s p) _ hp), fun hidle hn hk => ?_,
    fun hidle hk hv => ?_, fun hidle hk hlo hhi htaken => ?_, fun hidle hk hv hunset => ?_, fun hidle hk hv => ?_,
    fun hidle hk hlo hhi hfree hin => ?_, fun hidle hk hv hin => ?_, fun hidle hn hk hv hin => ?_⟩
  · exact herror hidle (if_pos ⟨hn, hk⟩)
  · exact herror hidle ((if_neg (by omega)).trans (hk ▸ capabilityWrite_addr_range hv))
  · exact herror hidle ((if_neg (by omega)).trans (hk ▸ capabilityWrite_addr_taken ⟨hlo, hhi⟩ htaken))
  · exact herror hidle ((if_neg (by omega)).trans (by rw [hk, hv]; exact capabilityWrite_service_unset hunset))
  · refine herror hidle ?_
    rw [capabilityWrite_yesNo_range hk hv, ite_self]
  · exact hbusy hidle hin ((if_neg (by omega)).trans (hk ▸ capabilityWrite_addr_stored ⟨hlo, hhi⟩ hfree))
  · rcases hv with hv | ⟨hv, hset⟩
    · exact hbusy hidle hin ((if_neg (by omega)).trans (by rw [hk, hv]; exact capabilityWrite_service_off))
    · exact hbusy hidle hin ((if_neg (by omega)).trans (by rw [hk, hv]; exact capabilityWrite_service_on hset))
  · obtain ⟨x, hx⟩ := capabilityWrite_field_ok (s := s) (n := p.context) hk ha hv
    exact hbusy hidle hin ((if_neg fun hc => hn hc.1).trans hx)

/-! ### What an accepted write does (R42) -/

section stored
variable {s : State} {n : Rec} {c old new : Capability}

/-- Where the record has the same inputs as before, nothing is gated anew. -/
theorem regateInputs_same (hlocal : old.hasLocal = new.hasLocal) (hinterlock : old.hasInterlock = new.hasInterlock)
    (hspring : old.hasSpring = new.hasSpring) : s.regateInputs n old new = s := by
  unfold State.regateInputs
  dsimp only
  rw [hlocal, hinterlock, hspring, Bool.and_not_self, Bool.and_not_self, if_pos (beq_self_eq_true _)]
  exact storeInputs_held

theorem storeCapability_held : s.storeCapability n (s.cap n) = s.setCap n (s.cap n) := by
  simp [State.storeCapability, regateInputs_same]

theorem statusAfresh_only (s : State) (n : Rec) : OnlyMeasures s (s.statusAfresh n) := by
  have hP := closedB_mask s
  refine onlyMeasures_of_mask (State.maskM_of_maskB ?_)
  unfold State.statusAfresh
  dsimp only
  exact hP.storeInputs (hP.judgePresence (hP.status _ _ _ (hP.storeSpring (hP.storePosition rfl))))

theorem serviceChanged_only (s : State) (n : Rec) : OnlyMeasures s (s.serviceChanged n) := by
  refine onlyMeasures_of_mask ?_
  unfold State.serviceChanged
  split
  · exact ite_both (P := fun t : State => t.maskM = s.maskM) rfl rfl
  · rfl

theorem recloseCapChanged_only (s : State) (n : Rec) : OnlyMeasures s (s.recloseCapChanged n) := by
  unfold State.recloseCapChanged
  split
  · exact ite_both (removeReason_onlySlots _ _ _).toOnlyMeasures (addReason_onlySlots _ _ _).toOnlyMeasures
  · exact onlyMeasures_refl s

theorem regateInputs_only (s : State) (n : Rec) (old new : Capability) : OnlyMeasures s (s.regateInputs n old new) := by
  have hP := closedB_mask s
  refine onlyMeasures_of_mask (State.maskM_of_maskB ?_)
  unfold State.regateInputs
  dsimp only
  exact ite_both (P := fun t : State => t.maskB = s.maskB) (hP.storeInputs rfl) (hP.storeSpring (hP.storeInputs rfl))

theorem onlyMeasures_ite {b : Bool} {t u : State} (h : OnlyMeasures s t) (hu : OnlyMeasures t u) :
    OnlyMeasures s (if b then t else u) := ite_both h (onlyMeasures_trans h hu)

theorem storeCapability_only (s : State) (n : Rec) (c : Capability) :
    OnlyMeasures (s.setCap n c) (s.storeCapability n c) := by
  unfold State.storeCapability
  dsimp only
  exact onlyMeasures_trans (onlyMeasures_ite (onlyMeasures_ite (onlyMeasures_ite (onlyMeasures_refl _)
    (statusAfresh_only _ _)) (serviceChanged_only _ _)) (recloseCapChanged_only _ _)) (regateInputs_only _ _ _ _)

/-- A changed ring address alone starts the bay status afresh. -/
theorem storeCapability_addr {a : Option Nat} (h : (s.cap n).addr ≠ a) :
    s.storeCapability n { s.cap n with addr := a } = (s.setCap n { s.cap n with addr := a }).statusAfresh n := by
  simp [State.storeCapability, regateInputs_same, h]

/-- The bay status after a fresh start: no field of the old address is left but the indicator. -/
theorem statusAfresh_status (s : State) (n : Rec) : ∃ presence, (s.statusAfresh n).status n =
    { s.status n with position := .unknown, spring := false, reported := .unknown, silence := none,
                      springReported := false, presence := presence, localMode := false, interlock := false } := by
  unfold State.statusAfresh
  dsimp only
  rw [status_of_eq (storeInputs_status _ _ _ _), setStatus_status, if_pos rfl,
    status_of_eq (judgePresence_status _ _), setStatus_status, if_pos rfl, setStatus_status, if_pos rfl,
    status_of_eq (storeSpring_status _ _ _), setStatus_status, if_pos rfl,
    status_of_eq (storePosition_status _ _ _), setStatus_status, if_pos rfl]
  exact ⟨_, rfl⟩

theorem storeCapability_addr_status {a : Option Nat} (h : (s.cap n).addr ≠ a) :
    ∃ presence, (s.storeCapability n { s.cap n with addr := a }).status n =
      { s.status n with position := .unknown, spring := false, reported := .unknown, silence := none,
                        springReported := false, presence := presence, localMode := false, interlock := false } := by
  rw [storeCapability_addr h]
  exact statusAfresh_status _ _

/-- A changed reclose capable field alone sets the CAPABILITY reason. -/
theorem storeCapability_recloseCap {v : Bool} (h : (s.cap n).recloseCap ≠ v) :
    s.storeCapability n { s.cap n with recloseCap := v } =
      (s.setCap n { s.cap n with recloseCap := v }).recloseCapChanged n := by
  simp [State.storeCapability, regateInputs_same, h]

theorem blockSet_ext {x y : BlockSet} (h : ∀ r, x.has r = y.has r) : x = y := by
  obtain ⟨f, m, u, l, i, k⟩ := x
  obtain ⟨f', m', u', l', i', k'⟩ := y
  have hf := h .fire
  have hm := h .manual
  have hu := h .hunt
  have hl := h .localMode
  have hi := h .interlock
  have hk := h .capability
  simp only [BlockSet.has] at hf hm hu hl hi hk
  simp only [hf, hm, hu, hl, hi, hk]

theorem recloseCapChanged_bay (s : State) (b : Bay) : s.recloseCapChanged (bayRec b) =
    if (s.cap (bayRec b)).recloseCap then s.removeReason b .capability else s.addReason b .capability := by
  unfold State.recloseCapChanged
  rw [recBay_bayRec]

/-- The CAPABILITY reason is the opposite of reclose capable, and no other reason changes. -/
theorem recloseCapChanged_block {b : Bay} {v : Bool} (hcap : (s.cap (bayRec b)).recloseCap = v) :
    ((s.recloseCapChanged (bayRec b)).rcl b).block = { (s.rcl b).block with capability := !v } := by
  rw [recloseCapChanged_bay, hcap]
  refine blockSet_ext fun r => ?_
  have hset : (BlockSet.has { (s.rcl b).block with capability := !v } r) =
      if r = .capability then !v else (s.rcl b).block.has r := BlockSet.has_set (s.rcl b).block .capability r (!v)
  cases v with
  | true =>
    obtain ⟨hself, hother⟩ := s.removeReason_block b b .capability
    rw [hset, if_pos rfl]
    split
    · next hr => rw [hr]; exact hself.trans (if_pos rfl)
    · next hr => exact hother r hr
  | false =>
    obtain ⟨hself, hother⟩ := s.addReason_block b b .capability
    rw [hset, if_neg Bool.false_ne_true]
    split
    · next hr => rw [hr]; exact hself.trans (if_pos rfl)
    · next hr => exact hother r hr

theorem storeCapability_recloseCap_block {b : Bay} {v : Bool} (hn : n = bayRec b) (h : (s.cap n).recloseCap ≠ v) :
    ((s.storeCapability n { s.cap n with recloseCap := v }).rcl b).block = { (s.rcl b).block with capability := !v } := by
  subst hn
  rw [storeCapability_recloseCap h]
  exact recloseCapChanged_block (congrArg Capability.recloseCap (State.setCap_cap _ _ _))

end stored

/-- Settles O15: a write that is not refused stores its record, and storeCapability acts on what it changed. -/
theorem capabilityWriteStored : Obligations.CapabilityWriteStored := by
  have hwrite : ∀ {s : State} {p : Progress} {addr : BitVec 8} {imm : BitVec 12} {k : Nat} {c : Capability},
      Runs s (.writeCapability addr imm) p → s.mgu.part = .unconfigured → (s.slot p.context).busy = false →
      addr.toNat = k → k ≤ 6 → ¬ (p.context = 8 ∧ 1 < k) →
      s.capabilityWrite p.context k (valueOf p imm).toNat = .ok c →
      exec (.writeCapability addr imm) s =
        .next (((consumed s p).storeCapability p.context c).opDone okAnswer) := by
    intro s p addr imm k c h hpart hbusy ha hk hn hc
    subst ha
    have hidle : ¬ (consumed s p).protecting = true := by simpa using unconfigured_idle (s := consumed s p) hpart
    have hr : (if p.context = 8 ∧ 1 < addr.toNat then .error .badArg
        else s.capabilityWrite p.context addr.toNat (valueOf p imm).toNat) = Except.ok c := (if_neg hn).trans hc
    exact exec_of_write rfl h ((writeTable2_eq (s := consumed s p) hk).trans
      ((congrArg ((consumed s p).judgeCapability p.context) hr).trans
        (judgeCapability_stored hidle c (by rw [Bool.not_eq_true]; exact hbusy))))
  refine ⟨fun s p addr imm h hpart hbusy => ?writes, fun s p imm h => ?backup, fun s p addr imm b h hpart hctx hbusy => ?bay⟩
  case writes =>
    have hstored : ∀ {k : Nat} {c : Capability}, addr.toNat = k → k ≤ 6 → ¬ (p.context = 8 ∧ 1 < k) →
        s.capabilityWrite p.context k (valueOf p imm).toNat = .ok c →
        ∃ t : State, exec (.writeCapability addr imm) s = .next (t.opDone okAnswer) ∧
          OnlyMeasures ((consumed s p).setCap p.context c) t ∧
          (c = s.cap p.context → t = (consumed s p).setCap p.context c) := fun {k c} ha hk hn hc =>
      ⟨_, hwrite h hpart hbusy ha hk hn hc, storeCapability_only _ _ _, fun e => by
        subst e
        exact storeCapability_held (s := consumed s p)⟩
    have hbay : p.context ≠ 8 → ∀ {k : Nat}, ¬ (p.context = 8 ∧ 1 < k) := fun hn _ hc => hn hc.1
    refine ⟨fun hk hlo hhi hown hfree => ?_, fun hk hv => ?_, fun hk hv hset => ?_, fun hn hk hv => ?_, fun hn hk hv => ?_,
      fun hn hk hv => ?_, fun hn hk hv => ?_, fun hn hk hv => ?_⟩
    · refine hstored hk (by decide) (by omega) (capabilityWrite_addr_stored ⟨hlo, hhi⟩ ?_)
      rw [addrTaken_iff]
      rintro (h | ⟨m, hm, hcap⟩)
      · exact hown h
      · exact hfree m hm hcap
    · exact hstored hk (by decide) (by omega) (by rw [hv]; exact capabilityWrite_service_off)
    · exact hstored hk (by decide) (by omega) (by rw [hv]; exact capabilityWrite_service_on hset)
    all_goals
      obtain ⟨h2, h3, h4, h5, h6⟩ := capabilityWrite_field (s := s) (n := p.context) hv
      refine hstored hk (by decide) (hbay hn) ?_
      assumption
  case backup =>
    have hexec : ∀ {r : Except ResultCode Capability} {t : State} {code : ResultCode},
        s.backupWrite (valueOf p imm).toNat = r → (consumed s p).judgeCapability 8 r = (t, code) →
        exec (.setBackupAddr imm) s = .next (t.opDone (refuse code)) := fun hr hc =>
      exec_of_write (body := fun v _ u => u.judgeCapability 8 (u.backupWrite v.toNat)) rfl h
        ((congrArg ((consumed s p).judgeCapability 8) hr).trans hc)
    have hidle : s.mgu.part = .unconfigured → ¬ (consumed s p).protecting = true := fun hpart => by
      simpa using unconfigured_idle (s := consumed s p) hpart
    have hstored : ∀ {c : Capability}, s.mgu.part = .unconfigured → (s.slot 8).busy = false →
        s.backupWrite (valueOf p imm).toNat = .ok c → ∃ t : State,
          exec (.setBackupAddr imm) s = .next (t.opDone okAnswer) ∧ OnlyMeasures ((consumed s p).setCap 8 c) t :=
      fun hpart hbusy hc => ⟨_, hexec hc (judgeCapability_stored (hidle hpart) _ (by rw [Bool.not_eq_true]; exact hbusy)),
        storeCapability_only _ _ _⟩
    refine ⟨fun hpart => hexec rfl (judgeCapability_protecting _ (protecting_iff.mpr hpart)), fun hpart hv => ?_,
      fun hpart hbusy => ⟨fun hv => hstored hpart hbusy (if_pos hv), fun hlo hhi hown hfree => ?_⟩⟩
    · exact hexec ((if_neg (by omega)).trans (capabilityWrite_addr_range (.inr hv))) (judgeCapability_error (hidle hpart) _)
    · refine hstored hpart hbusy ((if_neg (by omega)).trans (capabilityWrite_addr_stored ⟨hlo, hhi⟩ ?_))
      rw [addrTaken_iff]
      rintro (h | ⟨m, hm, hcap⟩)
      · exact hown h
      · exact hfree m hm hcap
  case bay =>
    have hnot8 : ∀ {k : Nat}, ¬ (p.context = 8 ∧ 1 < k) := fun hc => by
      have := congrArg Fin.val (hctx.symm.trans hc.1)
      simp [bayRec] at this
      omega
    rw [← hctx] at hbusy ⊢
    refine ⟨fun ha hlo hhi hown hfree hne => ?_, fun ha hv hne => ?_⟩
    · have hok : s.capabilityWrite p.context 0 (valueOf p imm).toNat = .ok _ :=
        capabilityWrite_addr_stored ⟨hlo, hhi⟩ (by
          rw [addrTaken_iff]
          rintro (h | ⟨m, hm, hcap⟩)
          · exact hown h
          · exact hfree m hm hcap)
      obtain ⟨presence, hstatus⟩ := storeCapability_addr_status (s := consumed s p) hne
      refine ⟨_, hwrite h hpart hbusy (by rw [ha]; rfl) (by decide) hnot8 hok, ?_⟩
      have hfield : ∀ {α : Type} (f : BayStatus → α), f (((consumed s p).storeCapability p.context _).status p.context) = f _ :=
        fun f => congrArg f hstatus
      exact ⟨hfield (·.position), hfield (·.localMode), hfield (·.interlock), hfield (·.spring), hfield (·.reported),
        hfield (·.silence), hfield (·.indicator)⟩
    · have hok := (capabilityWrite_field (s := s) (n := p.context) hv).1
      refine ⟨_, hwrite h hpart hbusy (by rw [ha]; rfl) (by decide) hnot8 hok, ?_⟩
      refine (storeCapability_recloseCap_block (s := consumed s p) hctx hne).trans ?_
      obtain h0 | h1 : (valueOf p imm).toNat = 0 ∨ (valueOf p imm).toNat = 1 := by omega
      · rw [h0]; rfl
      · rw [h1]; rfl

end Sys2Proof.Proofs.CapabilityWrites
/-! Writes to the fire map: the checks of R103 in their order, and what a write to the record in force does at once (R104). -/

namespace Sys2Proof.Proofs.FireMapWrites

open Sys2Proof.Machine Sys2Proof.Safety Sys2Proof.Proofs.CaptureOps Sys2Proof.Proofs.TableWrites Sys2Proof.Proofs.HuntBays

/-! ### The checks (R103) -/

section checks
variable {s : State} {addr : BitVec 8} {l : Level} {k v : Nat} (ha : addr.toNat = l.val * 32 + k) (hk : k < 32)
include ha hk

theorem writeTable8_badArg (hx : fireWrite (s.fru.fireMap.look l) k v = none) : s.writeTable8 addr v = (s, .badArg) := by
  simp only [State.writeTable8, addrIndex_of ha hk, addrField_of ha hk, hx]

theorem writeTable8_locked {x : FireRecord} (hx : fireWrite (s.fru.fireMap.look l) k v = some x)
    (hlock : s.fru.seasonLock = true) : s.writeTable8 addr v = (s, .locked) := by
  simp only [State.writeTable8, addrIndex_of ha hk, addrField_of ha hk, hx, hlock, if_true]

variable {x : FireRecord} (hx : fireWrite (s.fru.fireMap.look l) k v = some x) (hfree : s.fru.seasonLock = false)
include hx hfree

theorem writeTable8_invalid (h : s.fireGroupRefused l k x = true) : s.writeTable8 addr v = (s, .invalidTable) := by
  simp only [State.writeTable8, addrIndex_of ha hk, addrField_of ha hk, hx, hfree, h, Bool.false_eq_true, if_false, if_true]

theorem writeTable8_stored (h : s.fireGroupRefused l k x = false) : s.writeTable8 addr v = (s.storeFire l k x, .ok) := by
  simp only [State.writeTable8, addrIndex_of ha hk, addrField_of ha hk, hx, hfree, h, Bool.false_eq_true, if_false]

end checks

section fields
variable {x : FireRecord} {k v : Nat}

/-- A value outside the range of its field. -/
def FireOutOfRange (k v : Nat) : Prop :=
  (k = 0 ∧ 5 < v ∧ v ≠ 255) ∨ (k = 1 ∧ 255 < v) ∨ (k = 2 ∧ 4 < v) ∨ (k = 3 ∧ 1 < v) ∨ (k = 4 ∧ 12000 < v)

theorem fireWrite_outOfRange (h : FireOutOfRange k v) : fireWrite x k v = none := by
  rcases h with ⟨rfl, hv, hne⟩ | ⟨rfl, hv⟩ | ⟨rfl, hv⟩ | ⟨rfl, hv⟩ | ⟨rfl, hv⟩
  · rw [fireWrite, indexOrNone_eq_none hv hne]; rfl
  · exact if_neg (by omega)
  · exact if_neg (by omega)
  · rw [fireWrite, yesNo_eq_none hv]; rfl
  · exact if_neg (by omega)

theorem fireWrite_group {g : GroupNo} (hg : g.val = v) : fireWrite x 0 v = some { x with group := some g } := by
  rw [fireWrite, indexOrNone_named (by decide) hg]
  rfl

theorem fireWrite_fastAll (hv : v ≤ 1) : fireWrite x 3 v = some { x with fastAll := v == 1 } := by
  rw [fireWrite, yesNo_of_le hv]
  rfl

theorem fireWrite_inRange (hk : k ≤ 4) (h : ¬ FireOutOfRange k v) : ∃ y, fireWrite x k v = some y := by
  unfold FireOutOfRange at h
  obtain rfl | rfl | rfl | rfl | rfl : k = 0 ∨ k = 1 ∨ k = 2 ∨ k = 3 ∨ k = 4 := by omega
  · obtain hv | hv : v = 255 ∨ v < 6 := by omega
    · exact ⟨_, by rw [hv]; rfl⟩
    · exact ⟨_, fireWrite_group (g := ⟨v, hv⟩) rfl⟩
  · exact ⟨_, if_pos (by omega)⟩
  · exact ⟨_, if_pos (by omega)⟩
  · exact ⟨_, fireWrite_fastAll (by omega)⟩
  · exact ⟨_, if_pos (by omega)⟩

end fields

theorem fireGroupRefused_field {s : State} {l : Level} {k : Nat} {x : FireRecord} (hk : k ≠ 0) :
    s.fireGroupRefused l k x = false := by
  simp [State.fireGroupRefused, hk]

theorem fireGroupRefused_noGroup {s : State} {l : Level} {k : Nat} {x : FireRecord} (hx : x.group = none) :
    s.fireGroupRefused l k x = false := by
  simp [State.fireGroupRefused, hx]

/-- Settles O16: the range, the lock, and then the validity of the group of the record in force. -/
theorem fireMapWriteRefused : Obligations.FireMapWriteRefused := by
  intro s p addr imm l k h ha hk
  refine ⟨fun hbad => ?bad, fun hok hlock => ?locked, fun hfree hk0 hl hpart g hg hinvalid => ?invalid⟩
  case bad => exact exec_of_write rfl h (writeTable8_badArg (s := consumed s p) ha (by omega) (fireWrite_outOfRange hbad))
  case locked =>
    obtain ⟨y, hy⟩ := fireWrite_inRange (x := s.fru.fireMap.look l) hk hok
    exact exec_of_write rfl h (writeTable8_locked (s := consumed s p) ha (by omega) hy hlock)
  case invalid =>
    subst hk0
    refine exec_of_write rfl h (writeTable8_invalid (s := consumed s p) ha (by omega) (fireWrite_group hg) hfree ?_)
    have hinvalid' : (consumed s p).groupValid g = false := hinvalid
    have hpart' : (consumed s p).protecting = true := protecting_iff.mpr hpart
    have hl' : l = (consumed s p).fru.effective := hl
    simp [State.fireGroupRefused, hl', hpart', hinvalid']

/-! ### What an accepted write does (R104) -/

section stored
variable {s : State} {l : Level} {k : Nat} {x : FireRecord}

theorem storeFire_outside (hl : l ≠ s.fru.effective) : s.storeFire l k x = s.setFire l x := if_neg hl

theorem fireMaskWritten_cases (t : State) : t.fireMaskWritten = t.deriveFire.1 ∨
    ∃ f m d, t.fireMaskWritten = t.deriveFire.1.occur f m d := by
  unfold State.fireMaskWritten
  dsimp only
  split
  · exact .inl rfl
  · exact .inr ⟨_, _, _, rfl⟩

theorem fireMaskWritten_maskR (t : State) : t.fireMaskWritten.maskR = t.maskR := by
  rcases fireMaskWritten_cases t with h | ⟨f, m, d, h⟩
  · rw [h, State.deriveFire_maskR]
  · rw [h, State.maskR_of_maskS (State.maskS_of_maskE (State.occur_maskE _ _ _ _)), State.deriveFire_maskR]

theorem fireMaskWritten_rcl (t : State) (b : Bay) : t.fireMaskWritten.rcl b = t.deriveFire.1.rcl b := by
  rcases fireMaskWritten_cases t with h | ⟨f, m, d, h⟩
  · rw [h]
  · rw [h]
    exact congrArg (fun v => Vector.look v b) (State.maskE_rcc (State.occur_maskE _ _ _ _))

theorem storeFire_group (hl : l = s.fru.effective) (hp : s.protecting = true) :
    s.storeFire l 0 x = (s.setFire l x).changeStack (s.setFire l x).fireStep.1 .fireMapWrite :=
  (if_pos hl).trans (if_pos hp)

theorem storeFire_group_idle (hl : l = s.fru.effective) (hp : s.protecting = false) :
    s.storeFire l 0 x = s.setFire l x := (if_pos hl).trans (if_neg (by
    rw [show (s.setFire l x).protecting = false from hp]; decide))

theorem storeFire_mask (hl : l = s.fru.effective) : s.storeFire l 1 x = (s.setFire l x).fireMaskWritten :=
  if_pos hl

theorem storeFire_other (hl : l = s.fru.effective) (hk : 2 ≤ k) : s.storeFire l k x = (s.setFire l x).rejudgeWaiting := by
  obtain ⟨j, rfl⟩ := Nat.exists_eq_add_of_le' hk
  exact if_pos hl

theorem sameReasons_of_block {s t : State} (h : ∀ b, (t.rcl b).block = (s.rcl b).block) (rs : List BlockReason) :
    SameReasons rs s t := fun b r _ => by rw [h b]

/-- What a write to the record in force leaves, with its effect on the stack or on the FIRE reasons. -/
theorem storeFire_acts (hl : l = s.fru.effective) :
    OnlyHunt (s.setFire l x) (s.storeFire l k x) ∧ (s.storeFire l k x).hnc = s.hnc ∧
    SameReasons [.hunt, .manual, .localMode, .interlock, .capability] s (s.storeFire l k x) ∧
    (k ≠ 0 → (s.storeFire l k x).fru.stack = s.fru.stack) ∧ (k ≠ 1 → SameReasons [.fire] s (s.storeFire l k x)) ∧
    (k = 1 → ∀ b, ((s.storeFire l k x).rcl b).block.fire = (s.runs b && x.mask.getLsbD b.val)) ∧
    (k = 0 → s.protecting = true → (s.storeFire l k x).fru.stack = (s.setFire l x).fireStep.1) ∧
    (k = 0 → s.protecting = false → s.storeFire l k x = s.setFire l x) := by
  obtain rfl | rfl | hk : k = 0 ∨ k = 1 ∨ 2 ≤ k := by omega
  · cases hp : s.protecting with
    | true =>
      rw [storeFire_group hl hp]
      have hmask := changeStack_maskS (s.setFire l x) (s.setFire l x).fireStep.1 .fireMapWrite
      have hblock := fun b => changeStack_block (s.setFire l x) (s.setFire l x).fireStep.1 .fireMapWrite b
      exact ⟨onlyHunt_of_mask ((State.maskH_of_maskS hmask).trans rfl), changeStack_hnc _ _ _, sameReasons_of_block hblock _,
        fun h => absurd rfl h, fun _ => sameReasons_of_block hblock _, nofun,
        fun _ _ => by rw [changeStack_fru], nofun⟩
    | false =>
      rw [storeFire_group_idle hl hp]
      exact ⟨onlyHunt_of_mask rfl, rfl, fun _ _ _ => rfl, fun _ => rfl, fun _ _ _ _ => rfl, nofun, nofun, fun _ _ => rfl⟩
  · rw [storeFire_mask hl]
    have honly := onlySlots_of_maskR (fireMaskWritten_maskR (s.setFire l x))
    refine ⟨honly.toOnlyHunt, honly.hnc, fun b r hr => ?_, fun _ => by rw [honly.fru]; rfl, fun h => absurd rfl h,
      fun _ b => ?_, nofun, nofun⟩
    · rw [fireMaskWritten_rcl]
      exact (s.setFire l x).deriveFire_other b r (by rintro rfl; revert hr; decide)
    · rw [fireMaskWritten_rcl, State.deriveFire_fire]
      have hrecord : (s.setFire l x).fireRecord = x := by
        unfold State.fireRecord State.setFire
        dsimp only
        rw [hl, Vector.look_put_same]
      unfold State.shouldBurn
      rw [hrecord]
      rfl
  · rw [storeFire_other hl hk]
    have hmask := (s.setFire l x).rejudgeWaiting_maskS
    have hblock := fun b => State.maskS_block hmask b
    exact ⟨onlyHunt_of_mask (State.maskH_of_maskS hmask), State.maskS_hnc (s := s.setFire l x) hmask, sameReasons_of_block hblock _,
      fun _ => by rw [State.maskS_fru hmask]; rfl, fun _ => sameReasons_of_block hblock _,
      fun h => by omega, fun h => by omega, fun h => by omega⟩

end stored

/-- Settles O17: a write that is not refused is stored, and storeFire acts where the record is in force. -/
theorem fireMapWriteStored : Obligations.FireMapWriteStored := by
  intro s p addr imm l k h ha hfree
  have hstored : ∀ {x : FireRecord}, k < 32 → fireWrite (s.fru.fireMap.look l) k (valueOf p imm).toNat = some x →
      s.fireGroupRefused l k x = false →
      (l ≠ s.fru.effective → exec (.writeFireMap addr imm) s = .next (((consumed s p).setFire l x).opDone okAnswer)) ∧
      (l = s.fru.effective → ∃ t : State, exec (.writeFireMap addr imm) s = .next (t.opDone okAnswer) ∧
        OnlyHunt ((consumed s p).setFire l x) t ∧ t.hnc = s.hnc ∧
        SameReasons [.hunt, .manual, .localMode, .interlock, .capability] s t ∧
        (k ≠ 0 → t.fru.stack = s.fru.stack) ∧ (k ≠ 1 → SameReasons [.fire] s t) ∧
        (k = 1 → ∀ b, (t.rcl b).block.fire = (s.runs b && x.mask.getLsbD b.val)) ∧
        (k = 0 → s.protecting = true → t.fru.stack = ((consumed s p).setFire l x).fireStep.1) ∧
        (k = 0 → s.protecting = false → t = (consumed s p).setFire l x)) := by
    intro x hk hx hok
    have hexec : exec (.writeFireMap addr imm) s = .next (((consumed s p).storeFire l k x).opDone okAnswer) :=
      exec_of_write rfl h (writeTable8_stored (s := consumed s p) ha hk hx hfree hok)
    exact ⟨fun hl => hexec.trans (by rw [storeFire_outside (s := consumed s p) hl]), fun hl => ⟨_, hexec, storeFire_acts (s := consumed s p) hl⟩⟩
  refine ⟨?_, ?_, ?_, ?_, ?_, ?_⟩
  · rintro rfl hv
    exact hstored (by decide) (by rw [hv]; rfl) (fireGroupRefused_noGroup rfl)
  · rintro rfl g hg hvalid
    refine hstored (by decide) (fireWrite_group hg) ?_
    rcases hvalid with hvalid | hl | hpart
    · simp [State.fireGroupRefused, hvalid]
    · simp [State.fireGroupRefused, hl]
    · simp [State.fireGroupRefused, unconfigured_idle hpart]
  · rintro rfl hv
    exact hstored (by decide) (if_pos hv) (fireGroupRefused_field (by decide))
  · rintro rfl hv
    exact hstored (by decide) (if_pos hv) (fireGroupRefused_field (by decide))
  · rintro rfl hv
    exact hstored (by decide) (fireWrite_fastAll hv) (fireGroupRefused_field (by decide))
  · rintro rfl hv
    exact hstored (by decide) (if_pos hv) (fireGroupRefused_field (by decide))

end Sys2Proof.Proofs.FireMapWrites
/-! Accepted writes to the source table: the stored entry, and the fresh start of a source that was or is in use (R1). -/

namespace Sys2Proof.Proofs.SourceStart

open Sys2Proof.Machine Sys2Proof.Safety Sys2Proof.Proofs.TableWrites Sys2Proof.Proofs.FrameRules

/-- The context of every source is the measurement's own: no consumer of a source touches it. -/
theorem closedN_ctx (v : Vector SourceCtx 12) : ClosedN (fun t => t.meu.ctx = v) := by
  refine' { blind := fun s t h hs => (congrArg Meu.ctx (State.maskE_meu h)).trans hs, .. }
  all_goals intros; assumption

/-- What a role's consumers forget of its source. -/
def forget (r : Option Role) (t : State) : State :=
  match r with
  | some (.bay b) => t.emptyBay b
  | some .bus => { t with meu := { t.meu with latestBus := none } }
  | none => t

/-- The source's own part of a fresh start, before its two roles forget it. -/
def restarted (s : State) (e : SrcIx) (r : Option Role) : State :=
  let t := s.setCtx e SourceCtx.fresh
  if (s.ctx e).state == .valid then t.leaveValid r else t

theorem startAfresh_eq (s : State) (e : SrcIx) (r : Option Role) :
    s.startAfresh e r = forget (s.src e).role (forget r (restarted s e r)) := rfl

section forget
variable {t : State} {r : Option Role} {b c : Bay}

theorem forget_ctx (r : Option Role) (t : State) : (forget r t).meu.ctx = t.meu.ctx := by
  unfold forget
  split <;> rfl

/-- The bay's history ring and waiting list are empty. -/
def BayEmpty (t : State) (b : Bay) : Prop := t.meu.history.look b = [] ∧ t.meu.waiting.look b = []

theorem emptyBay_empty (t : State) (b c : Bay) (h : b = c ∨ BayEmpty t c) : BayEmpty (t.emptyBay b) c := by
  have hput : ∀ v : Vector (List Instant) 8, b = c ∨ v.look c = [] → (v.put b []).look c = [] := fun v hv => by
    rw [Vector.look_put]
    split
    · rfl
    · next hne => exact hv.resolve_left hne
  exact ⟨hput _ (h.imp_right (·.1)), hput _ (h.imp_right (·.2))⟩

theorem forget_empties (h : r = some (.bay c) ∨ BayEmpty t c) : BayEmpty (forget r t) c := by
  unfold forget
  split
  · next b => exact emptyBay_empty t b c (h.imp_left fun e => by simpa using e)
  · exact h.resolve_left nofun
  · exact h.resolve_left nofun

theorem forget_latestBus (h : r = some .bus ∨ t.meu.latestBus = none) : (forget r t).meu.latestBus = none := by
  unfold forget
  split
  · exact h.resolve_left nofun
  · rfl
  · exact h.resolve_left nofun

end forget

section start
variable {s : State} {e : SrcIx} {r : Option Role}

theorem startAfresh_ctx (s : State) (e f : SrcIx) (r : Option Role) :
    (s.startAfresh e r).ctx f = if e = f then SourceCtx.fresh else s.ctx f := by
  have hctx : (s.startAfresh e r).meu.ctx = (s.setCtx e SourceCtx.fresh).meu.ctx := by
    have hP := closedN_ctx (s.setCtx e SourceCtx.fresh).meu.ctx
    rw [startAfresh_eq, forget_ctx, forget_ctx]
    exact ite_both (P := fun t : State => t.meu.ctx = _) (hP.leaveValid rfl) rfl
  exact (congrArg (fun v => Vector.look v f) hctx).trans (Vector.look_put _ _ _ _)

theorem startAfresh_empties {b : Bay} (h : r = some (.bay b) ∨ (s.src e).role = some (.bay b)) :
    BayEmpty (s.startAfresh e r) b := by
  rw [startAfresh_eq]
  rcases h with h | h
  · exact forget_empties (.inr (forget_empties (.inl h)))
  · exact forget_empties (.inl h)

theorem startAfresh_latestBus (h : r = some .bus ∨ (s.src e).role = some .bus) :
    (s.startAfresh e r).meu.latestBus = none := by
  rw [startAfresh_eq]
  rcases h with h | h
  · exact forget_latestBus (.inr (forget_latestBus (.inl h)))
  · exact forget_latestBus (.inl h)

end start

section stored
variable {s : State} {e : SrcIx} {x : SourceEntry}

/-- The state with an entry of the source table replaced. -/
def putSource (s : State) (e : SrcIx) (x : SourceEntry) : State :=
  { s with meu := { s.meu with table := s.meu.table.put e x } }

theorem putSource_src : (putSource s e x).src e = x := Vector.look_put_same _ _ _

theorem storeSource_same (h : x = s.src e ∨ ((s.src e).inUse = false ∧ x.inUse = false)) :
    s.storeSource e x = putSource s e x := if_neg (by rcases h with rfl | ⟨h1, h2⟩ <;> simp [*])

theorem storeSource_changed (hne : x ≠ s.src e) (huse : (s.src e).inUse = true ∨ x.inUse = true) :
    s.storeSource e x = (putSource s e x).startAfresh e (s.src e).role :=
  if_pos (by simpa [Ne.symm hne] using huse)

theorem storeSource_only (s : State) (e : SrcIx) (x : SourceEntry) :
    OnlyMeasures (putSource s e x) (s.storeSource e x) ∧ ∀ f, f ≠ e → (s.storeSource e x).ctx f = s.ctx f := by
  by_cases hsame : x = s.src e ∨ ((s.src e).inUse = false ∧ x.inUse = false)
  · rw [storeSource_same hsame]
    exact ⟨onlyMeasures_refl _, fun _ _ => rfl⟩
  · obtain ⟨hne, huse⟩ := not_or.mp hsame
    rw [storeSource_changed hne (by
      rw [not_and_or, Bool.not_eq_false, Bool.not_eq_false] at huse
      exact huse)]
    refine ⟨onlyMeasures_of_mask ((closedM_mask _).startAfresh rfl), fun f hf => ?_⟩
    rw [startAfresh_ctx, if_neg (Ne.symm hf)]
    rfl

end stored

/-- Settles O11: a write that R1 does not refuse is stored, and startAfresh acts where the entry was or is in use. -/
theorem sourceWriteStored : Obligations.SourceWriteStored := by
  intro s p addr imm e k h ha hpart
  have hstored : ∀ {x : SourceEntry}, k ≤ 2 → s.sourceWrite e k (valueOf p imm).toNat = .ok x → ∃ t : State,
      exec (.writeSource addr imm) s = .next (t.opDone okAnswer) ∧ OnlyMeasures (putSource (consumed s p) e x) t ∧
      (∀ f, f ≠ e → t.ctx f = s.ctx f) ∧
      (x = s.src e ∨ ((s.src e).inUse = false ∧ x.inUse = false) → t = putSource (consumed s p) e x) ∧
      (x ≠ s.src e → (s.src e).inUse = true ∨ x.inUse = true →
        t.ctx e = { state := .absent, lastPos := none, missing := 0, fill := 0, lastTag := none, silence := none,
                    window := [] } ∧
        (∀ b, (s.src e).role = some (.bay b) ∨ x.role = some (.bay b) → BayEmpty t b) ∧
        ((s.src e).role = some .bus ∨ x.role = some .bus → t.meu.latestBus = none)) := by
    intro x hk hx
    obtain ⟨honly, hctx⟩ := storeSource_only (consumed s p) e x
    refine ⟨_, exec_of_write rfl h (writeTable1_stored (s := consumed s p) ha hk (unconfigured_idle hpart) hx), honly, hctx,
      fun hsame => storeSource_same (s := consumed s p) hsame, fun hne huse => ?_⟩
    rw [storeSource_changed (s := consumed s p) hne huse, startAfresh_ctx, if_pos rfl]
    have hsrc : (putSource (consumed s p) e x).src e = x := putSource_src
    exact ⟨rfl, fun b hb => startAfresh_empties (by rwa [hsrc]), fun hb => startAfresh_latestBus (by rwa [hsrc])⟩
  refine ⟨?_, ?_, ?_, ?_⟩
  · rintro rfl hlo hhi hown hfree
    exact hstored (by decide) (sourceWrite_addr_stored ⟨hlo, hhi⟩ hown hfree)
  · rintro rfl r hr hfree
    exact hstored (by decide) (sourceWrite_role_stored hr hfree)
  · rintro rfl hv
    exact hstored (by decide) (by rw [hv]; exact sourceWrite_use_off)
  · rintro rfl hv haddr hrole hfree
    exact hstored (by decide) (by rw [hv]; exact sourceWrite_use_stored haddr hrole hfree)

end Sys2Proof.Proofs.SourceStart
/-! The ops on the setting-group stack, on the season lock and on the fire level (R90 to R92, R95 to R98, R101, R102, R106, R108). -/

namespace Sys2Proof.Proofs.StackControl

open Sys2Proof.Machine Sys2Proof.Safety Sys2Proof.Proofs.BreakerFail Sys2Proof.Proofs.CaptureOps Sys2Proof.Proofs.HuntBays
  Sys2Proof.Proofs.FrameRules Sys2Proof.Proofs.FireMapWrites

/-! ### Stacks -/

section stack
variable {o : Origin} {l r : List StackEntry} {e x : StackEntry}

theorem hasOrigin_iff : hasOrigin o l = true ↔ ∃ e ∈ l, e.origin = o := by
  unfold hasOrigin
  rw [List.any_eq_true]
  simp only [beq_iff_eq]

theorem hasOrigin_eq_false (h : ¬ ∃ e ∈ l, e.origin = o) : hasOrigin o l = false := by
  rwa [← hasOrigin_iff, Bool.not_eq_true] at h

theorem hasOrigin_false_of_ne (h : ∀ e ∈ l, e.origin ≠ o) : hasOrigin o l = false :=
  hasOrigin_eq_false fun ⟨e, he, ho⟩ => h e he ho

theorem replaceGroup_eq (o : Origin) (g : GroupNo) (l : List StackEntry) :
    replaceGroup o g l = l.map (fun e => if e.origin = o then { e with group := g } else e) := by
  unfold replaceGroup
  simp only [beq_iff_eq]

/-- Below the first entry of an origin, which stands at a given place. -/
theorem insertBelow_first (hl : ∀ y ∈ l, y.origin ≠ o) (hx : x.origin = o) :
    insertBelow o e (l ++ x :: r) = l ++ e :: x :: r := by
  induction l with
  | nil => simp [insertBelow, hx]
  | cons y l ih =>
    have hy : y.origin ≠ o := hl y List.mem_cons_self
    rw [List.cons_append, insertBelow, if_neg (by simpa using hy), ih fun z hz => hl z (List.mem_cons_of_mem _ hz)]
    rfl

theorem insertBelow_absent (hl : ∀ y ∈ l, y.origin ≠ o) : insertBelow o e l = l ++ [e] := by
  induction l with
  | nil => rfl
  | cons y l ih =>
    have hy : y.origin ≠ o := hl y List.mem_cons_self
    rw [insertBelow, if_neg (by simpa using hy), ih fun z hz => hl z (List.mem_cons_of_mem _ hz)]
    rfl

end stack

/-! ### A change of the stack (R95) -/

/-- What a change of the stack leaves: the stack, and an effect on waiting recloses alone where the active group changed. -/
theorem changeStack_leaves (u : State) (l : List StackEntry) (cause : GroupCause) :
    (u.changeStack l cause).fru = { u.fru with stack := l } ∧ OnlySlots (u.setStack l) (u.changeStack l cause) ∧
    SameReasons allReasons u (u.changeStack l cause) ∧
    (activeOf l = activeOf u.fru.stack → u.changeStack l cause = u.setStack l) :=
  ⟨changeStack_fru _ _ _, onlySlots_of_mask (changeStack_maskS _ _ _),
    sameReasons_of_block (fun b => changeStack_block _ _ _ b) _, fun h => if_pos h⟩

/-! ### The three stack ops (R97, R98) -/

section ops
variable {s : State} {v : Word32} (n : Rec)

theorem opSelectBase_bad (h : 5 < v.toNat) : State.opSelectBase v n s = (s, refuse .badArg) := by
  simp only [State.opSelectBase, index?_eq_none (show 6 ≤ v.toNat from h)]

theorem opPushManual_bad (h : 5 < v.toNat) : State.opPushManual v n s = (s, refuse .badArg) := by
  simp only [State.opPushManual, index?_eq_none (show 6 ≤ v.toNat from h)]

variable {g : GroupNo} (hg : g.val = v.toNat)
include hg

theorem opSelectBase_invalid (h : s.groupValid g = false) : State.opSelectBase v n s = (s, refuse .invalidTable) := by
  simp only [State.opSelectBase, index?_eq_some hg, h, Bool.false_eq_true, if_false]

theorem opSelectBase_valid (h : s.groupValid g = true) :
    State.opSelectBase v n s = (s.changeStack (replaceGroup .base g s.fru.stack) .selectBase, okAnswer) := by
  simp only [State.opSelectBase, index?_eq_some hg, h, if_true]

theorem opPushManual_invalid (h : s.groupValid g = false) : State.opPushManual v n s = (s, refuse .invalidTable) := by
  simp only [State.opPushManual, index?_eq_some hg, h, Bool.false_eq_true, if_false]

theorem opPushManual_valid (h : s.groupValid g = true) :
    State.opPushManual v n s = (s.changeStack (s.placed .manual g) .pushManual, okAnswer) := by
  simp only [State.opPushManual, index?_eq_some hg, h, if_true]

end ops

section placed
variable {s : State} {g : GroupNo} {l r : List StackEntry}

theorem placed_held {o : Origin} (h : ∃ e ∈ s.fru.stack, e.origin = o) :
    s.placed o g = s.fru.stack.map (fun e => if e.origin = o then { e with group := g } else e) :=
  (if_pos (hasOrigin_iff.mpr h)).trans (replaceGroup_eq o g _)

/-- With the season lock a MANUAL entry goes below the FIRE entry (R96, R106). -/
theorem placed_manual_locked {f : StackEntry} (hnew : ¬ ∃ e ∈ s.fru.stack, e.origin = .manual)
    (hlock : s.fru.seasonLock = true) (hstack : s.fru.stack = l ++ f :: r) (hf : f.origin = .fire)
    (hl : ¬ ∃ e ∈ l, e.origin = .fire) :
    s.placed .manual g = l ++ { origin := .manual, group := g, placed := s.stamp } :: f :: r := by
  have hfire : hasOrigin .fire s.fru.stack = true := hasOrigin_iff.mpr ⟨f, by simp [hstack], hf⟩
  refine (if_neg (by rw [hasOrigin_eq_false hnew]; decide)).trans ((if_pos (by rw [hlock, hfire]; rfl)).trans ?_)
  rw [hstack]
  exact insertBelow_first (fun y hy ho => hl ⟨y, hy, ho⟩) hf

/-- Without the lock, or with no FIRE entry, a MANUAL entry goes below the HUNT entry or on top (R96). -/
theorem placed_manual_open (hnew : ¬ ∃ e ∈ s.fru.stack, e.origin = .manual)
    (hopen : s.fru.seasonLock = false ∨ ¬ ∃ e ∈ s.fru.stack, e.origin = .fire) :
    s.placed .manual g = insertBelow .hunt { origin := .manual, group := g, placed := s.stamp } s.fru.stack := by
  refine (if_neg (by rw [hasOrigin_eq_false hnew]; decide)).trans (if_neg ?_)
  rw [Bool.and_eq_true, hasOrigin_iff]
  rintro ⟨hlock, hfire⟩
  rcases hopen with h | h
  · exact absurd hlock (by rw [h]; decide)
  · exact h hfire

end placed

/-- Settles O23, by the place that R96 gives a placed entry. -/
theorem stackOpsAct : Obligations.StackOpsAct := by
  refine ⟨fun s p imm h => ⟨fun hv => exec_of_runImm rfl h (opSelectBase_bad _ hv),
      fun g hg hvalid => exec_of_runImm rfl h (opSelectBase_invalid (s := consumed s p) _ hg hvalid),
      fun g hg hvalid => ?select⟩,
    fun s p imm h => ⟨fun hv => exec_of_runImm rfl h (opPushManual_bad _ hv),
      fun g hg hvalid => exec_of_runImm rfl h (opPushManual_invalid (s := consumed s p) _ hg hvalid),
      fun g hg hvalid => ?push⟩,
    fun s p h => ⟨fun hnone => ?popNone, fun hhas => ?pop⟩⟩
  case select =>
    rw [← replaceGroup_eq]
    exact ⟨_, exec_of_runImm rfl h (opSelectBase_valid (s := consumed s p) _ hg hvalid),
      changeStack_leaves (consumed s p) _ _⟩
  case push =>
    have hchanged : ∀ {l : List StackEntry}, s.placed .manual g = l → ∃ t : State,
        exec (.pushManual imm) s = .next (t.opDone okAnswer) ∧ t.fru = { s.fru with stack := l } ∧
        OnlySlots ((consumed s p).setStack l) t ∧ SameReasons allReasons s t ∧
        (activeOf l = activeOf s.fru.stack → t = (consumed s p).setStack l) := fun hl => by
      rw [← hl]
      exact ⟨_, exec_of_runImm rfl h (opPushManual_valid (s := consumed s p) _ hg hvalid),
        changeStack_leaves (consumed s p) _ _⟩
    refine ⟨fun hheld => hchanged (placed_held hheld),
      fun hnew hlock l f r hstack hf hl => hchanged (placed_manual_locked hnew hlock hstack hf hl),
      fun hnew hopen => ⟨fun hhunt => hchanged ?_, fun l x hstack hx hl => hchanged ?_⟩⟩
    · rw [placed_manual_open hnew hopen, insertBelow_absent fun y hy ho => hhunt ⟨y, hy, ho⟩]
    · rw [placed_manual_open hnew hopen, hstack, insertBelow_first (fun y hy ho => hl ⟨y, hy, ho⟩) hx]
  case popNone => exact exec_of_runOp rfl h (if_neg (by rw [hasOrigin_eq_false hnone]; decide))
  case pop =>
    exact ⟨_, exec_of_runOp rfl h (if_pos (hasOrigin_iff.mpr hhas)), changeStack_leaves s _ _⟩

/-! ### The season lock (R106, R108) -/

section lock
variable {l r : List StackEntry} {f m : StackEntry}

theorem find_manual_none (h : ∀ e ∈ l, e.origin ≠ .manual) : l.find? (fun e => e.origin == .manual) = none :=
  List.find?_eq_none.mpr fun e he => by simpa using h e he

theorem find_manual_first (h : ∀ e ∈ l, e.origin ≠ .manual) (hm : m.origin = .manual) :
    (l ++ m :: r).find? (fun e => e.origin == .manual) = some m := by
  rw [List.find?_append, find_manual_none h, Option.none_or, List.find?_cons_of_pos (by simpa using hm)]

theorem dropWhile_manual_first (h : ∀ e ∈ l, e.origin ≠ .manual) (hm : m.origin = .manual) :
    (l ++ m :: r).dropWhile (fun e => e.origin != .manual) = m :: r := by
  rw [List.dropWhile_append_of_pos fun e he => by simpa using h e he, List.dropWhile_cons_of_neg (by simp [hm])]

theorem lockOrder_noManual (h : ∀ e ∈ l, e.origin ≠ .manual) : lockOrder l = l := by
  unfold lockOrder
  rw [find_manual_none h]

theorem lockOrder_noFire (h : ∀ e ∈ l, e.origin ≠ .fire) : lockOrder l = l := by
  unfold lockOrder
  split
  · exact if_pos (by rw [hasOrigin_false_of_ne h, Bool.not_false, Bool.or_true])
  · rfl

theorem lockOrder_below (hl : ∀ e ∈ l, e.origin ≠ .manual) (hm : m.origin = .manual)
    (hr : ¬ ∀ e ∈ r, e.origin ≠ .fire) : lockOrder (l ++ m :: r) = l ++ m :: r := by
  have hfire : hasOrigin .fire (m :: r) = true := by
    obtain ⟨e, he, ho⟩ := by simpa only [not_forall, not_not] using hr
    exact hasOrigin_iff.mpr ⟨e, List.mem_cons_of_mem _ he, ho⟩
  unfold lockOrder
  rw [find_manual_first hl hm, dropWhile_manual_first hl hm]
  exact if_pos (by rw [hfire, Bool.true_or])

theorem lockOrder_above (hf : f.origin = .fire) (hm : m.origin = .manual) (hmanual : ∀ e ∈ l ++ r, e.origin ≠ .manual)
    (hfire : ∀ e ∈ l ++ r, e.origin ≠ .fire) : lockOrder (l ++ f :: m :: r) = l ++ m :: f :: r := by
  have hbefore : ∀ e ∈ l ++ [f], e.origin ≠ .manual := by
    intro e he
    rcases List.mem_append.mp he with he | he
    · exact hmanual e (List.mem_append_left _ he)
    · rw [List.mem_singleton.mp he, hf]
      decide
  have hafter : hasOrigin .fire (m :: r) = false := hasOrigin_false_of_ne fun e he => by
    rcases List.mem_cons.mp he with he | he
    · rw [he, hm]
      decide
    · exact hfire e (List.mem_append_right _ he)
  have hhas : hasOrigin .fire (l ++ f :: m :: r) = true := hasOrigin_iff.mpr ⟨f, by simp, hf⟩
  have hremove : removeEntry .manual (l ++ f :: m :: r) = l ++ f :: r := by
    have hkeep : ∀ {k : List StackEntry}, (∀ e ∈ k, e.origin ≠ .manual) → removeEntry .manual k = k := fun h =>
      List.filter_eq_self.mpr fun e he => by simpa using h e he
    have hl := hkeep fun e he => hmanual e (List.mem_append_left _ he)
    have hr := hkeep fun e he => hmanual e (List.mem_append_right _ he)
    unfold removeEntry at hl hr ⊢
    rw [List.filter_append, hl, List.filter_cons_of_pos (by simp [hf]), List.filter_cons_of_neg (by simp [hm]), hr]
  have heq : l ++ f :: m :: r = (l ++ [f]) ++ m :: r := by simp
  unfold lockOrder
  rw [heq, find_manual_first hbefore hm, dropWhile_manual_first hbefore hm, ← heq, hafter, hhas]
  exact (if_neg (by decide)).trans (by
    rw [hremove]
    exact insertBelow_first (fun e he => hfire e (List.mem_append_left _ he)) hf)

end lock

/-- Settles O25, by the order that lockOrder gives each shape of the stack. -/
theorem seasonLockJudged : Obligations.SeasonLockJudged := by
  refine ⟨fun s p h => ⟨fun hlock => exec_of_runOp rfl h (if_pos hlock), fun hlock => ?engage⟩,
    fun s p h => ⟨fun hlock => exec_of_runOp rfl h (if_pos (by rw [hlock]; rfl)), fun hlock hlevel => ?held,
      fun hlock hlevel => ?unlock⟩⟩
  case engage =>
    have hengaged : ∀ {l : List StackEntry}, lockOrder s.fru.stack = l → ∃ t : State,
        exec .seasonLock s = .next (t.opDone okAnswer) ∧ t.fru = { s.fru with seasonLock := true, stack := l } ∧
        OnlySlots ((s.setLock true).setStack l) t ∧ SameReasons allReasons s t ∧
        (activeOf l = activeOf s.fru.stack → t = (s.setLock true).setStack l) := fun hl => by
      rw [← hl]
      exact ⟨_, exec_of_runOp rfl h (if_neg (by rw [hlock]; decide)), changeStack_leaves (s.setLock true) _ _⟩
    refine ⟨fun l f m r hstack hf hm hmanual hfire => hengaged ?_, fun hnone => hengaged ?_,
      fun l m r hstack hm hl hr => hengaged ?_⟩
    · rw [hstack]
      exact lockOrder_above hf hm hmanual hfire
    · exact hnone.elim lockOrder_noManual lockOrder_noFire
    · rw [hstack]
      exact lockOrder_below hl hm hr
  case held => exact exec_of_runOp rfl h ((if_neg (by rw [hlock]; decide)).trans (if_neg hlevel))
  case unlock => exact exec_of_runOp rfl h ((if_neg (by rw [hlock]; decide)).trans (if_pos hlevel))

/-! ### The effective level (R90 to R92, R101, R102) -/

/-- The state with the two levels and the effective level they form. -/
def withLevels (u : State) (commanded pin : Level) : State :=
  { u with fru := { u.fru with commanded := commanded, pinLevel := pin, effective := max commanded pin } }

section level
variable {u : State}

theorem withLevels_shouldBurn {commanded pin : Level} (b : Bay) : (withLevels u commanded pin).shouldBurn b =
    (u.runs b && (u.fru.fireMap.look (max commanded pin)).mask.getLsbD b.val) := rfl

theorem formLevel_quiet {new : Level} (hnew : max u.fru.commanded u.fru.pinLevel = new)
    (h : new = u.fru.effective ∨ u.mgu.part = .bypass) :
    u.formLevel = { u with fru := { u.fru with effective := new } } := by
  subst hnew
  unfold State.formLevel
  dsimp only
  split
  · next heq => rw [heq]
  · next hne => exact if_pos (by simp [h.resolve_left hne])

theorem formLevel_applied {new : Level} (hnew : max u.fru.commanded u.fru.pinLevel = new) (hne : new ≠ u.fru.effective)
    (hpart : u.mgu.part ≠ .bypass) :
    u.formLevel = ({ u with fru := { u.fru with effective := new } } : State).applyLevel u.fru.effective := by
  subst hnew
  exact (if_neg hne).trans (if_neg (by simpa using hpart))

/-- After the FIRE reasons are derived nothing of R102 changes more than the hunt controller may. -/
theorem applyLevel_maskH (u : State) (old : Level) : (u.applyLevel old).maskH = u.deriveFire.1.maskH := by
  unfold State.applyLevel
  generalize u.deriveFire = d
  have hP := closedH_mask d.1
  dsimp only
  refine hP.occur (hP.hncLevel (hP.toClosedS.rejudgeWaiting ?_))
  split
  · exact (State.maskH_of_maskS (changeStack_maskS _ _ _)).trans rfl
  · rfl

theorem applyLevel_leaves (u : State) (old : Level) : OnlyHunt u (u.applyLevel old) ∧
    SameReasons [.manual, .localMode, .interlock, .capability] u (u.applyLevel old) ∧
    ∀ b, ((u.applyLevel old).rcl b).block.fire = u.shouldBurn b := by
  have hmask := applyLevel_maskH u old
  have hM := State.maskM_of_maskB (State.maskB_of_maskH hmask)
  refine ⟨onlyHunt_trans (onlySlots_of_maskR u.deriveFire_maskR).toOnlyHunt (onlyHunt_of_mask hmask), fun b r hr => ?_,
    fun b => (State.maskM_fire_reason hM b).trans (u.deriveFire_fire b)⟩
  have hother := u.deriveFire_other b r (by rintro rfl; revert hr; decide)
  rw [← hother]
  simp only [List.mem_cons, List.not_mem_nil, or_false] at hr
  rcases hr with rfl | rfl | rfl | rfl
  · exact State.maskM_manual_reason hM b
  · exact State.maskH_localMode_reason hmask b
  · exact State.maskH_interlock_reason hmask b
  · exact State.maskM_capability_reason hM b

theorem formLevel_withLevels {commanded pin : Level} (hne : max commanded pin ≠ u.fru.effective)
    (hpart : u.mgu.part ≠ .bypass) :
    State.formLevel { u with fru := { u.fru with commanded := commanded, pinLevel := pin } } =
      (withLevels u commanded pin).applyLevel u.fru.effective :=
  formLevel_applied (u := { u with fru := { u.fru with commanded := commanded, pinLevel := pin } }) rfl hne hpart

/-- What the two levels form: nothing more where the effective level stays or in BYPASS, and else the steps of R102. -/
theorem formLevel_leaves (u : State) (commanded pin : Level) :
    let t := State.formLevel { u with fru := { u.fru with commanded := commanded, pinLevel := pin } }
    (max commanded pin = u.fru.effective ∨ u.mgu.part = .bypass → t = withLevels u commanded pin) ∧
    (max commanded pin ≠ u.fru.effective → u.mgu.part ≠ .bypass → OnlyHunt (withLevels u commanded pin) t ∧
      SameReasons [.manual, .localMode, .interlock, .capability] u t ∧
      ∀ b, (t.rcl b).block.fire = (u.runs b && (u.fru.fireMap.look (max commanded pin)).mask.getLsbD b.val)) := by
  refine ⟨fun h => formLevel_quiet (u := { u with fru := { u.fru with commanded := commanded, pinLevel := pin } }) rfl h,
    fun hne hpart => ?_⟩
  rw [formLevel_withLevels hne hpart]
  obtain ⟨honly, hsame, hfire⟩ := applyLevel_leaves (withLevels u commanded pin) u.fru.effective
  exact ⟨honly, hsame, fun b => (hfire b).trans (withLevels_shouldBurn b)⟩

end level

theorem opSetLevel_bad {s : State} {v : Word32} (n : Rec) (h : 4 < v.toNat) :
    State.opSetLevel v n s = (s, refuse .badArg) := by
  simp only [State.opSetLevel, index?_eq_none (show 5 ≤ v.toNat from h)]

theorem opSetLevel_level {s : State} {v : Word32} (n : Rec) {l : Level} (h : l.val = v.toNat) :
    State.opSetLevel v n s =
      (({ s with fru := { s.fru with commanded := l } } : State).formLevel,
       okValue (value ({ s with fru := { s.fru with commanded := l } } : State).formLevel.fru.effective.val)) := by
  simp only [State.opSetLevel, index?_eq_some h]

/-- The effective level is the greater of the two, whatever follows. -/
theorem formLevel_effective (u : State) : u.formLevel.fru.effective = max u.fru.commanded u.fru.pinLevel := by
  obtain ⟨hquiet, hformed⟩ := formLevel_leaves u u.fru.commanded u.fru.pinLevel
  by_cases h : max u.fru.commanded u.fru.pinLevel = u.fru.effective ∨ u.mgu.part = .bypass
  · exact congrArg (fun t : State => t.fru.effective) (hquiet h)
  · obtain ⟨hne, hpart⟩ := not_or.mp h
    obtain ⟨honly, -, -⟩ := hformed hne hpart
    exact congrArg Fru.effective honly.regime

/-- Settles O24: both commands form the level of the state with their own level put in. -/
theorem fireLevelFormed : Obligations.FireLevelFormed := by
  refine ⟨fun s p imm h => ⟨fun hv => exec_of_runImm rfl h (opSetLevel_bad _ hv), fun l hl => ?_⟩,
    fun s asserted => ⟨fun hheld => ?_, fun hfree => ?_⟩⟩
  · have heffective : ({ consumed s p with fru := { s.fru with commanded := l } } : State).formLevel.fru.effective
        = max l s.fru.pinLevel := formLevel_effective _
    have hexec := exec_of_runImm rfl h (opSetLevel_level (s := consumed s p) p.context hl)
    rw [show (consumed s p).fru = s.fru from rfl, heffective] at hexec
    exact ⟨_, hexec, formLevel_leaves (consumed s p) l s.fru.pinLevel⟩
  · show Host.Outcome.next (if s.pins.resetHeld then _ else _) = _
    rw [hheld]
    rfl
  · refine ⟨_, State.live_of_free (s := { s with pins := { s.pins with tfb := asserted } }) hfree _, ?_⟩
    exact formLevel_leaves { s with pins := { s.pins with tfb := asserted } } s.fru.commanded (pinLevelOf asserted)

end Sys2Proof.Proofs.StackControl
/-! A request put at a slot, by its class, and what the issue of requests leaves of a reclose record (R51, R52, R58, R73). -/

namespace Sys2Proof.Proofs.SlotRules

open Sys2Proof.Machine Sys2Proof.Safety Sys2Proof.Proofs.FireInvariant

section request
variable {s : State} {n : Rec} {c : ReqClass} {cmd : Command}

/-- A request that R51 accepts, put at its slot. -/
def requested (s : State) (n : Rec) (c : ReqClass) (cmd : Command) : State := (s.setPend n c (some cmd)).issueNext n

theorem place_of_judged (h : s.judgeReq n c cmd = none) : s.place n c cmd = .ok (requested s n c cmd) := by
  unfold State.place
  rw [h, State.tellReplaced_eq]
  rfl

theorem place_of_refused {code : ResultCode} (h : s.judgeReq n c cmd = some code) : s.place n c cmd = .error code := by
  unfold State.place
  rw [h]

theorem requested_maskS (hc : c ≠ .trip) : (requested s n c cmd).maskS = s.maskS :=
  (closedS_mask s).issueNext ((closedS_mask s).setPend (.inl hc) rfl)

theorem requested_at (s : State) (n : Rec) (c : ReqClass) (cmd : Command) : OnlyAt n s (requested s n c cmd) :=
  (s.setPend_at n c _).trans (State.issueNext_at _ n)

theorem setPend_slot (s : State) (n : Rec) (c : ReqClass) (v : Option Command) :
    (s.setPend n c v).slot n = { s.slot n with pend := (s.slot n).pend.set c v } := State.setSlot_slot _ _ _

/-- Where a command is in flight, the request waits. -/
theorem requested_of_busy (h : (s.slot n).state.isFree = false) : requested s n c cmd = s.setPend n c (some cmd) := by
  unfold requested State.issueNext
  exact if_neg (by rw [setPend_slot, h]; decide)

/-- At a FREE slot with nothing pending the request is issued. -/
theorem requested_of_free (hjudge : s.judgeReq n c cmd = none) (hcmd : cmd ≠ .indicate .noChange)
    (hfree : (s.slot n).state = .free) (hpend : (s.slot n).pend = Pending.none) :
    requested s n c cmd = s.issueCmd n c cmd :=
  Except.ok.inj ((place_of_judged hjudge).symm.trans (State.place_issued hjudge hfree hpend hcmd))

/-- An INDICATE NO_CHANGE at a FREE slot with nothing pending completes at once (R58). -/
theorem requested_noChange (hc : c = .management ∨ c = .annunciate) (hfree : (s.slot n).state.isFree = true)
    (hpend : (s.slot n).pend = Pending.none) :
    requested s n c (.indicate .noChange) =
      (s.setPend n c (some (.indicate .noChange))).completeNoChange n c (.indicate .noChange) := by
  have hput : ((s.setPend n c (some (.indicate .noChange))).slot n).pend = Pending.none.set c (some (.indicate .noChange)) := by
    rw [setPend_slot, hpend]
  have hdone : (((s.setPend n c (some (.indicate .noChange))).completeNoChange n c (.indicate .noChange)).slot n).pend =
      Pending.none := by
    simp only [State.completeNoChange, State.setResult, State.setSlot_slot, setPend_slot, hpend]
    rcases hc with rfl | rfl <;> rfl
  have hslot : ((s.setPend n c (some (.indicate .noChange))).slot n).state.isFree = true := by
    rw [setPend_slot]
    exact hfree
  unfold requested State.issueNext
  rw [if_pos hslot]
  generalize s.setPend n c (some (.indicate .noChange)) = t at hput hdone
  have hskip : ∀ d, d ≠ c → (t.slot n).pend.get d = none := fun d hd => by
    rw [hput, Pending.set_get, if_neg (Ne.symm hd), Pending.none_get]
  have hfound : (t.slot n).pend.get c = some (.indicate .noChange) := by rw [hput, Pending.set_get, if_pos rfl]
  rcases hc with rfl | rfl
  · simp only [classOrder, State.issueFrom, hskip .trip (by decide), hskip .hunt (by decide), hskip .reclose (by decide),
      hfound, hdone, Pending.none_get]
  · simp only [classOrder, State.issueFrom, hskip .trip (by decide), hskip .hunt (by decide), hskip .reclose (by decide),
      hskip .management (by decide), hfound]

end request

/-! ### The reclose record of a bay that waits for no issue -/

section waiting
variable {s : State} {b : Bay}

theorem bayRec_inj {b c : Bay} (h : bayRec b = bayRec c) : b = c := Fin.castSucc_injective 8 h

theorem rccIssued_rcl (c : Bay) (h : (s.rcl b).state ≠ .closing .waiting) : (s.rccIssued c).rcl b = s.rcl b := by
  unfold State.rccIssued State.isWaiting
  split
  · next hwaits =>
    rw [rcl_setRcl, if_neg]
    rintro rfl
    exact h (beq_iff_eq.mp hwaits)
  · rfl

theorem issueCmd_rcl (n : Rec) (c : ReqClass) (cmd : Command) (h : (s.rcl b).state ≠ .closing .waiting) :
    (s.issueCmd n c cmd).rcl b = s.rcl b := by
  unfold State.issueCmd
  dsimp only
  split
  · exact rccIssued_rcl _ h
  · rfl

theorem withdrawAtIssue_rcl (n : Rec) (c : ReqClass) (cmd : Command) (code : ResultCode)
    (h : (s.rcl b).state ≠ .closing .waiting) : (s.withdrawAtIssue n c cmd code).rcl b = s.rcl b := by
  unfold State.withdrawAtIssue
  dsimp only
  split
  · next d _ =>
    split
    · next hlock =>
      obtain ⟨hwaits, -⟩ := Bool.and_eq_true_iff.mp hlock
      have hne : b ≠ d := by
        rintro rfl
        exact h (beq_iff_eq.mp hwaits)
      exact (State.lockPend_at _ d _).reclose b fun e => hne (bayRec_inj e)
    · rfl
  · rfl
  · rfl

/-- What a slot issues leaves the reclose record of a bay that is not in close phase WAITING. -/
theorem issueFrom_rcl (cs : List ReqClass) (n : Rec) (h : (s.rcl b).state ≠ .closing .waiting) :
    (State.issueFrom cs n s).1.rcl b = s.rcl b := by
  induction cs generalizing s with
  | nil => rfl
  | cons c cs ih =>
    unfold State.issueFrom
    split
    · exact ih h
    · exact ih (s := s.completeNoChange n c _) h
    · split
      · have hsame := withdrawAtIssue_rcl (s := s) n c ‹_› ‹_› h
        rw [← hsame] at h
        exact (ih h).trans hsame
      · exact issueCmd_rcl n c _ h

theorem issueNext_rcl (n : Rec) (h : (s.rcl b).state ≠ .closing .waiting) : (s.issueNext n).rcl b = s.rcl b := by
  unfold State.issueNext
  split
  · exact issueFrom_rcl _ n h
  · rfl

theorem requested_rcl (n : Rec) (c : ReqClass) (cmd : Command) (h : (s.rcl b).state ≠ .closing .waiting) :
    (requested s n c cmd).rcl b = s.rcl b := issueNext_rcl (s := s.setPend n c (some cmd)) n h

theorem lamp_cases (s : State) (n : Rec) (a : LampArg) :
    s.lamp n a = s ∨ s.lamp n a = requested s n .annunciate (.indicate a) := by
  unfold State.lamp
  cases h : s.judgeReq n .annunciate (.indicate a) with
  | none => rw [place_of_judged h]; exact .inr rfl
  | some code => rw [place_of_refused h]; exact .inl rfl

theorem lamp_rcl (n : Rec) (a : LampArg) (h : (s.rcl b).state ≠ .closing .waiting) : (s.lamp n a).rcl b = s.rcl b := by
  rcases lamp_cases s n a with e | e
  · rw [e]
  · rw [e]
    exact requested_rcl n _ _ h

end waiting

end Sys2Proof.Proofs.SlotRules
/-! A reason added to a block set, case by case: held already, stored alone, or stored with the sequence in hand cancelled (R81); the
ranges of BLOCK_RANGE and UNBLOCK_RANGE (R82). -/

namespace Sys2Proof.Proofs.BlockRange

open Sys2Proof.Machine Sys2Proof.Safety Sys2Proof.Proofs.CaptureOps Sys2Proof.Proofs.HuntBays Sys2Proof.Proofs.SlotRules
  Sys2Proof.Proofs.FrameRules Sys2Proof.Proofs.FireInvariant

/-! ### Requests that stay away -/

section pending
variable {s : State} {n : Rec} {d : ReqClass}

theorem setPend_stays {c : ReqClass} (h : (s.slot n).pend.get d = none) : ((s.setPend n c none).slot n).pend.get d = none := by
  rw [setPend_slot, Pending.set_get, h, ite_self]

theorem lockPend_stays {b : Bay} (cause : LockoutCause) (hd : d ≠ .annunciate) (h : (s.slot (bayRec b)).pend.get d = none) :
    ((s.lockPend b cause).slot (bayRec b)).pend.get d = none := by
  have hlamp : ∀ (t : State) (a : LampArg), ((t.pendLamp (bayRec b) a).slot (bayRec b)).pend.get d =
      (t.slot (bayRec b)).pend.get d := fun t a => by
    unfold State.pendLamp
    split
    · rw [setPend_slot, Pending.set_get, if_neg (Ne.symm hd)]
    · rfl
  have hput : ((s.setPend (bayRec b) .reclose none).slot (bayRec b)).pend.get d = none := setPend_stays h
  unfold State.lockPend
  dsimp only
  rw [hlamp, (sameBay_of_maskE (State.occur_maskE _ _ _ _)).slot]
  exact hput

theorem withdrawAtIssue_stays (c : ReqClass) (cmd : Command) (code : ResultCode) (hd : d ≠ .annunciate)
    (h : (s.slot n).pend.get d = none) : ((s.withdrawAtIssue n c cmd code).slot n).pend.get d = none := by
  have hput := setPend_stays (c := c) h
  unfold State.withdrawAtIssue
  dsimp only
  split
  · next b hb =>
    obtain rfl := bayRec_of_recBay hb
    exact ite_both (P := fun t : State => (t.slot (bayRec b)).pend.get d = none) (lockPend_stays _ hd hput) hput
  · rw [State.mgmtWithdrawn, State.setResult, State.setSlot_slot]
    exact hput
  · exact hput

/-- A class other than ANNUNCIATE with no request waiting has none after the issue. -/
theorem issueFrom_stays (cs : List ReqClass) (hd : d ≠ .annunciate) (h : (s.slot n).pend.get d = none) :
    ((State.issueFrom cs n s).1.slot n).pend.get d = none := by
  induction cs generalizing s with
  | nil => exact h
  | cons c cs ih =>
    unfold State.issueFrom
    split
    · exact ih h
    · refine ih ?_
      rw [State.completeNoChange, State.setResult, State.setSlot_slot]
      exact setPend_stays h
    · split
      · exact ih (withdrawAtIssue_stays _ _ _ hd h)
      · rw [State.issueCmd_slot, Slot.issued, Pending.set_get, h, ite_self]

theorem issueNext_stays (hd : d ≠ .annunciate) (h : (s.slot n).pend.get d = none) :
    ((s.issueNext n).slot n).pend.get d = none := by
  unfold State.issueNext
  split
  · exact issueFrom_stays _ hd h
  · exact h

end pending

/-! ### A reason added (R81) -/

section add
variable {s : State} {b : Bay} {r : BlockReason}

/-- A sequence in hand that an added reason cancels. -/
def Cancels (s : State) (b : Bay) : Prop :=
  s.runs b = true ∧ ((s.rcl b).state = .dead ∨ (s.rcl b).state = .closing .waiting)

theorem addReason_held (h : (s.rcl b).block.has r = true) : s.addReason b r = s := if_pos h

theorem cancels_iff : (s.runs b && ((s.rcl b).state == .dead || s.isWaiting b)) = true ↔ Cancels s b := by
  rw [Bool.and_eq_true, Bool.or_eq_true, beq_iff_eq, isWaiting_iff]
  exact Iff.rfl

theorem putReason_cancels (v : Bool) : Cancels (s.putReason b r v) b ↔ Cancels s b := by
  unfold Cancels
  rw [putReason_state]
  exact Iff.rfl

theorem addReason_stored (h : (s.rcl b).block.has r = false) (hc : ¬ Cancels s b) :
    s.addReason b r = s.putReason b r true := by
  unfold State.addReason
  dsimp only
  rw [if_neg (by rw [h]; decide), if_neg (by rw [cancels_iff, putReason_cancels]; exact hc)]

theorem addReason_cancelled (h : (s.rcl b).block.has r = false) (hc : Cancels s b) :
    s.addReason b r = (s.putReason b r true).cancelSequence b r := by
  unfold State.addReason
  dsimp only
  rw [if_neg (by rw [h]; decide), if_pos (by rw [cancels_iff, putReason_cancels]; exact hc)]

/-- The cause that a cancelled sequence is locked out with. -/
def cancelCause (r : BlockReason) : LockoutCause := if r = .fire then .fireCancel else .protectionBlocked

theorem cancelSequence_rcl (hc : Cancels s b) : (s.cancelSequence b r).rcl b = { s.rcl b with
    state := .lockout (cancelCause r), deadTimer := none, springTimer := none, reclaimTimer := .stopped } := by
  obtain ⟨hruns, hstate⟩ := hc
  unfold State.cancelSequence
  dsimp only
  have hmask := State.occur_maskE (s.setPend (bayRec b) .reclose none) fRecloseCancelled (bayMask b)
    [byte r.code, byte ((s.setPend (bayRec b) .reclose none).rcl b).shots]
  have hrcl := (sameBay_of_maskE (b := b) hmask).rcl
  have hlock : ((s.setPend (bayRec b) .reclose none).occur fRecloseCancelled (bayMask b)
      [byte r.code, byte ((s.setPend (bayRec b) .reclose none).rcl b).shots]).canLock b = true := by
    unfold State.canLock
    rw [runs_of_maskR (State.maskR_of_maskS (State.maskS_of_maskE hmask)), hrcl,
      show (s.setPend (bayRec b) .reclose none).runs b = s.runs b from rfl, hruns]
    rw [isLockout_eq_false fun l hl => by
      have hl' : (s.rcl b).state = .lockout l := hl
      rcases hstate with h | h <;> rw [h] at hl' <;> cases hl']
    rfl
  rw [State.lock_rcl hlock, hrcl]
  simp only [cancelCause, beq_iff_eq]
  rfl

theorem cancelSequence_pend (s : State) (b : Bay) (r : BlockReason) :
    ((s.cancelSequence b r).slot (bayRec b)).pend.reclose = none := by
  have hput : ((s.setPend (bayRec b) .reclose none).slot (bayRec b)).pend.get .reclose = none := by
    rw [setPend_slot, Pending.set_get, if_pos rfl]
  have hoccur : ∀ m d, (((s.setPend (bayRec b) .reclose none).occur fRecloseCancelled m d).slot (bayRec b)).pend.get .reclose
      = none := fun m d => by
    rw [(sameBay_of_maskE (State.occur_maskE _ _ _ _)).slot]
    exact hput
  unfold State.cancelSequence State.lock
  dsimp only
  exact ite_both (P := fun t : State => (t.slot (bayRec b)).pend.get .reclose = none)
    (issueNext_stays (by decide) (lockPend_stays _ (by decide) (hoccur _ _))) (hoccur _ _)

/-- The reclose record after a reason is added to a bay with a sequence in hand. -/
theorem addReason_cancelled_rcl (h : (s.rcl b).block.has r = false) (hc : Cancels s b) :
    (s.addReason b r).rcl b = { s.rcl b with
      state := .lockout (cancelCause r), deadTimer := none, springTimer := none, reclaimTimer := .stopped,
      block := (s.rcl b).block.set r true } := by
  rw [addReason_cancelled h hc, cancelSequence_rcl ((putReason_cancels true).mpr hc), State.putReason, State.setRcl_rcl]

theorem addReason_cancelled_pend (h : (s.rcl b).block.has r = false) (hc : Cancels s b) :
    ((s.addReason b r).slot (bayRec b)).pend.reclose = none := by
  rw [addReason_cancelled h hc]
  exact cancelSequence_pend _ _ _

end add

/-! ### The range (R82) -/

section range
variable {v : Word32}

/-- The bay lies in the range from a base. -/
def clipped (base count : Nat) (b : Bay) : Bool := decide (base ≤ b.val) && decide (b.val < base + count)

theorem clipped_iff {base count : Nat} {b : Bay} : clipped base count b = true ↔ base ≤ b.val ∧ b.val < base + count := by
  unfold clipped
  rw [Bool.and_eq_true, decide_eq_true_eq, decide_eq_true_eq]

theorem clipped_eq (base count : Nat) (b : Bay) : clipped base count b = decide (base ≤ b.val ∧ b.val < base + count) :=
  (Bool.decide_and _ _).symm

theorem bayRange_refused (h : 7 < v.toNat / 16 ∨ v.toNat % 16 = 0 ∨ 8 < v.toNat % 16) : bayRange v = none := if_pos h

theorem bayRange_clipped (hbase : v.toNat / 16 ≤ 7) (hlow : 1 ≤ v.toNat % 16) (hhigh : v.toNat % 16 ≤ 8) :
    bayRange v = some (allBays.filter (clipped (v.toNat / 16) (v.toNat % 16))) := if_neg (by
  unfold rangeBase rangeCount
  omega)

/-- The number of bays in the clipped range. -/
theorem clipped_length : ∀ base count : Nat, base ≤ 7 → 1 ≤ count → count ≤ 8 →
    (allBays.filter (clipped base count)).length = min count (8 - base) := by
  intro base count hbase hlow hhigh
  interval_cases base <;> interval_cases count <;> rfl

theorem forEach_filter {α : Type} (q : α → Bool) (f : α → State → State) (l : List α) (s : State) :
    forEach (l.filter q) f s = forEach l (fun x t => if q x then f x t else t) s := List.foldl_filter

end range

section ops
variable {s : State} {v : Word32} (n : Rec)

theorem opBlock_refused (h : bayRange v = none) : State.opBlock v n s = (s, refuse .badArg) := by
  simp only [State.opBlock, h]

theorem opBlock_range {l : List Bay} (h : bayRange v = some l) :
    State.opBlock v n s = (forEach l (fun b t => t.addReason b .manual) s, okValue (value l.length)) := by
  simp only [State.opBlock, h]

theorem opUnblock_refused (h : bayRange v = none) : State.opUnblock v n s = (s, refuse .badArg) := by
  simp only [State.opUnblock, h]

theorem opUnblock_range {l : List Bay} (h : bayRange v = some l) :
    State.opUnblock v n s = (forEach l (fun b t => t.removeReason b .manual) s, okValue (value l.length)) := by
  simp only [State.opUnblock, h]

end ops

section effects
variable {s : State} {q : Bay → Bool}

/-- MANUAL added bay by bay. -/
def blocked (s : State) (q : Bay → Bool) : State := forEach allBays (fun b t => if q b then t.addReason b .manual else t) s

theorem blocked_maskR (s : State) (q : Bay → Bool) : (blocked s q).maskR = s.maskR :=
  forEach_keep State.maskR _ (fun b t => ite_maskR (t.addReason_maskR b .manual) rfl) _ _

theorem blocked_step (s : State) (q : Bay → Bool) (b : Bay) : ∃ u, SameBay b s u ∧ u.maskR = s.maskR ∧
    SameBay b (if q b then u.addReason b .manual else u) (blocked s q) :=
  forEach_bay (f := fun b t => if q b then t.addReason b .manual else t)
    (fun c t => ite_at _ (addReason_at t c _) (OnlyAt.refl _ t))
    (fun c t => ite_maskR (t.addReason_maskR c .manual) rfl) b s

theorem blocked_block (s : State) (q : Bay → Bool) (b : Bay) :
    ((blocked s q).rcl b).block.manual = (q b || (s.rcl b).block.manual) ∧
    ∀ r, r ≠ .manual → ((blocked s q).rcl b).block.has r = (s.rcl b).block.has r := by
  obtain ⟨u, hsame, -, hstep⟩ := blocked_step s q b
  rw [hstep.rcl, ← hsame.rcl]
  cases q b with
  | false => exact ⟨rfl, fun _ _ => rfl⟩
  | true =>
    obtain ⟨hself, hother⟩ := u.addReason_block b b .manual
    exact ⟨hself.trans (if_pos rfl), hother⟩

theorem blocked_untouched {b : Bay} (h : ¬ (q b = true ∧ (s.rcl b).block.manual = false)) : SameBay b s (blocked s q) := by
  obtain ⟨u, hsame, -, hstep⟩ := blocked_step s q b
  cases hq : q b with
  | false =>
    rw [hq] at hstep
    exact hsame.trans hstep
  | true =>
    rw [hq, if_pos rfl, addReason_held] at hstep
    · exact hsame.trans hstep
    · rw [hsame.rcl]
      exact (Bool.not_eq_false _).mp fun hm => h ⟨hq, hm⟩

/-- The state a bay's own addition is made on: its record is as at the start, and so is what decides on a cancelled sequence. -/
theorem blocked_added {b : Bay} (hq : q b = true) (hmanual : (s.rcl b).block.manual = false) :
    ∃ u, SameBay b s u ∧ (Cancels u b ↔ Cancels s b) ∧ (u.rcl b).block.has .manual = false ∧
      SameBay b (u.addReason b .manual) (blocked s q) := by
  obtain ⟨u, hsame, hmask, hstep⟩ := blocked_step s q b
  rw [hq] at hstep
  refine ⟨u, hsame, ?_, ?_, hstep⟩
  · unfold Cancels
    rw [runs_of_maskR hmask, hsame.rcl]
  · rw [hsame.rcl]
    exact hmanual

theorem blocked_stored {b : Bay} (hq : q b = true) (hmanual : (s.rcl b).block.manual = false) (hc : ¬ Cancels s b) :
    (blocked s q).rcl b = { s.rcl b with block := { (s.rcl b).block with manual := true } } ∧
    (blocked s q).slot (bayRec b) = s.slot (bayRec b) := by
  obtain ⟨u, hsame, hcancels, hhas, hstep⟩ := blocked_added hq hmanual
  rw [addReason_stored hhas (hcancels.not.mpr hc)] at hstep
  refine ⟨?_, hstep.slot.trans hsame.slot⟩
  rw [hstep.rcl, State.putReason, State.setRcl_rcl, hsame.rcl]
  rfl

theorem blocked_cancelled {b : Bay} (hq : q b = true) (hmanual : (s.rcl b).block.manual = false) (hc : Cancels s b) :
    ((blocked s q).slot (bayRec b)).pend.reclose = none ∧
    (blocked s q).rcl b = { s.rcl b with
      state := .lockout .protectionBlocked, deadTimer := none, springTimer := none, reclaimTimer := .stopped,
      block := { (s.rcl b).block with manual := true } } := by
  obtain ⟨u, hsame, hcancels, hhas, hstep⟩ := blocked_added hq hmanual
  refine ⟨?_, ?_⟩
  · rw [hstep.slot]
    exact addReason_cancelled_pend hhas (hcancels.mpr hc)
  · rw [hstep.rcl, addReason_cancelled_rcl hhas (hcancels.mpr hc), hsame.rcl]
    rfl

/-- MANUAL removed bay by bay. -/
def unblocked (s : State) (q : Bay → Bool) : State :=
  forEach allBays (fun b t => if q b then t.removeReason b .manual else t) s

theorem unblocked_eq (s : State) (q : Bay → Bool) : unblocked s q = { s with rcc := (unblocked s q).rcc } := by
  have hstep (b : Bay) (t : State) : ({ (if q b then t.removeReason b .manual else t) with rcc := s.rcc } : State) =
      { t with rcc := s.rcc } := by
    unfold State.removeReason
    split
    · split <;> rfl
    · rfl
  have hrest := forEach_keep (fun t => { t with rcc := s.rcc }) _ hstep allBays s
  exact congrArg (fun t : State => { t with rcc := (unblocked s q).rcc }) hrest

theorem removeManual_rcl (s : State) (b : Bay) :
    (s.removeReason b .manual).rcl b = { s.rcl b with block := { (s.rcl b).block with manual := false } } := by
  unfold State.removeReason
  split
  · exact State.setRcl_rcl _ _ _
  · next h =>
    have hclear : (s.rcl b).block.manual = false := by simpa [BlockSet.has] using h
    rw [← hclear]

theorem unblocked_rcl (s : State) (q : Bay → Bool) (b : Bay) : (unblocked s q).rcl b =
    { s.rcl b with block := { (s.rcl b).block with manual := !q b && (s.rcl b).block.manual } } := by
  obtain ⟨u, hsame, -, hstep⟩ := forEach_bay (f := fun b t => if q b then t.removeReason b .manual else t)
    (fun c t => ite_at _ (removeReason_at t c _) (OnlyAt.refl _ t))
    (fun c t => ite_maskR (t.removeReason_maskR c .manual) rfl) b s
  refine hstep.rcl.trans ?_
  rw [← hsame.rcl]
  cases q b with
  | false => rfl
  | true => exact removeManual_rcl u b

end effects

/-- Settles O27: the clipped range, and one addition or removal at each of its bays. -/
theorem blockRangeActs : Obligations.BlockRangeActs := by
  refine ⟨fun s p imm h => ⟨fun hbad => exec_of_runImm rfl h (opBlock_refused _ (bayRange_refused hbad)),
      fun hbase hlow hhigh => ?block⟩,
    fun s p imm h => ⟨fun hbad => exec_of_runImm rfl h (opUnblock_refused _ (bayRange_refused hbad)),
      fun hbase hlow hhigh => ?unblock⟩⟩
  case block =>
    have hexec := exec_of_runImm rfl h (opBlock_range (s := consumed s p) p.context (bayRange_clipped hbase hlow hhigh))
    rw [clipped_length _ _ hbase hlow hhigh, forEach_filter] at hexec
    refine ⟨_, hexec, onlySlots_of_maskR (blocked_maskR _ _), fun b r hr => ?_, fun b => ?_⟩
    · exact (blocked_block (consumed s p) _ b).2 r (by rintro rfl; revert hr; decide)
    · have hin : ∀ {base count : Nat} {c : Prop}, (base ≤ b.val ∧ b.val < base + count ∧ c) ↔
          clipped base count b = true ∧ c := by
        intro base count c
        rw [clipped_iff, and_assoc]
      rw [← clipped_eq]
      refine ⟨(blocked_block (consumed s p) _ b).1, fun hadded => ?_, fun hadded hc => ?_, fun hadded hc => ?_⟩
      · obtain ⟨hslot, hrcl⟩ := blocked_untouched (s := consumed s p) fun k => hadded (hin.mpr k)
        exact ⟨hrcl, hslot⟩
      · exact blocked_stored (s := consumed s p) (hin.mp hadded).1 hadded.2.2 hc
      · exact blocked_cancelled (s := consumed s p) (hin.mp hadded).1 hadded.2.2 hc
  case unblock =>
    have hexec := exec_of_runImm rfl h (opUnblock_range (s := consumed s p) p.context (bayRange_clipped hbase hlow hhigh))
    rw [clipped_length _ _ hbase hlow hhigh, forEach_filter] at hexec
    refine ⟨_, hexec, unblocked_eq _ _, fun b => ?_⟩
    rw [← clipped_eq]
    exact unblocked_rcl (consumed s p) _ b

end Sys2Proof.Proofs.BlockRange
/-! The four switching ops (R51, R52, R58, R59, R84, R85) and RESET_LOCKOUT (R86). -/

namespace Sys2Proof.Proofs.Switching

open Sys2Proof.Machine Sys2Proof.Safety Sys2Proof.Proofs.BreakerFail Sys2Proof.Proofs.CaptureOps Sys2Proof.Proofs.SlotRules
  Sys2Proof.Proofs.TableWrites Sys2Proof.Proofs.FrameRules Sys2Proof.Proofs.HuntBays Sys2Proof.Proofs.FireInvariant
  Sys2Proof.Proofs.FireMapWrites

/-! ### A MANAGEMENT request (R51, R52, R59) -/

/-- R51 and the checks of a switching op let a MANAGEMENT request through. -/
def Lets (s : State) (n : Rec) (cmd : Command) : Prop :=
  (s.cap n).inService = true ∧ (s.status n).localMode = false ∧ (s.slot n).pend.management = none ∧
    (cmd = .closing → s.mgu.part ≠ .standdown ∧ (s.status n).interlock = false)

section manage
variable {s : State} {n : Rec} {cmd : Command}

theorem judgeReq_lets (h : Lets s n cmd) : s.judgeReq n .management cmd = none := by
  obtain ⟨hserved, hlocal, hpend, hclose⟩ := h
  exact State.judgeReq_none hserved (fun e => (hclose e).1) hlocal (fun e => (hclose e).2) fun _ => hpend

theorem judgeReq_service (c : ReqClass) (h : (s.cap n).inService = false) : s.judgeReq n c cmd = some .state :=
  if_pos (by rw [h]; rfl)

theorem judgeReq_standdown (c : ReqClass) (h : (s.cap n).inService = true) (hpart : s.mgu.part = .standdown) :
    s.judgeReq n c .closing = some .standdown := by
  simp [State.judgeReq, h, hpart]

theorem judgeReq_local (c : ReqClass) (hcmd : cmd ≠ .closing) (h : (s.cap n).inService = true)
    (hlocal : (s.status n).localMode = true) : s.judgeReq n c cmd = some .localMode := by
  simp [State.judgeReq, h, hlocal, hcmd]

theorem manage_accepted {after : State → State} (h : Lets s n cmd) :
    s.manage n cmd after = (after (requested s n .management cmd), okAnswer) := by
  unfold State.manage
  rw [place_of_judged (judgeReq_lets h)]

theorem manage_refused {after : State → State} {code : ResultCode} (h : s.judgeReq n .management cmd = some code) :
    s.manage n cmd after = (s, refuse code) := by
  unfold State.manage
  rw [place_of_refused h]

/-- What a placed MANAGEMENT request leaves at its slot and of the others. -/
structure Placed (s t : State) (n : Rec) (cmd : Command) : Prop where
  local_ : OnlyAt n s t
  reasons : SameReasons allReasons s t
  issued : cmd ≠ .indicate .noChange → (s.slot n).state.isFree = true → (s.slot n).pend = Pending.none →
    t.slot n = { s.slot n with
      lastTag := nextTag (s.slot n).lastTag,
      state := .inFlight { cmd := cmd, tag := nextTag (s.slot n).lastTag, cls := .management, issued := s.mono,
                           tripAttached := false, timer := commandMs cmd } } ∧
    t.riu.outPlaces.look n = some (s.bayCmdFrame n cmd (nextTag (s.slot n).lastTag))
  completed : cmd = .indicate .noChange → (s.slot n).state.isFree = true → (s.slot n).pend = Pending.none →
    t.slot n = { s.slot n with lastResult := some { cls := .management, cmd := cmd, tag := none, outcome := .done,
                                                    time := s.stamp } }
  waits : (s.slot n).state.isFree = false → cmd ≠ .opening →
    t.slot n = { s.slot n with pend := { (s.slot n).pend with management := some cmd } }

theorem placed_requested (h : Lets s n cmd) : Placed s (requested s n .management cmd) n cmd where
  local_ := requested_at _ _ _ _
  reasons := sameReasons_of_block (fun b => State.maskS_block (requested_maskS (by decide)) b) _
  issued := fun hcmd hfree hpend => by
    rw [requested_of_free (judgeReq_lets h) hcmd ((isFree_iff_eq_free _).mp hfree) hpend]
    refine ⟨?_, State.issueCmd_out _ _ _ _⟩
    rw [State.issueCmd_slot, Slot.issued, hpend, Pending.none_set]
    dsimp only
    rw [hpend]
    rfl
  completed := fun hcmd hfree hpend => by
    subst hcmd
    rw [requested_noChange (.inl rfl) hfree hpend]
    simp only [State.completeNoChange, State.setResult, State.setSlot_slot, setPend_slot, hpend]
    rfl
  waits := fun hbusy _ => by
    rw [requested_of_busy hbusy, setPend_slot]
    rfl

end manage

/-! ### BAY_OPEN at the reclose controller (R84) -/

section bayOpen
variable {s : State} {b : Bay}

theorem rccBayOpen_maskS (s : State) (b : Bay) : (s.rccBayOpen b).maskS = s.maskS := by
  unfold State.rccBayOpen
  dsimp only
  split
  · exact s.setRcl_maskS b _ rfl
  · exact State.setRcl_maskS (s.setPend (bayRec b) .reclose none) b { s.rcl b with state := .idleOpen, shots := 0 } rfl
  · rfl

theorem rccBayOpen_outPlaces (s : State) (b : Bay) : (s.rccBayOpen b).riu = s.riu := by
  unfold State.rccBayOpen
  dsimp only
  split <;> rfl

/-- A slot at which nothing waits stays as it is. -/
theorem rccBayOpen_slot (h : (s.slot (bayRec b)).pend = Pending.none) :
    (s.rccBayOpen b).slot (bayRec b) = s.slot (bayRec b) := by
  unfold State.rccBayOpen
  dsimp only
  split
  · rfl
  · have hput := setPend_slot s (bayRec b) .reclose none
    rw [h, Pending.none_set, ← h] at hput
    exact hput
  · rfl

theorem rccBayOpen_dead (h : (s.rcl b).state = .dead) : (s.rccBayOpen b).rcl b =
    { s.rcl b with state := .idleOpen, shots := 0, deadTimer := none, springTimer := none } := by
  unfold State.rccBayOpen
  simp only [h]
  exact State.setRcl_rcl _ _ _

theorem rccBayOpen_waiting (h : (s.rcl b).state = .closing .waiting) :
    (s.rccBayOpen b).rcl b = { s.rcl b with state := .idleOpen, shots := 0 } := by
  unfold State.rccBayOpen
  simp only [h]
  exact State.setRcl_rcl _ _ _

theorem rccBayOpen_other (hdead : (s.rcl b).state ≠ .dead) (hwaits : (s.rcl b).state ≠ .closing .waiting) :
    s.rccBayOpen b = s := by
  unfold State.rccBayOpen
  dsimp only
  split
  · next h => exact absurd h hdead
  · next h => exact absurd h hwaits
  · rfl

/-- What follows a placed BAY_OPEN, by the record. -/
def afterOpen (n : Rec) (t : State) : State :=
  match recBay n with
  | some b => t.rccBayOpen b
  | none => t

theorem opBayOpen_eq (n : Rec) (s : State) : State.opBayOpen n s = s.manage n .opening (afterOpen n) := rfl

theorem afterOpen_bay (b : Bay) (t : State) : afterOpen (bayRec b) t = t.rccBayOpen b := by
  unfold afterOpen
  rw [recBay_bayRec]

theorem placed_afterOpen {n : Rec} {s t : State} (h : Placed s t n .opening)
    (hpend : (s.slot n).state.isFree = true → (s.slot n).pend = Pending.none → (t.slot n).pend = Pending.none) :
    Placed s (afterOpen n t) n .opening := by
  cases hn : recBay n with
  | none =>
    rw [show afterOpen n t = t from by unfold afterOpen; rw [hn]]
    exact h
  | some b =>
    obtain rfl := bayRec_of_recBay hn
    rw [afterOpen_bay]
    have hmask := rccBayOpen_maskS t b
    refine ⟨h.local_.trans (State.rccBayOpen_at t b), fun c r hr => ?_,
      fun hcmd hfree hnone => ?_, fun hcmd => absurd hcmd (by decide), fun _ hcmd => absurd rfl hcmd⟩
    · rw [State.maskS_block hmask]
      exact h.reasons c r hr
    · rw [rccBayOpen_slot (hpend hfree hnone), rccBayOpen_outPlaces]
      exact h.issued hcmd hfree hnone

end bayOpen

/-- The bay may be closed from the gateway (R85). -/
theorem mayBayClose_iff {r : RecloseState} : r.mayBayClose = true ↔ r = .idleOpen ∨ ∃ c, r = .lockout c := by
  cases r <;> simp [RecloseState.mayBayClose]

theorem opBayClose_passes {s : State} {n : Rec}
    (h : ∀ b, n = bayRec b → (s.rcl b).state = .idleOpen ∨ ∃ c, (s.rcl b).state = .lockout c) :
    State.opBayClose n s = s.manage n .closing id := by
  unfold State.opBayClose
  split
  · next b hb => exact if_pos (mayBayClose_iff.mpr (h b (bayRec_of_recBay hb).symm))
  · rfl

theorem opBayClose_refused {s : State} {n : Rec}
    (h : ¬ ∀ b, n = bayRec b → (s.rcl b).state = .idleOpen ∨ ∃ c, (s.rcl b).state = .lockout c) :
    State.opBayClose n s = (s, refuse .state) := by
  simp only [not_forall] at h
  obtain ⟨b, rfl, hstate⟩ := h
  unfold State.opBayClose
  rw [recBay_bayRec]
  exact if_neg (mayBayClose_iff.not.mpr hstate)

theorem lampArgOf_code (a : LampArg) : lampArgOf a.code = some a := by cases a <;> rfl

theorem lampArgOf_eq_none {v : Nat} (h : 3 < v) : lampArgOf v = none := by
  obtain ⟨j, rfl⟩ := Nat.exists_eq_add_of_le' h
  rfl

section panel
variable {s : State} {n : Rec} {v : Word32}

theorem opBayIndicate_incomer (h : n = 8) : State.opBayIndicate v n s = (s, refuse .notCapable) := if_pos h

theorem opBayIndicate_bad (hn : n ≠ 8) (hv : 3 < v.toNat) : State.opBayIndicate v n s = (s, refuse .badArg) := by
  unfold State.opBayIndicate
  rw [if_neg hn, lampArgOf_eq_none hv]

theorem opBayIndicate_arg (hn : n ≠ 8) {a : LampArg} (ha : a.code = v.toNat) :
    State.opBayIndicate v n s = s.manage n (.indicate a) id := by
  unfold State.opBayIndicate
  rw [if_neg hn, ← ha, lampArgOf_code]

theorem opBayInterlock_incapable (h : n = 8 ∨ (s.cap n).hasInterlock = false) :
    State.opBayInterlock v n s = (s, refuse .notCapable) := if_pos h

theorem opBayInterlock_bad (h : ¬ (n = 8 ∨ (s.cap n).hasInterlock = false)) (hv : 1 < v.toNat) :
    State.opBayInterlock v n s = (s, refuse .badArg) := by
  unfold State.opBayInterlock
  rw [if_neg h, yesNo_eq_none hv]

theorem opBayInterlock_arg (h : ¬ (n = 8 ∨ (s.cap n).hasInterlock = false)) (hv : v.toNat ≤ 1) :
    State.opBayInterlock v n s = s.manage n (.interlock (v.toNat == 1)) id := by
  unfold State.opBayInterlock
  rw [if_neg h, yesNo_of_le hv]

end panel

/-- The request in progress is no part of what a placed request leaves. -/
theorem Placed.of_consumed {s t : State} {p : Progress} {n : Rec} {cmd : Command} (h : Placed (consumed s p) t n cmd) :
    Placed s t n cmd :=
  ⟨⟨h.local_.slots, h.local_.outPlaces, h.local_.reclose⟩, h.reasons, h.issued, h.completed, h.waits⟩

theorem afterOpen_maskS (n : Rec) (t : State) : (afterOpen n t).maskS = t.maskS := by
  unfold afterOpen
  split
  · exact rccBayOpen_maskS _ _
  · rfl

/-- At a FREE slot at which nothing waits, nothing waits after the issue. -/
theorem Placed.nothing_waits {s t : State} {n : Rec} {cmd : Command} (h : Placed s t n cmd)
    (hcmd : cmd ≠ .indicate .noChange) (hfree : (s.slot n).state.isFree = true) (hpend : (s.slot n).pend = Pending.none) :
    (t.slot n).pend = Pending.none := by
  obtain ⟨hslot, -⟩ := h.issued hcmd hfree hpend
  rw [hslot]
  exact hpend

/-- Settles O26: each op's own checks, and one MANAGEMENT request at the slot of the context. -/
theorem switchingActs : Obligations.SwitchingActs := by
  have hopen : ∀ {s : State} {p : Progress}, Runs s .bayOpen p → Lets s p.context .opening →
      exec .bayOpen s = .next ((afterOpen p.context (requested s p.context .management .opening)).opDone okAnswer) :=
    fun h hlets => exec_of_runOp rfl h (manage_accepted hlets)
  refine ⟨fun s p h => ⟨fun hlets => ?openPlaced, fun hserved => ?openService, fun hserved hlocal => ?openLocal⟩,
    fun s p b h hctx hlets hfree hpend => ?openReclose,
    fun s p h => ⟨fun hstate => ?closeState, fun hpass hserved hpart => ?closeStanddown, fun hpass hlets => ?closePlaced⟩,
    fun s p imm h => ⟨fun hn => exec_of_runImm rfl h (opBayIndicate_incomer hn),
      fun hn hv => exec_of_runImm rfl h (opBayIndicate_bad hn hv), fun hn a ha hlets => ?indicate⟩,
    fun s p imm h => ⟨fun hn => exec_of_runImm rfl h (opBayInterlock_incapable (s := consumed s p) hn),
      fun hn hcap hv => exec_of_runImm rfl h (opBayInterlock_bad (s := consumed s p) (by simp [hn]; exact hcap) hv),
      fun hn hcap hv hlets => ?interlock⟩⟩
  case openPlaced =>
    have hplaced := placed_requested hlets
    have hall := placed_afterOpen hplaced (hplaced.nothing_waits (by decide))
    exact ⟨_, hopen h hlets, onlySlots_of_mask ((afterOpen_maskS _ _).trans (requested_maskS (by decide))), hall.local_,
      hall.reasons, hall.issued, hall.completed, hall.waits⟩
  case openService => exact exec_of_runOp rfl h (manage_refused (judgeReq_service _ hserved))
  case openLocal => exact exec_of_runOp rfl h (manage_refused (judgeReq_local _ (by decide) hserved hlocal))
  case openReclose =>
    rw [← hctx] at hlets hfree hpend
    have hexec := hopen h hlets
    have hissued := requested_of_free (judgeReq_lets hlets) (by decide) ((isFree_iff_eq_free _).mp hfree) hpend
    have hrcl : (requested s p.context .management .opening).rcl b = s.rcl b := by
      rw [hissued]
      exact congrArg (fun v => Vector.look v b) (State.issueCmd_rcc _ _ _ _ (by decide))
    rw [hctx, afterOpen_bay, ← hctx] at hexec
    rw [← hrcl]
    exact ⟨_, hexec, rccBayOpen_dead, rccBayOpen_waiting, fun hdead hwaits => by rw [rccBayOpen_other hdead hwaits]⟩
  case closeState => exact exec_of_runOp rfl h (opBayClose_refused hstate)
  case closeStanddown =>
    exact exec_of_runOp rfl h ((opBayClose_passes hpass).trans (manage_refused (judgeReq_standdown _ hserved hpart)))
  case closePlaced =>
    have hall := placed_requested hlets
    exact ⟨_, exec_of_runOp rfl h ((opBayClose_passes hpass).trans (manage_accepted hlets)),
      onlySlots_of_mask (requested_maskS (by decide)), hall.local_, hall.reasons, hall.issued, hall.completed, hall.waits⟩
  case indicate =>
    have hall := (placed_requested (s := consumed s p) hlets).of_consumed
    exact ⟨_, exec_of_runImm rfl h ((opBayIndicate_arg hn ha).trans (manage_accepted (s := consumed s p) hlets)),
      onlySlots_of_mask (requested_maskS (by decide)), hall.local_, hall.reasons, hall.issued, hall.completed, hall.waits⟩
  case interlock =>
    have hall := (placed_requested (s := consumed s p) hlets).of_consumed
    exact ⟨_, exec_of_runImm rfl h ((opBayInterlock_arg (s := consumed s p) (by simp [hn]; exact hcap) hv).trans
        (manage_accepted (s := consumed s p) hlets)),
      onlySlots_of_mask (requested_maskS (by decide)), hall.local_, hall.reasons, hall.issued, hall.completed, hall.waits⟩

/-! ### RESET_LOCKOUT (R86) -/

section reset
variable {s : State} {b : Bay}

theorem idleState_eq (r : RecloseRecord) :
    r.idleState = if r.lastDefinite = some .closed then .idleClosed else .idleOpen := by
  simp only [RecloseRecord.idleState, beq_iff_eq]

theorem idleState_not_waiting (r : RecloseRecord) : r.idleState ≠ .closing .waiting := by
  unfold RecloseRecord.idleState
  split <;> decide

theorem opResetLockout_incomer {n : Rec} (h : n = 8) : State.opResetLockout n s = (s, refuse .notCapable) := by
  subst h
  rfl

theorem opResetLockout_bay (s : State) (b : Bay) : State.opResetLockout (bayRec b) s =
    if (s.rcl b).state.isLockout then
      ((s.setRcl b { s.rcl b with state := (s.rcl b).idleState, shots := 0 }).lamp (bayRec b) .off, okAnswer)
    else (s, refuse .state) := by
  unfold State.opResetLockout
  rw [recBay_bayRec]

end reset

/-- Settles O28: the record takes its idle state, and the lamp request acts at the bay's own slot. -/
theorem resetLockoutActs : Obligations.ResetLockoutActs := by
  intro s p h
  refine ⟨fun hn => exec_of_runOp rfl h (opResetLockout_incomer hn), fun b hb => ⟨fun hstate => ?_, fun c hstate => ?_⟩⟩
  · refine exec_of_runOp rfl h ?_
    rw [hb, opResetLockout_bay, isLockout_eq_false hstate]
    rfl
  · have hput : (s.setRcl b { s.rcl b with state := (s.rcl b).idleState, shots := 0 }).rcl b =
        { s.rcl b with state := (s.rcl b).idleState, shots := 0 } := State.setRcl_rcl _ _ _
    refine ⟨_, exec_of_runOp rfl h (by rw [hb, opResetLockout_bay, hstate]; rfl), ?_, ?_, ?_⟩
    · rw [lamp_rcl _ _ (by rw [hput]; exact idleState_not_waiting _), hput, idleState_eq]
    · exact onlySlots_of_mask ((State.lamp_maskS _ _ _).trans
        (s.setRcl_maskS b { s.rcl b with state := (s.rcl b).idleState, shots := 0 } rfl))
    · exact (s.setRcl_at b _).trans (State.lamp_at _ _ _)

end Sys2Proof.Proofs.Switching
/-! The event out-slot: which factor is the most eligible (R169 to R171); the clearing of factors by the gateway (R173); the ops that
store a report setting or the time (R167, R168, R197). -/

namespace Sys2Proof.Proofs.EventSlot

open Sys2Proof.Machine Sys2Proof.Safety Sys2Proof.Proofs.CaptureOps Sys2Proof.Proofs.CaptureEnds

/-! ### The most eligible factor (R169) -/

section best
variable {s : State}

/-- The more eligible of two factors comes first: the higher level, and at the same level the lower number. -/
def Outranks (s : State) (g h : Factor) : Prop :=
  (s.fac h).level < (s.fac g).level ∨ ((s.fac h).level = (s.fac g).level ∧ g ≤ h)

/-- The best factor of a list, none where none of it is eligible. -/
def Best (s : State) (l : List Factor) : Option Factor → Prop
  | none => ∀ h ∈ l, s.eligible h = false
  | some g => g ∈ l ∧ s.eligible g = true ∧ ∀ h ∈ l, s.eligible h = true → Outranks s g h

theorem outranks_refl (s : State) (g : Factor) : Outranks s g g := .inr ⟨rfl, le_rfl⟩

theorem best_betterFactor {l : List Factor} {o : Option Factor} {f : Factor} (hl : ∀ g ∈ l, g ≤ f) (h : Best s l o) :
    Best s (l ++ [f]) (betterFactor s o f) := by
  have hmem : ∀ {x}, x ∈ l ++ [f] ↔ x ∈ l ∨ x = f := fun {x} => by rw [List.mem_append, List.mem_singleton]
  unfold betterFactor
  cases hf : s.eligible f with
  | false =>
    rw [if_neg Bool.false_ne_true]
    cases o with
    | none => exact fun x hx => (hmem.mp hx).elim (h x) (fun e => e ▸ hf)
    | some g =>
      obtain ⟨hg, hel, hbest⟩ := h
      refine ⟨hmem.mpr (.inl hg), hel, fun x hx hxe => ?_⟩
      rcases hmem.mp hx with hx | rfl
      · exact hbest x hx hxe
      · exact absurd hxe (by rw [hf]; decide)
  | true =>
    rw [if_pos rfl]
    cases o with
    | none =>
      refine ⟨hmem.mpr (.inr rfl), hf, fun x hx hxe => ?_⟩
      rcases hmem.mp hx with hx | rfl
      · exact absurd hxe (by rw [h x hx]; decide)
      · exact outranks_refl s x
    | some g =>
      obtain ⟨hg, hel, hbest⟩ := h
      dsimp only
      split
      · next hlevel =>
        refine ⟨hmem.mpr (.inr rfl), hf, fun x hx hxe => ?_⟩
        rcases hmem.mp hx with hx | rfl
        · have hle : (s.fac x).level ≤ (s.fac g).level := (hbest x hx hxe).elim Nat.le_of_lt (fun e => e.1.le)
          exact .inl (hle.trans_lt hlevel)
        · exact outranks_refl s x
      · next hlevel =>
        refine ⟨hmem.mpr (.inl hg), hel, fun x hx hxe => ?_⟩
        rcases hmem.mp hx with hx | rfl
        · exact hbest x hx hxe
        · exact (Nat.not_lt.mp hlevel).lt_or_eq.imp_right fun e => ⟨e, hl g hg⟩

theorem best_foldl {l done : List Factor} {o : Option Factor} (hdone : ∀ g ∈ done, ∀ f ∈ l, g ≤ f)
    (hl : l.Pairwise (· ≤ ·)) (h : Best s done o) : Best s (done ++ l) (l.foldl (betterFactor s) o) := by
  induction l generalizing done o with
  | nil => rwa [List.append_nil]
  | cons f l ih =>
    obtain ⟨hf, hl⟩ := List.pairwise_cons.mp hl
    have hstep := best_betterFactor (fun g hg => hdone g hg f List.mem_cons_self) h
    have hnext := ih (fun g hg x hx => ?_) hl hstep
    · rwa [List.append_assoc] at hnext
    · rcases List.mem_append.mp hg with hg | hg
      · exact hdone g hg x (List.mem_cons_of_mem _ hx)
      · exact List.mem_singleton.mp hg ▸ hf x hx

theorem mem_allFactors (f : Factor) : f ∈ allFactors := by revert f; decide

theorem mostEligible_best (s : State) : Best s allFactors s.mostEligible :=
  best_foldl (done := []) (o := none) nofun (by decide) nofun

theorem mostEligible_some {g : Factor} (h : s.mostEligible = some g) :
    s.eligible g = true ∧ ∀ f, s.eligible f = true → Outranks s g f := by
  have hbest := mostEligible_best s
  rw [h] at hbest
  exact ⟨hbest.2.1, fun f => hbest.2.2 f (mem_allFactors f)⟩

theorem mostEligible_none (h : s.mostEligible = none) (f : Factor) : s.eligible f = false := by
  have hbest := mostEligible_best s
  rw [h] at hbest
  exact hbest f (mem_allFactors f)

/-- What the out-slot holds where it is judged (R170, R171). -/
theorem outSlotNow_some {g : Factor} {w : Frame} (h : s.outSlotNow = some (g, w)) :
    s.evu.dest ≠ 0 ∧ w = s.eventFrame g ∧ s.mostEligible = some g := by
  unfold State.outSlotNow at h
  split at h
  · cases h
  · next hdest =>
    obtain ⟨f, hf, hpair⟩ := Option.map_eq_some_iff.mp h
    obtain ⟨rfl, rfl⟩ := Prod.mk.inj hpair
    exact ⟨hdest, rfl, hf⟩

theorem outSlotNow_none (h : s.outSlotNow = none) : s.evu.dest = 0 ∨ ∀ f, s.eligible f = false := by
  unfold State.outSlotNow at h
  split at h
  · next hdest => exact .inl hdest
  · exact .inr (mostEligible_none (Option.map_eq_none_iff.mp h))

end best

/-! ### Factors cleared (R173) -/

section clear
variable {s : State} {f g : Factor} {l : List Factor}

theorem clearFactor_fac (s : State) (f g : Factor) :
    (s.clearFactor f).fac g = if f = g then (s.fac f).clear else s.fac g := by
  have hfac : (s.clearFactor f).fac g = (s.setFac f (s.fac f).clear).fac g := by
    unfold State.clearFactor
    dsimp only
    split <;> rfl
  rw [hfac, State.setFac_fac_at]

theorem clearFactor_released (hheld : (s.fac f).held = true) (k : Chan) : ((s.clearFactor f).chan k).holding ≠ some f := by
  unfold State.clearFactor
  dsimp only
  rw [if_pos hheld]
  show (((s.setFac f (s.fac f).clear).dropHolds f).chan k).holding ≠ some f
  by_cases h : (s.chan k).holding = some f
  · rw [dropHolds_chan_of_holding (u := s.setFac f (s.fac f).clear) h]
    nofun
  · rw [dropHolds_chan_of_not_holding (u := s.setFac f (s.fac f).clear) h]
    exact h

/-- A clearing makes no channel hold. -/
theorem clearFactor_holding (h : ∀ k, (s.chan k).holding ≠ some g) (k : Chan) :
    ((s.clearFactor f).chan k).holding ≠ some g := by
  unfold State.clearFactor
  dsimp only
  split
  · show (((s.setFac f (s.fac f).clear).dropHolds f).chan k).holding ≠ some g
    by_cases hk : (s.chan k).holding = some f
    · rw [dropHolds_chan_of_holding (u := s.setFac f (s.fac f).clear) hk]
      nofun
    · rw [dropHolds_chan_of_not_holding (u := s.setFac f (s.fac f).clear) hk]
      exact h k
  · exact h k

theorem clearFactor_outSlot (s : State) (f : Factor) : (s.clearFactor f).evu.outSlot = (s.clearFactor f).outSlotNow := rfl

/-- The factors of a list cleared in turn. -/
def cleared (l : List Factor) (s : State) : State := forEach l (fun f t => t.clearFactor f) s

theorem cleared_cons (f : Factor) (l : List Factor) (s : State) : cleared (f :: l) s = cleared l (s.clearFactor f) := rfl

theorem cleared_maskE (l : List Factor) (s : State) : (cleared l s).maskE = s.maskE :=
  forEach_keep State.maskE _ (fun f t => t.clearFactor_maskE f) _ _

theorem cleared_fac (l : List Factor) (s : State) (g : Factor) :
    (cleared l s).fac g = if g ∈ l then (s.fac g).clear else s.fac g := by
  induction l generalizing s with
  | nil => rfl
  | cons f l ih =>
    rw [cleared_cons, ih, clearFactor_fac]
    by_cases hfg : f = g
    · subst hfg
      simp only [if_true, List.mem_cons, true_or]
      split <;> rfl
    · simp only [if_neg hfg, List.mem_cons, Ne.symm hfg, false_or]

theorem cleared_holding (h : ∀ k, (s.chan k).holding ≠ some g) (k : Chan) : ((cleared l s).chan k).holding ≠ some g := by
  induction l generalizing s with
  | nil => exact h k
  | cons f l ih => exact ih (clearFactor_holding h)

theorem cleared_released (hl : g ∈ l) (hheld : (s.fac g).held = true) (k : Chan) :
    ((cleared l s).chan k).holding ≠ some g := by
  induction l generalizing s with
  | nil => cases hl
  | cons f l ih =>
    by_cases hfg : f = g
    · subst hfg
      exact cleared_holding (clearFactor_released hheld) k
    · refine ih ((List.mem_cons.mp hl).resolve_left (Ne.symm hfg)) ?_
      rw [clearFactor_fac, if_neg hfg]
      exact hheld

theorem cleared_outSlot (hl : l ≠ []) (s : State) : (cleared l s).evu.outSlot = (cleared l s).outSlotNow := by
  induction l generalizing s with
  | nil => exact absurd rfl hl
  | cons f l ih =>
    rw [cleared_cons]
    cases l with
    | nil => exact clearFactor_outSlot s f
    | cons g l => exact ih (by simp) _

/-- No factor of the list waits in the out-slot. -/
theorem cleared_withdrawn (hl : g ∈ l) {w : Frame} (h : (cleared l s).evu.outSlot = some (g, w)) : False := by
  rw [cleared_outSlot (List.ne_nil_of_mem hl)] at h
  obtain ⟨-, -, hbest⟩ := outSlotNow_some h
  obtain ⟨helig, -⟩ := mostEligible_some hbest
  have hfac := cleared_fac l s g
  rw [if_pos hl] at hfac
  have : (cleared l s).eligible g = false := by
    unfold State.eligible
    rw [hfac]
    rfl
  exact absurd helig (by rw [this]; decide)

theorem mem_factorSet {v : Word32} : f ∈ factorSet v ↔ v.getLsbD f.val = true := by
  unfold factorSet
  rw [List.mem_filter]
  exact and_iff_right (mem_allFactors f)

theorem opClearEvents_refused {v : Word32} (n : Rec) (h : 16777215 < v.toNat) :
    State.opClearEvents v n s = (s, refuse .badArg) := if_pos h

theorem opClearEvents_cleared {v : Word32} (n : Rec) (h : v.toNat ≤ 16777215) : State.opClearEvents v n s =
    (cleared (factorSet v) s, okValue (value (allFactors.filter fun f => v.getLsbD f.val && (s.fac f).flag).length)) := by
  unfold State.opClearEvents
  rw [if_neg (by omega)]
  unfold factorSet
  dsimp only
  rw [List.filter_filter]
  simp only [Bool.and_comm]
  rfl

end clear

/-- Settles O33: each factor of the set is cleared, whatever the order, and none other. -/
theorem eventsCleared : Obligations.EventsCleared := by
  intro s p imm h
  refine ⟨fun hv => exec_of_runImm rfl h (opClearEvents_refused _ hv), fun hv =>
    ⟨_, exec_of_runImm rfl h (opClearEvents_cleared (s := consumed s p) _ hv), onlyEvents_of_mask (cleared_maskE _ _),
      fun f hf => ?_, fun f hf => ?_⟩⟩
  · have hmem : f ∈ factorSet (valueOf p imm) := mem_factorSet.mpr hf
    refine ⟨(cleared_fac _ _ f).trans (if_pos hmem), fun hheld => cleared_released hmem hheld, fun w hw => cleared_withdrawn hmem hw⟩
  · have hmem : f ∉ factorSet (valueOf p imm) := fun hin => by
      rw [mem_factorSet, hf] at hin
      cases hin
    exact (cleared_fac _ _ f).trans (if_neg hmem)

/-! ### Report settings and the time (R167, R168, R197) -/

section settings
variable {s : State} {v : Word32} (n : Rec)

theorem opThreshold_refused (h : 7 < v.toNat) : State.opThreshold v n s = (s, refuse .badArg) := if_pos h

theorem opThreshold_held (h : v.toNat ≤ 7) (heq : v.toNat = s.evu.threshold) : State.opThreshold v n s = (s, okValue v) := by
  unfold State.opThreshold
  rw [if_neg (by omega), if_pos heq.symm]

theorem opThreshold_stored (h : v.toNat ≤ 7) (hne : v.toNat ≠ s.evu.threshold) : State.opThreshold v n s =
    (({ s with evu := { s.evu with threshold := v.toNat } } : State).judgeOutSlot, okValue v) := by
  unfold State.opThreshold
  rw [if_neg (by omega), if_neg (Ne.symm hne)]

theorem opReportDest_refused (h : 63 < v.toNat) : State.opReportDest v n s = (s, refuse .badArg) := if_pos h

theorem opReportDest_own (h : v.toNat ≤ 63) (hown : v.toNat = s.riu.own.toNat) :
    State.opReportDest v n s = (s, refuse .conflict) := (if_neg (by omega)).trans (if_pos hown)

theorem opReportDest_stored (h : v.toNat ≤ 63) (hown : v.toNat ≠ s.riu.own.toNat) : State.opReportDest v n s =
    (({ s with evu := { s.evu with dest := v.toNat } } : State).judgeOutSlot, okAnswer) :=
  (if_neg (by omega)).trans (if_neg hown)

end settings

/-- Settles O34, by the checks of the three ops. -/
theorem reportSettingsStored : Obligations.ReportSettingsStored :=
  ⟨fun s p _ h => ⟨fun hv => exec_of_runImm rfl h (opThreshold_refused _ hv),
      fun hv heq => exec_of_runImm rfl h (opThreshold_held (s := consumed s p) _ hv heq),
      fun hv hne => exec_of_runImm rfl h (opThreshold_stored (s := consumed s p) _ hv hne)⟩,
    fun s p _ h => ⟨fun hv => exec_of_runImm rfl h (opReportDest_refused _ hv),
      fun hv hown => exec_of_runImm rfl h (opReportDest_own (s := consumed s p) _ hv hown),
      fun hv hown => exec_of_runImm rfl h (opReportDest_stored (s := consumed s p) _ hv hown)⟩,
    fun _ _ _ h => exec_of_runImm rfl h rfl⟩

end Sys2Proof.Proofs.EventSlot

/-! O37: a cold reset and the held reset pin (R181, R185, R196). -/

namespace Sys2Proof.Proofs.Resets
open Sys2Proof.Machine Sys2Proof.Safety

/-- A part held in reset answers a command that needs it awake by standing still (log entry 8). -/
theorem live_of_held {s : State} (t : State) (h : s.pins.resetHeld = true) : s.live t = .next s := by
  unfold State.live
  rw [if_pos h]

/-- Every command but the release, the pins' own changes is given only to a part that is not held in reset. -/
theorem exec_of_held (c : Instr) {s : State} (h : s.pins.resetHeld = true) (hcold : ∀ straps, c ≠ .coldReset straps)
    (htfb : ∀ a, c ≠ .tfbPinChange a) (hpin : c ≠ .resetPinAsserted) : exec c s = .next s := by
  cases c with
  | coldReset straps => exact absurd rfl (hcold straps)
  | tfbPinChange a => exact absurd rfl (htfb a)
  | resetPinAsserted => exact absurd rfl hpin
  | _ => exact live_of_held _ h

theorem chan_cold (k : Chan) : Recorder.cold.chans.look k = Channel.cold k := by revert k; decide

section cold
variable (straps : BitVec 6) (tfb : Bool) (l : List Instr)

theorem cold_src (e : SrcIx) : (State.cold straps tfb l).src e = SourceEntry.cold := Vector.look_replicate _ e

theorem cold_ctx (e : SrcIx) : (State.cold straps tfb l).ctx e = SourceCtx.fresh := Vector.look_replicate _ e

theorem cold_elem (b : Bay) : (State.cold straps tfb l).elem b = Elements.cold := Vector.look_replicate _ b

theorem cold_dir (b : Bay) : (State.cold straps tfb l).dir b = .unavailable := Vector.look_replicate _ b

theorem cold_rcl (b : Bay) : (State.cold straps tfb l).rcl b = RecloseRecord.cold := Vector.look_replicate _ b

theorem cold_cap (n : Rec) : (State.cold straps tfb l).cap n = Capability.cold := Vector.look_replicate _ n

theorem cold_slot (n : Rec) : (State.cold straps tfb l).slot n = Slot.cold := Vector.look_replicate _ n

theorem cold_status (n : Rec) : (State.cold straps tfb l).status n = BayStatus.cold := Vector.look_replicate _ n

theorem cold_chan (k : Chan) : (State.cold straps tfb l).chan k = Channel.cold k := chan_cold k

theorem cold_fac (f : Factor) : (State.cold straps tfb l).fac f = FactorRecord.cold := Vector.look_replicate _ f

end cold

/-- The bay that channel k records is bay k, and its other fields are those of every channel. -/
theorem channel_cold (k : Chan) : (Channel.cold k).bay.val = k.val ∧
    Channel.cold k = { trigger := 0, bay := (Channel.cold k).bay, pre := 1, length := 4, reportAtEnd := true,
                       state := .disarmed, rows := [], target := 128, truncated := false, holding := none } := ⟨rfl, rfl⟩

/-- Settles O37: the part after a cold reset read off table by table, and exec_of_held. -/
theorem resetsTake : Obligations.ResetsTake := by
  refine ⟨fun straps s => ⟨State.cold straps s.pins.tfb s.pending, rfl, rfl, rfl, rfl, rfl, rfl, rfl, rfl, rfl, ?src, rfl, ?windows,
    ?groups, ?counts, ?stations, ?points, ?bays, rfl, ?recs, rfl, rfl, rfl, rfl, rfl, rfl, rfl, rfl, rfl, rfl, rfl, rfl, rfl, rfl,
    rfl, rfl, rfl, rfl, rfl, rfl, rfl, rfl, rfl, rfl, ?ring, rfl, ?segments, ?chans, ?facs, rfl, rfl, rfl, rfl, rfl, rfl, rfl,
    rfl, rfl, rfl, rfl⟩, fun _ => rfl, fun c s h hcold htfb hpin => exec_of_held c h hcold htfb hpin⟩
  case src =>
    intro e
    rw [cold_ctx]
    exact ⟨cold_src _ _ _ e, rfl, rfl, rfl, rfl, rfl, rfl, rfl⟩
  case windows => exact fun b => ⟨Vector.look_replicate _ b, Vector.look_replicate _ b, Vector.look_replicate _ b⟩
  case groups =>
    intro g b k
    simp only [State.cold, Pru.cold, Group.cold, Vector.look_replicate]
  case counts =>
    intro c
    simp only [State.cold, Pru.cold, Curve.cold, Vector.look_replicate]
  case stations =>
    intro g k
    simp only [State.cold, Pru.cold, Group.cold, Vector.look_replicate]
  case points =>
    intro c k
    simp only [State.cold, Pru.cold, Curve.cold, Vector.look_replicate, and_self]
  case bays => exact fun b => ⟨cold_elem _ _ _ b, cold_dir _ _ _ b, cold_rcl _ _ _ b⟩
  case recs =>
    intro n
    rw [cold_status]
    exact ⟨cold_cap _ _ _ n, cold_slot _ _ _ n, rfl, rfl, rfl, Vector.look_replicate _ n⟩
  case ring => exact Vector.look_replicate _
  case segments => exact Vector.look_replicate _
  case chans =>
    intro k
    rw [cold_chan]
    exact channel_cold k
  case facs => exact cold_fac _ _ _

end Sys2Proof.Proofs.Resets

/-! The ring: a management request arrives (R178), and OUT takes a frame (R182). -/

namespace Sys2Proof.Proofs.RingFrames
open Sys2Proof.Machine Sys2Proof.Safety Sys2Proof.Proofs.FrameArrival Sys2Proof.Proofs.EventSlot

/-! ### The form of a request (R178) -/

theorem word32_bytes32 (w : Word32) :
    word32 (w.extractLsb' 24 8) (w.extractLsb' 16 8) (w.extractLsb' 8 8) (w.extractLsb' 0 8) = w := by
  unfold word32
  ext i hi
  simp only [BitVec.getElem_append, BitVec.getElem_extractLsb']
  split_ifs <;> (rw [← BitVec.getLsbD_eq_getElem]; congr 1; omega)

theorem opWords_flatMap (ops : List Word32) : opWords (ops.flatMap bytes32) = some ops := by
  induction ops with
  | nil => rfl
  | cons w ops ih =>
    show (opWords (ops.flatMap bytes32)).map _ = _
    rw [ih, Option.map_some, word32_bytes32]

theorem length_of_opWords {l : List Byte} {ops : List Word32} (h : opWords l = some ops) : l.length = 4 * ops.length := by
  induction l using opWords.induct generalizing ops with
  | case1 => cases h; rfl
  | case2 a b c d rest ih =>
    obtain ⟨tail, htail, rfl⟩ := Option.map_eq_some_iff.mp h
    simp only [List.length_cons, ih htail]
    omega
  | case3 l hnil hcons => simp [opWords] at h

section form
variable {src t1 t0 flags count : Byte} {payload : List Byte}

theorem parseRequest_good {ops : List Word32} (hcount : count.toNat = ops.length) (hlow : 1 ≤ ops.length)
    (hhigh : ops.length ≤ 32) : parseRequest src ([t1, t0, flags, count] ++ ops.flatMap bytes32) =
      some { tag := t1 ++ t0, stop := flags.getLsbD 0, ops := ops, src := src } := by
  simp only [List.cons_append, List.nil_append, parseRequest, opWords_flatMap]
  exact if_pos ⟨hcount ▸ hlow, hcount ▸ hhigh, hcount.symm⟩

theorem parseRequest_short (h : payload.length < 4) : parseRequest src payload = none := by
  unfold parseRequest
  split
  · simp only [List.length_cons] at h
    omega
  · rfl

theorem parseRequest_bad {rest : List Byte} (h : count.toNat = 0 ∨ 32 < count.toNat ∨ rest.length ≠ 4 * count.toNat) :
    parseRequest src ([t1, t0, flags, count] ++ rest) = none := by
  simp only [List.cons_append, List.nil_append, parseRequest]
  split
  · next ops hops =>
    have hlength := length_of_opWords hops
    exact if_neg fun hgood => by omega
  · rfl

end form

section request
variable {s : State} {src : Byte} {payload : List Byte}

theorem actOn_request {f : Frame} (hsrc : f.src ≠ s.ownByte) (hdest : f.dest = s.ownByte) (hkind : f.kind = kindRequest) :
    s.actOn f = s.offerRequest f := by
  have hline : s.classify f = .consume := by simp [State.classify, hsrc, hdest, hkind]
  simp [State.actOn, hline]

theorem exec_mgmtReqFrame (hfree : s.pins.resetHeld = false) (hpart : s.mgu.part ≠ .bypass) (hsrc : src ≠ s.ownByte)
    (hlength : payload.length ≤ 1024) : exec (.mgmtReqFrame s.ownByte src payload) s =
      .next (s.refreshIn.offerRequest (buildFrame s.ownByte src kindRequest payload)) :=
  (State.live_of_free hfree _).trans (congrArg _ ((receive_of_good hpart (buildFrame_good hlength s.ownByte src kindRequest)).trans
    (actOn_request (s := s.refreshIn) hsrc rfl rfl)))

theorem offerRequest_discarded {f : Frame} (h : parseRequest f.src f.payload = none) : s.offerRequest f = s := by
  unfold State.offerRequest
  rw [h]

theorem offerRequest_queued {f : Frame} {r : Request} (h : parseRequest f.src f.payload = some r)
    (hroom : s.mgu.queue.length < 4) : s.offerRequest f = { s with mgu := { s.mgu with queue := s.mgu.queue ++ [r] } } := by
  unfold State.offerRequest
  rw [h]
  exact if_pos hroom

theorem offerRequest_dropped {f : Frame} {r : Request} (h : parseRequest f.src f.payload = some r)
    (hfull : 4 ≤ s.mgu.queue.length) : s.offerRequest f = (dropped s).occur fRingOverrun 0 [2] := by
  unfold State.offerRequest
  rw [h]
  exact if_neg hfull.not_gt

end request

/-- Settles O39, by the form of the request and the room in the queue. -/
theorem requestQueued : Obligations.RequestQueued := by
  intro s src payload hfree hpart hsrc hlength
  have hexec := exec_mgmtReqFrame hfree hpart hsrc hlength
  have hdiscards (h : parseRequest src payload = none) : exec (.mgmtReqFrame s.ownByte src payload) s = .next s.refreshIn :=
    hexec.trans (congrArg _ (offerRequest_discarded h))
  refine ⟨fun t1 t0 flags count ops hpayload hcount hlow hhigh => ?_, fun hshort => hdiscards (parseRequest_short hshort),
    fun t1 t0 flags count rest hpayload hbad => hdiscards (hpayload ▸ parseRequest_bad hbad)⟩
  have hparse : parseRequest src payload = _ := hpayload ▸ parseRequest_good hcount hlow hhigh
  refine ⟨fun hroom => hexec.trans (congrArg _ (offerRequest_queued (s := s.refreshIn) hparse hroom)), fun hfull =>
    ⟨_, hexec.trans (congrArg _ (offerRequest_dropped (s := s.refreshIn) hparse hfull)), ?_⟩⟩
  exact onlyEvents_of_mask ((dropped s.refreshIn).occur_maskE fRingOverrun 0 [2])

/-! ### The arbiter of OUT (R182) -/

section out
variable {s : State}

theorem allRecs_split (n : Rec) : allRecs = allRecs.take n.val ++ n :: allRecs.drop (n.val + 1) ∧
    ∀ m ∈ allRecs.take n.val, m < n := by revert n; decide

theorem firstOutPlace_some {n : Rec} {f : Frame} (h : s.riu.outPlaces.look n = some f)
    (hfirst : ∀ m, m < n → s.riu.outPlaces.look m = none) : s.firstOutPlace = some (n, f) := by
  obtain ⟨hsplit, hlower⟩ := allRecs_split n
  unfold State.firstOutPlace
  rw [List.head?_filterMap, List.findSome?_eq_some_iff]
  refine ⟨_, n, _, hsplit, by rw [h]; rfl, fun m hm => by rw [hfirst m (hlower m hm)]; rfl⟩

theorem firstOutPlace_none (h : ∀ n, s.riu.outPlaces.look n = none) : s.firstOutPlace = none := by
  unfold State.firstOutPlace
  rw [List.head?_filterMap, List.findSome?_eq_none_iff]
  exact fun n _ => by rw [h n]; rfl

theorem takeOut_command {n : Rec} {f : Frame} (h : s.firstOutPlace = some (n, f)) :
    s.takeOut = (s.setOutPlace n none).send f := by
  unfold State.takeOut
  rw [h]

variable (hfirst : s.firstOutPlace = none)
include hfirst

theorem takeOut_forwarded {f : Frame} {rest : List Frame} (hfwd : s.riu.fwd = f :: rest) :
    s.takeOut = ({ s with riu := { s.riu with fwd := rest } } : State).send f := by
  unfold State.takeOut
  rw [hfirst]
  dsimp only
  rw [hfwd]

variable (hfwd : s.riu.fwd = [])
include hfwd

theorem takeOut_reply {f : Frame} {rest : List Frame} (hreplies : s.riu.replies = f :: rest) :
    s.takeOut = ({ s with riu := { s.riu with replies := rest } } : State).send f := by
  unfold State.takeOut
  rw [hfirst]
  dsimp only
  rw [hfwd]
  dsimp only
  rw [hreplies]

variable (hreplies : s.riu.replies = [])
include hreplies

theorem takeOut_event {g : Factor} {f : Frame} (hslot : s.evu.outSlot = some (g, f)) :
    s.takeOut = (s.send f).eventTaken g := by
  unfold State.takeOut
  rw [hfirst]
  dsimp only
  rw [hfwd]
  dsimp only
  rw [hreplies]
  dsimp only
  rw [hslot]

variable (hslot : s.evu.outSlot = none)
include hslot

theorem takeOut_capture {f : Frame} {rest : List Frame} (hqueue : s.riu.capQueue = f :: rest) :
    s.takeOut = (({ s with riu := { s.riu with capQueue := rest } } : State).send f).placeBlock := by
  unfold State.takeOut
  rw [hfirst]
  dsimp only
  rw [hfwd]
  dsimp only
  rw [hreplies]
  dsimp only
  rw [hslot]
  dsimp only
  rw [hqueue]

theorem takeOut_nothing (hqueue : s.riu.capQueue = []) :
    s.takeOut = { s with riu := { s.riu with sending := none } } := by
  unfold State.takeOut
  rw [hfirst]
  dsimp only
  rw [hfwd]
  dsimp only
  rw [hreplies]
  dsimp only
  rw [hslot]
  dsimp only
  rw [hqueue]

end out

section taken
variable {s : State}

theorem placeBlock_nothing (h : s.recd.readouts = []) : s.placeBlock = s := by
  unfold State.placeBlock
  rw [h]

/-- A block that finds a free place joins the queue, and nothing but the queue and the readouts changes (R163). -/
theorem placeBlock_placed (hreading : s.recd.readouts ≠ []) (hroom : s.riu.capQueue.length < 4) :
    s.placeBlock.riu.capQueue.length = s.riu.capQueue.length + 1 ∧
    s.placeBlock = { s with recd := { s.recd with readouts := s.placeBlock.recd.readouts },
                            riu := { s.riu with capQueue := s.placeBlock.riu.capQueue } } := by
  obtain ⟨r, rest, hr⟩ := List.exists_cons_of_ne_nil hreading
  unfold State.placeBlock
  rw [hr]
  dsimp only
  rw [if_pos (show s.riu.capQueue.length < Config.captureQueueSize from hroom)]
  exact ⟨List.length_append, rfl⟩

theorem eventTaken_fac (s : State) (g h : Factor) :
    (s.eventTaken g).fac h = if g = h then { s.fac g with reported := true } else s.fac h :=
  State.setFac_fac_at (s := s) g _ h

theorem eventTaken_maskE (s : State) (g : Factor) : (s.eventTaken g).maskE = s.maskE :=
  State.setFac_maskE s g { s.fac g with reported := true } rfl

/-- A reported factor is not eligible, so the slot now holds the frame of another one, or none. -/
theorem eventTaken_outSlot {g h : Factor} {w : Frame} (hslot : (s.eventTaken g).evu.outSlot = some (h, w)) : h ≠ g := by
  rintro rfl
  obtain ⟨-, -, hbest⟩ := outSlotNow_some hslot
  have hel := (mostEligible_some hbest).1
  unfold State.eligible at hel
  rw [State.setFac_fac] at hel
  simp [FactorRecord.eligible] at hel

end taken

/-- Settles O42: the arbiter's cases, by the first place that holds a frame. -/
theorem outTakes : Obligations.OutTakes := by
  intro s hfree
  have hgoes {t : State} (h : s.takeOut = t) : exec .outTake s = .next t := h ▸ State.live_of_free hfree s.takeOut
  refine ⟨fun n f h hlower => hgoes (takeOut_command (firstOutPlace_some h hlower)), fun hnone f rest hfwd =>
    hgoes (takeOut_forwarded (firstOutPlace_none hnone) hfwd), fun hnone hfwd => ?_⟩
  have hfirst := firstOutPlace_none hnone
  refine ⟨fun f rest hreplies => hgoes (takeOut_reply hfirst hfwd hreplies), fun hreplies =>
    ⟨fun g f hslot => ⟨_, hgoes (takeOut_event hfirst hfwd hreplies hslot), rfl, ?_, fun h hne => ?_, fun h w => eventTaken_outSlot, ?_, rfl⟩,
      fun hslot => ⟨fun f rest hqueue hidle => hgoes ?_, fun f rest hqueue hroom hreading => ?_,
        fun hqueue => hgoes (takeOut_nothing hfirst hfwd hreplies hslot hqueue)⟩⟩⟩
  · exact (eventTaken_fac (s.send f) g g).trans (if_pos rfl)
  · exact (eventTaken_fac (s.send f) g h).trans (if_neg hne.symm)
  · exact onlyEvents_of_mask (eventTaken_maskE (s.send f) g)
  · exact (takeOut_capture hfirst hfwd hreplies hslot hqueue).trans (placeBlock_nothing hidle)
  · refine ⟨_, hgoes (takeOut_capture hfirst hfwd hreplies hslot hqueue), ?_⟩
    have hlength : rest.length + 1 = s.riu.capQueue.length := by rw [hqueue]; rfl
    obtain ⟨hcount, heq⟩ := placeBlock_placed (s := ({ s with riu := { s.riu with capQueue := rest } } : State).send f)
      hreading (show rest.length < 4 by omega)
    exact ⟨by rw [heq]; rfl, hcount.trans hlength, heq⟩

end Sys2Proof.Proofs.RingFrames

/-! The RCC's request for its CLOSE (R73), and the ends of the dead time, the spring wait and the reclaim time (R70, R71, R76). -/

namespace Sys2Proof.Proofs.RecloseTimers
open Sys2Proof.Machine Sys2Proof.Safety Sys2Proof.Proofs.HuntBays Sys2Proof.Proofs.SlotRules Sys2Proof.Proofs.FireInvariant
  Sys2Proof.Proofs.Requests Sys2Proof.Proofs.Switching

section lock
variable {s : State} {b : Bay}

/-- A reclose record once its bay has entered LOCKOUT (R79). -/
def lockedOut (r : RecloseRecord) (c : LockoutCause) : RecloseRecord :=
  { r with state := .lockout c, deadTimer := none, springTimer := none, reclaimTimer := .stopped }

theorem canLock_of (hruns : s.runs b = true) (hstate : ∀ c, (s.rcl b).state ≠ .lockout c) : s.canLock b = true := by
  unfold State.canLock
  rw [hruns, isLockout_eq_false hstate]
  rfl

theorem setRcl_setRcl (s : State) (b : Bay) (x y : RecloseRecord) : (s.setRcl b x).setRcl b y = s.setRcl b y := by
  unfold State.setRcl
  congr 1
  refine Vector.ext_look fun i => ?_
  simp only [Vector.look_put]
  split <;> rfl

theorem lock_rcl (hruns : s.runs b = true) (hstate : ∀ c, (s.rcl b).state ≠ .lockout c) (cause : LockoutCause) :
    (s.lock b cause).rcl b = lockedOut (s.rcl b) cause := State.lock_rcl (canLock_of hruns hstate)

end lock

/-! ### The reclose request (R73) -/

section request
variable {s : State} {b : Bay}

/-- The bay in CLOSING with close phase WAITING. -/
def recloseWaiting (s : State) (b : Bay) : State :=
  s.setRcl b { s.rcl b with state := .closing .waiting, deadTimer := none, springTimer := none }

theorem recloseWaiting_rcl (s : State) (b : Bay) : (recloseWaiting s b).rcl b =
    { s.rcl b with state := .closing .waiting, deadTimer := none, springTimer := none } := State.setRcl_rcl s b _

theorem requestReclose_accepted (h : s.judgeReq (bayRec b) .reclose .closing = none) :
    s.requestReclose b = requested (recloseWaiting s b) (bayRec b) .reclose .closing := by
  unfold State.requestReclose
  dsimp only
  rw [place_of_judged (s := s.setRcl b _) h]
  rfl

theorem requestReclose_refused {code : ResultCode} (h : s.judgeReq (bayRec b) .reclose .closing = some code) :
    s.requestReclose b = (recloseWaiting s b).lock b (refusalCause code) := by
  have hwaits : (recloseWaiting s b).isWaiting b = true := isWaiting_iff.mpr (by rw [recloseWaiting_rcl])
  unfold State.requestReclose
  dsimp only
  rw [place_of_refused (s := s.setRcl b _) h]
  exact if_pos hwaits

theorem requestReclose_refused_rcl {code : ResultCode} (h : s.judgeReq (bayRec b) .reclose .closing = some code)
    (hruns : s.runs b = true) : (s.requestReclose b).rcl b = lockedOut (s.rcl b) (refusalCause code) := by
  rw [requestReclose_refused h, lock_rcl (s := recloseWaiting s b) hruns (by rw [recloseWaiting_rcl]; exact nofun),
    recloseWaiting_rcl]
  rfl

/-- Where a command is in flight, the CLOSE waits (R73). -/
theorem requestReclose_waits (h : s.judgeReq (bayRec b) .reclose .closing = none)
    (hbusy : (s.slot (bayRec b)).state.isFree = false) :
    s.requestReclose b = (recloseWaiting s b).setPend (bayRec b) .reclose (some .closing) :=
  (requestReclose_accepted h).trans (requested_of_busy (s := recloseWaiting s b) hbusy)

/-- The slot after the issue, field by field: with nothing pending before, nothing is pending after. -/
theorem issued_of_nothing {x : Slot} {c : ReqClass} {cmd : Command} {at_ : Word32} {ms : Nat} (hx : x.pend = Pending.none) :
    x.issued c cmd at_ ms = { x with
      lastTag := if x.lastTag = 255 then 1 else x.lastTag + 1,
      state := .inFlight { cmd := cmd, tag := if x.lastTag = 255 then 1 else x.lastTag + 1, cls := c, issued := at_,
                           tripAttached := c == .trip, timer := ms } } := by
  unfold Slot.issued
  rw [hx, Pending.none_set, ← hx]
  rfl

section issued
variable (h : s.judgeReq (bayRec b) .reclose .closing = none) (hfree : (s.slot (bayRec b)).state = .free)
  (hpend : (s.slot (bayRec b)).pend = Pending.none)
include h hfree hpend

theorem requestReclose_issued : s.requestReclose b = (recloseWaiting s b).issueCmd (bayRec b) .reclose .closing :=
  (requestReclose_accepted h).trans (requested_of_free (s := recloseWaiting s b) h nofun hfree hpend)

theorem requestReclose_issued_slot : (s.requestReclose b).slot (bayRec b) =
    (s.slot (bayRec b)).issued .reclose .closing s.mono 250 := by
  rw [requestReclose_issued h hfree hpend]
  exact State.issueCmd_slot (recloseWaiting s b) _ _ _

/-- The issue of the CLOSE is told to the RCC, which counts the shot. -/
theorem requestReclose_issued_rcl : (s.requestReclose b).rcl b =
    { s.rcl b with state := .closing .issued, shots := min 4 ((s.rcl b).shots + 1), deadTimer := none, springTimer := none } := by
  rw [requestReclose_issued h hfree hpend]
  have htold : ∀ t : State, t.rcl b = (recloseWaiting s b).rcl b → (t.rccIssued b).rcl b = { s.rcl b with
      state := .closing .issued, shots := min 4 ((s.rcl b).shots + 1), deadTimer := none, springTimer := none } := by
    intro t ht
    rw [recloseWaiting_rcl] at ht
    unfold State.rccIssued
    rw [if_pos (isWaiting_iff.mpr (by rw [ht]))]
    dsimp only
    rw [State.setRcl_rcl, ht]
    rfl
  unfold State.issueCmd
  rw [recBay_bayRec]
  exact htold _ rfl

end issued

theorem judgeReq_reclose (hserved : (s.cap (bayRec b)).inService = true) (hpart : s.mgu.part ≠ .standdown)
    (hlocal : (s.status (bayRec b)).localMode = false) (hinterlock : (s.status (bayRec b)).interlock = false) :
    s.judgeReq (bayRec b) .reclose .closing = none :=
  State.judgeReq_none hserved (fun _ => hpart) hlocal (fun _ => hinterlock) nofun

/-- A CLOSE that an input keeps from being taken is refused with the input's code (R51). -/
theorem judgeReq_blocked {n : Rec} {c : ReqClass} (hserved : (s.cap n).inService = true) (hpart : s.mgu.part ≠ .standdown)
    (h : (s.status n).localMode = true ∨ (s.status n).interlock = true) :
    ∃ code, s.judgeReq n c .closing = some code ∧ code ≠ .standdown := by
  cases hlocal : (s.status n).localMode with
  | true => exact ⟨.localMode, by simp [State.judgeReq, hserved, hpart, hlocal], nofun⟩
  | false =>
    rw [hlocal] at h
    have hinterlock : (s.status n).interlock = true := h.resolve_left Bool.false_ne_true
    exact ⟨.interlock, by simp [State.judgeReq, hserved, hpart, hlocal, hinterlock], nofun⟩

theorem refusalCause_of_ne {code : ResultCode} (h : code ≠ .standdown) : refusalCause code = .protectionBlocked := by
  cases code with
  | standdown => exact absurd rfl h
  | _ => rfl

theorem served_of_runs (h : s.runs b = true) : (s.cap (bayRec b)).inService = true := (Bool.and_eq_true_iff.mp h).2

end request

/-! ### The ends of the times (R70, R71, R76) -/

section ends
variable {s : State} {b : Bay}

theorem deadDue_iff : s.deadDue b = true ↔ (s.rcl b).state = .dead ∧ (s.rcl b).deadTimer = some 0 := by
  rw [State.deadDue, Bool.and_eq_true, beq_iff_eq, due_iff]

theorem springDue_iff : s.springDue b = true ↔ (s.rcl b).state = .dead ∧ (s.rcl b).springTimer = some 0 := by
  rw [State.springDue, Bool.and_eq_true, beq_iff_eq, due_iff]

theorem reclaimDue_iff : s.reclaimDue b = true ↔ (s.rcl b).state = .reclaim ∧ (s.rcl b).reclaimTimer = .running 0 := by
  rw [State.reclaimDue, Bool.and_eq_true, beq_iff_eq, beq_iff_eq]

/-- The dead timer stopped, with the bay still in DEAD. -/
def deadStopped (s : State) (b : Bay) : State := s.setRcl b { s.rcl b with deadTimer := none }

theorem deadStopped_rcl (s : State) (b : Bay) : (deadStopped s b).rcl b = { s.rcl b with deadTimer := none } :=
  State.setRcl_rcl s b _

theorem deadEnded_lost (h : (s.status (bayRec b)).position ≠ .opened) :
    s.deadEnded b = (deadStopped s b).lock b .statusLost := if_pos h

theorem deadStopped_shots (h : (s.rcl b).shots < s.effShots b) :
    ¬ (deadStopped s b).effShots b ≤ ((deadStopped s b).rcl b).shots := by
  rw [deadStopped_rcl]
  exact h.not_ge

variable (hopen : (s.status (bayRec b)).position = .opened)
include hopen

theorem deadEnded_exhausted (h : s.effShots b ≤ (s.rcl b).shots) :
    s.deadEnded b = (deadStopped s b).lock b .shotsExhausted := by
  have hshots : (deadStopped s b).effShots b ≤ ((deadStopped s b).rcl b).shots := by rw [deadStopped_rcl]; exact h
  exact (if_neg (not_not_intro hopen)).trans (if_pos hshots)

variable (hshots : (s.rcl b).shots < s.effShots b)
include hshots

theorem deadEnded_springs (hspring : (s.cap (bayRec b)).hasSpring = true) (hdown : (s.status (bayRec b)).spring = false) :
    s.deadEnded b = (deadStopped s b).setRcl b { (deadStopped s b).rcl b with springTimer := some 2000 } := by
  refine ((if_neg (not_not_intro hopen)).trans (if_neg (deadStopped_shots hshots))).trans (if_pos ?_)
  show ((s.cap (bayRec b)).hasSpring && !(s.status (bayRec b)).spring) = true
  rw [hspring, hdown]
  rfl

theorem deadEnded_requests (h : (s.cap (bayRec b)).hasSpring = false ∨ (s.status (bayRec b)).spring = true) :
    s.deadEnded b = (deadStopped s b).requestReclose b := by
  refine ((if_neg (not_not_intro hopen)).trans (if_neg (deadStopped_shots hshots))).trans (if_neg ?_)
  show ¬ ((s.cap (bayRec b)).hasSpring && !(s.status (bayRec b)).spring) = true
  rw [Bool.and_eq_true, Bool.not_eq_true']
  rintro ⟨hhas, hdown⟩
  rw [hhas, hdown] at h
  exact h.elim nofun nofun

end ends

/-- Settles O45, by the timer and then by the branches of R70, R71 and R76. -/
theorem recloseTimersExpire : Obligations.RecloseTimersExpire := by
  intro s b hlive
  have hdead : ∀ t, s.deadEnded b = t → s.deadDue b = true → exec (.deadTimerExpiry b) s = .next t := fun t ht hdue =>
    (State.live_of_free hlive _).trans (congrArg _ ((if_pos hdue).trans ht))
  refine ⟨fun hstate htimer => ?dead, fun hnot => ?deadIdle, fun hstate htimer hruns => ?spring, fun hnot => ?springIdle,
    fun hstate htimer => ?reclaim, fun hnot => ?reclaimIdle⟩
  case dead =>
    have hdue := deadDue_iff.mpr ⟨hstate, htimer⟩
    have hexec := hdead _ rfl hdue
    have honly := onlySlots_of_mask (s.deadEnded_maskS b)
    have hat := s.deadEnded_at b
    have hlockable : ∀ c, ((deadStopped s b).rcl b).state ≠ .lockout c := by
      rw [deadStopped_rcl]
      exact fun c e => by cases hstate.symm.trans e
    have hlocks {t : State} (ht : s.deadEnded b = t) {cause : LockoutCause}
        (hrcl : t.rcl b = lockedOut ((deadStopped s b).rcl b) cause) : (s.deadEnded b).rcl b = lockedOut (s.rcl b) cause := by
      rw [ht, hrcl, deadStopped_rcl]
      rfl
    refine ⟨fun hruns hpos => ⟨_, hexec, honly, hat, hlocks (deadEnded_lost hpos) (lock_rcl (s := deadStopped s b) hruns hlockable _)⟩,
      fun hruns hopen hshots => ⟨_, hexec, honly, hat,
        hlocks (deadEnded_exhausted hopen hshots) (lock_rcl (s := deadStopped s b) hruns hlockable _)⟩,
      fun hopen hshots hspring hdown => hdead _ ?_ hdue, fun hopen hshots hready => ⟨?_, ?_⟩⟩
    · rw [deadEnded_springs hopen hshots hspring hdown, deadStopped_rcl]
      exact setRcl_setRcl s b _ _
    · intro hserved hpart hlocal hinterlock hfree hpend
      have hjudge : (deadStopped s b).judgeReq (bayRec b) .reclose .closing = none :=
        judgeReq_reclose (s := s) hserved hpart hlocal hinterlock
      refine ⟨_, hexec, honly, hat, ?_, ?_⟩
      · rw [deadEnded_requests hopen hshots hready, requestReclose_issued_rcl (s := deadStopped s b) hjudge hfree hpend,
          deadStopped_rcl]
      · rw [deadEnded_requests hopen hshots hready, requestReclose_issued_slot (s := deadStopped s b) hjudge hfree hpend]
        exact issued_of_nothing hpend
    · intro hruns hpart hblocked
      obtain ⟨code, hjudge, hcode⟩ := judgeReq_blocked (c := .reclose) (served_of_runs hruns) hpart hblocked
      refine ⟨_, hexec, honly, hat, hlocks (deadEnded_requests hopen hshots hready) ?_⟩
      rw [requestReclose_refused_rcl (s := deadStopped s b) hjudge hruns, refusalCause_of_ne hcode]
  case deadIdle =>
    refine (State.live_of_free hlive _).trans (congrArg _ (if_neg fun hdue => ?_))
    obtain ⟨hstate, htimer⟩ := deadDue_iff.mp hdue
    exact hnot.elim (· hstate) (· htimer)
  case spring =>
    refine ⟨_, (State.live_of_free hlive _).trans (congrArg _ (if_pos (springDue_iff.mpr ⟨hstate, htimer⟩))),
      onlySlots_of_mask (s.lock_maskS b _), s.lock_at b _, lock_rcl hruns (fun c e => ?_) _⟩
    cases hstate.symm.trans e
  case springIdle =>
    refine (State.live_of_free hlive _).trans (congrArg _ (if_neg fun hdue => ?_))
    obtain ⟨hstate, htimer⟩ := springDue_iff.mp hdue
    exact hnot.elim (· hstate) (· htimer)
  case reclaim =>
    have hexec := (State.live_of_free hlive _).trans (congrArg Host.Outcome.next
      ((if_pos (reclaimDue_iff.mpr ⟨hstate, htimer⟩) : (if s.reclaimDue b then s.reclaimEnded b else s) = _)))
    exact ⟨fun hlatch => hexec.trans (congrArg _ (if_pos (Option.isNone_iff_eq_none.mpr hlatch))),
      fun hlatch => hexec.trans (congrArg _ (if_neg (mt Option.isNone_iff_eq_none.mp hlatch)))⟩
  case reclaimIdle =>
    refine (State.live_of_free hlive _).trans (congrArg _ (if_neg fun hdue => ?_))
    obtain ⟨hstate, htimer⟩ := reclaimDue_iff.mp hdue
    exact hnot.elim (· hstate) (· htimer)

end Sys2Proof.Proofs.RecloseTimers

/-! The commands and the times of a running hunt: its CLOSE placed at the bay under test (R133), the ends that name a bay (R137, R138,
R140, R145), and the ends of its four times (R129, R131, R135, R138, R140). -/

namespace Sys2Proof.Proofs.HuntTimes
open Sys2Proof.Machine Sys2Proof.Safety Sys2Proof.Proofs.HuntBays Sys2Proof.Proofs.HuntEnd Sys2Proof.Proofs.HuntSelection
  Sys2Proof.Proofs.HuntStart Sys2Proof.Proofs.HuntAbort Sys2Proof.Proofs.Requests

section finish
variable {s t u : State} {r : HuntResult} {b : Bay}

/-- A hunt that stood in `s` has ended with a result and the bay it names (R145). -/
def HuntOver (s t : State) (r : HuntResult) (named : Option Bay) : Prop :=
  t.hnc.state = .idle ∧ t.hnc.last = some { result := r, bay := named, started := s.hnc.started, ended := s.stamp } ∧
  t.hnc.current = none ∧ t.hnc.timer = none ∧ t.fru.stack = s.fru.stack.filter (fun e => e.origin != .hunt) ∧
  ∀ c, (t.rcl c).block.hunt = false

/-- An end of the hunt made on a state with the start time, the stamp and the stack of `s`. -/
theorem huntOver_endHunt (hstarted : u.hnc.started = s.hnc.started) (hmask : u.maskH = s.maskH) (hfru : u.fru = s.fru)
    (named under : Option Bay) (why : LockedBy) : HuntOver s (u.endHunt r named under why) r named := by
  unfold HuntOver
  rw [endHunt_hnc, endHunt_fru, hfru, stamp_of_maskH hmask, ← hstarted]
  exact ⟨rfl, rfl, rfl, rfl, rfl, endHunt_hunt _ _ _ _ _⟩

theorem endHunt_locked {named under : Option Bay} {why : LockedBy} {cause : LockoutCause}
    (h : (u.rcl b).state = .lockout cause) : ((u.endHunt r named under why).rcl b).state = .lockout cause := by
  rcases endHunt_bay r named under why u b with hsame | hwaited
  · exact hsame.state.trans h
  · exact nomatch hwaited.waited.symm.trans h

/-- The bay under test is locked out where the RCC runs it, and is LOCKOUT in any case then. -/
theorem huntLock_locked (htest : u.underTest = some b) (hruns : u.runs b = true) (cause : LockoutCause) :
    ∃ c, ((u.huntLock cause).rcl b).state = .lockout c := by
  rw [huntLock_eq htest]
  by_cases hfree : ∀ c, (u.rcl b).state ≠ .lockout c
  · exact ⟨cause, lock_state hruns hfree⟩
  · obtain ⟨c, hc⟩ := not_forall_not.mp hfree
    have hkeeps : u.lock b cause = u := if_neg (by simp [State.canLock, hc, RecloseState.isLockout])
    rw [hkeeps]
    exact ⟨c, hc⟩

theorem huntLock_maskH (u : State) (cause : LockoutCause) : (u.huntLock cause).maskH = u.maskH := by
  unfold State.huntLock
  split
  · exact ((u.lock _ cause).setHnc_maskH _ rfl).trans (State.maskH_of_maskS (u.lock_maskS _ cause))
  · exact u.setHnc_maskH _ rfl

theorem huntLock_fru (u : State) (cause : LockoutCause) : (u.huntLock cause).fru = u.fru := by
  unfold State.huntLock
  split
  · next b _ => exact State.maskS_fru (t := u.lock b cause) (u.lock_maskS b cause)
  · rfl

theorem huntLock_hnc (u : State) (cause : LockoutCause) : (u.huntLock cause).hnc = { u.hnc with bayOpen := none } := by
  unfold State.huntLock State.setBayOpen
  split
  · rw [State.setHnc_value, State.maskS_hnc (u.lock_maskS _ cause)]
  · rfl

theorem endFoundLocked_over (htest : s.underTest = some b) (cause : LockoutCause) (why : LockedBy) :
    HuntOver s (s.endFoundLocked cause why) .foundLocked (some b) := by
  unfold State.endFoundLocked
  rw [htest]
  exact huntOver_endHunt (by rw [huntLock_hnc]) (huntLock_maskH s cause) (huntLock_fru s cause) _ _ _

theorem endFoundLocked_locked (htest : s.underTest = some b) (hruns : s.runs b = true) (cause : LockoutCause)
    (why : LockedBy) : ∃ c, ((s.endFoundLocked cause why).rcl b).state = .lockout c := by
  obtain ⟨c, hc⟩ := huntLock_locked htest hruns cause
  exact ⟨c, endHunt_locked hc⟩

theorem endFoundLocked_maskH (s : State) (cause : LockoutCause) (why : LockedBy) :
    (s.endFoundLocked cause why).maskH = s.maskH :=
  (State.endHunt_maskH _ _ _ _ _).trans (huntLock_maskH s cause)

end finish

/-! ### The CLOSE of a test (R133) -/

section close
variable {s : State} {b : Bay}

theorem placeHuntClose_taken (h : s.judgeReq (bayRec b) .hunt .closing = none) :
    s.placeHuntClose b = withRequest s (bayRec b) .closing := by
  unfold State.placeHuntClose
  rw [place_accepted h]

theorem placeHuntClose_turned {code : ResultCode} (h : s.judgeReq (bayRec b) .hunt .closing = some code) :
    s.placeHuntClose b = s.huntCloseTold (HuntTold.ofCode code) := by
  unfold State.placeHuntClose
  rw [place_refused h]

/-- A CLOSE of the hunt at a slot that can take it: nothing keeps R51 from it, and nothing stands or waits there. -/
structure Takes (s : State) (n : Rec) : Prop where
  served : (s.cap n).inService = true
  part : s.mgu.part ≠ .standdown
  remote : (s.status n).localMode = false
  unlocked : (s.status n).interlock = false
  free : (s.slot n).state = .free
  pend : (s.slot n).pend = Pending.none

theorem Takes.judged (h : Takes s (bayRec b)) : s.judgeReq (bayRec b) .hunt .closing = none :=
  State.judgeReq_none h.served (fun _ => h.part) h.remote (fun _ => h.unlocked) nofun

/-- A CLOSE placed once the context has gone on to a state that waits for it. -/
theorem placeHuntClose_waits (h : Takes s (bayRec b)) (x : Hnc) :
    let t := (s.setHnc x).placeHuntClose b
    OnlySlots { s with hnc := t.hnc } t ∧ OnlyAt (bayRec b) s t ∧ t.rcc = s.rcc ∧
    t.slot (bayRec b) = (s.slot (bayRec b)).issued .hunt .closing s.mono 250 ∧ t.hnc = x := by
  have hjudge : (s.setHnc x).judgeReq (bayRec b) .hunt .closing = none := h.judged
  have hplace := placeHuntClose_taken hjudge
  have hmask := withRequest_maskS (s.setHnc x) (bayRec b) .closing
  have hissued := withRequest_of_free hjudge nofun h.free h.pend
  have hhnc : ((s.setHnc x).placeHuntClose b).hnc = x := by rw [hplace]; exact State.maskS_hnc (s := s.setHnc x) hmask
  dsimp only
  rw [hhnc, hplace]
  have hat := withRequest_at (s.setHnc x) (bayRec b) .closing
  exact ⟨onlySlots_of_mask (s := s.setHnc x) hmask, ⟨hat.slots, hat.outPlaces, hat.reclose⟩,
    withRequest_rcc (s := s.setHnc x) hjudge nofun (.inr h.pend),
    by rw [hissued]; exact State.issueCmd_slot (s.setHnc x) _ _ _, rfl⟩

end close

/-! ### The ends of the four times -/

section times
variable {s : State} {b : Bay}

theorem huntDue_iff {st : HuntState} : s.huntDue st = true ↔ s.hnc.state = st ∧ s.hnc.timer = some 0 := by
  rw [State.huntDue, Bool.and_eq_true, beq_iff_eq, due_iff]

theorem dwellEnded_eq {k : Fin 8} (htest : s.underTest = some b) (hcur : s.hnc.current = some k) :
    s.dwellEnded = (s.setHnc { s.hnc with
      state := .restoring, timer := none,
      cands := s.hnc.cands.modify k.val (fun c => { c with outcome := .healthy }) }).placeHuntClose b := by
  unfold State.dwellEnded
  rw [htest]
  dsimp only
  rw [setCurOutcome_eq hcur]
  rfl

theorem atFireLimit_iff : s.atFireLimit = true ↔ s.hnc.table.fireLimit ≤ s.fru.effective.val := decide_eq_true_iff

theorem retestDelayEnded_found (h : s.hnc.table.fireLimit ≤ s.fru.effective.val ∨ s.efu.nvd.state = .displaced) :
    ∃ why, s.retestDelayEnded = s.endFoundLocked .huntFound why := by
  unfold State.retestDelayEnded
  by_cases hlimit : s.atFireLimit = true
  · exact ⟨_, if_pos hlimit⟩
  · have hdisplaced := beq_iff_eq.mpr (h.resolve_left (mt atFireLimit_iff.mpr hlimit))
    exact ⟨_, (if_neg hlimit).trans (if_pos hdisplaced)⟩

theorem retestDelayEnded_retests (htest : s.underTest = some b) (hlimit : s.fru.effective.val < s.hnc.table.fireLimit)
    (hnvd : s.efu.nvd.state ≠ .displaced) :
    s.retestDelayEnded = (s.setHnc { s.hnc with state := .retestClosing, timer := none }).placeHuntClose b := by
  unfold State.retestDelayEnded
  rw [if_neg (mt atFireLimit_iff.mp hlimit.not_ge), if_neg (mt beq_iff_eq.mp hnvd), htest]
  rfl

end times

/-- Settles O46, by the state in which each time ends. -/
theorem huntTimersExpire : Obligations.HuntTimersExpire := by
  intro s hlive
  have hgoes {c : Bool} {t : State} (hdue : c = true) : s.live (if c then t else s) = .next t :=
    (State.live_of_free hlive _).trans (congrArg _ (if_pos hdue))
  have hstays {st : HuntState} {t : State} (hnot : s.hnc.state ≠ st ∨ s.hnc.timer ≠ some 0) :
      s.live (if s.huntDue st then t else s) = .next s := by
    refine (State.live_of_free hlive _).trans (congrArg _ (if_neg fun hdue => ?_))
    obtain ⟨hstate, htimer⟩ := huntDue_iff.mp hdue
    exact hnot.elim (· hstate) (· htimer)
  have htakes {n : Rec} (h : (s.cap n).inService = true ∧ s.mgu.part ≠ .standdown ∧ (s.status n).localMode = false ∧
      (s.status n).interlock = false ∧ (s.slot n).state = .free ∧ (s.slot n).pend = Pending.none) : Takes s n := by
    obtain ⟨hserved, hpart, hlocal, hinterlock, hfree, hpend⟩ := h
    exact ⟨hserved, hpart, hlocal, hinterlock, hfree, hpend⟩
  refine ⟨fun hstate htimer => ⟨_, hgoes (huntDue_iff.mpr ⟨hstate, htimer⟩), huntStarts_startHuntNow s .startDelay⟩,
    fun hnot => hstays hnot, fun hstate htimer b k htest hcur htake => ?dwell, fun hnot => hstays hnot,
    fun hstate htimer b htest => ⟨fun hfound => ?found, fun hlimit hnvd htake => ?retest⟩, fun hnot => hstays hnot,
    fun hstate htimer b htest => ?transient, fun hnot => hstays hnot⟩
  case dwell =>
    refine ⟨_, (hgoes (huntDue_iff.mpr ⟨hstate, htimer⟩)).trans (congrArg _ (dwellEnded_eq htest hcur)), ?_⟩
    obtain ⟨honly, hat, hrcc, hslot, hhnc⟩ := placeHuntClose_waits (htakes htake) _
    exact ⟨honly, hat, hrcc, hslot.trans (RecloseTimers.issued_of_nothing (htakes htake).pend), hhnc⟩
  case found =>
    obtain ⟨why, heq⟩ := retestDelayEnded_found hfound
    exact ⟨_, (hgoes (huntDue_iff.mpr ⟨hstate, htimer⟩)).trans (congrArg _ heq), onlyHunt_of_mask (endFoundLocked_maskH s _ why),
      endFoundLocked_over htest _ why, fun hruns => endFoundLocked_locked htest hruns _ why⟩
  case retest =>
    refine ⟨_, (hgoes (huntDue_iff.mpr ⟨hstate, htimer⟩)).trans (congrArg _ (retestDelayEnded_retests htest hlimit hnvd)), ?_⟩
    obtain ⟨honly, hat, hrcc, hslot, hhnc⟩ := placeHuntClose_waits (htakes htake) _
    exact ⟨honly, hat, hrcc, hslot.trans (RecloseTimers.issued_of_nothing (htakes htake).pend), hhnc⟩
  case transient =>
    refine ⟨_, hgoes (huntDue_iff.mpr ⟨hstate, htimer⟩), onlyHunt_of_mask (State.endHunt_maskH _ _ _ _ _), ?_⟩
    have hover : HuntOver s s.retestDwellEnded .foundTransient s.underTest := huntOver_endHunt rfl rfl rfl _ _ _
    rwa [htest] at hover

end Sys2Proof.Proofs.HuntTimes

/-! Occurrences (R159, R161, R162, R165): one that triggers nothing, one whose channels all begin to run, and one whose channel ends at
once.  Fault records (R149 to R154): what a record holds, and where it is stored. -/

namespace Sys2Proof.Proofs.OccurrenceRules
open Sys2Proof.Machine Sys2Proof.Safety Sys2Proof.Proofs.Occurrences Sys2Proof.Proofs.CaptureEnds Sys2Proof.Proofs.EventSlot
  Sys2Proof.Proofs.StatusRules

/-! ### The trigger set (R159) -/

section trigger
variable {s : State} {f : Factor} {m : BitVec 9} {k : Chan}

/-- The occurrence triggers the channel: it is ARMED on the factor, and its bay is in the mask or the mask is empty. -/
def Triggers (s : State) (f : Factor) (m : BitVec 9) (k : Chan) : Prop :=
  (s.chan k).state = .armed ∧ (s.chan k).trigger = f ∧ (m = 0 ∨ m &&& (1#9 <<< (s.chan k).bay.val) ≠ 0)

theorem mem_triggerSet : k ∈ s.triggerSet f m ↔ Triggers s f m k := by
  unfold State.triggerSet Channel.triggeredBy Triggers
  simp only [List.mem_filter, mem_allChans, true_and, Bool.and_eq_true, Bool.or_eq_true, beq_iff_eq, bne_iff_ne, and_assoc]
  rfl

theorem triggerSet_nodup (s : State) (f : Factor) (m : BitVec 9) : (s.triggerSet f m).Nodup := allChans_nodup.filter _

theorem getLsbD_foldl_chans (l : List Chan) (a : BitVec 4) (k : Chan) :
    (l.foldl (fun m j => m ||| (1#4 <<< j.val)) a).getLsbD k.val = true ↔ a.getLsbD k.val = true ∨ k ∈ l := by
  induction l generalizing a with
  | nil => simp
  | cons j l ih =>
    have hbit : ∀ j k : Chan, (1#4 <<< j.val).getLsbD k.val = true ↔ k = j := by decide
    rw [List.foldl_cons, ih, BitVec.getLsbD_or, Bool.or_eq_true, hbit j k, List.mem_cons, or_assoc]

theorem getLsbD_chanMask (l : List Chan) (k : Chan) : (chanMask l).getLsbD k.val = true ↔ k ∈ l := by
  unfold chanMask
  rw [getLsbD_foldl_chans]
  simp

end trigger

/-! ### An occurrence that triggers nothing -/

section untriggered
variable {s : State} {f : Factor} {m : BitVec 9} {d : List Byte}

/-- The occurrence is entered in its factor record, and the out-slot judged again. -/
def entered (s : State) (f : Factor) (m : BitVec 9) (d : List Byte) : State :=
  (s.setFac f ((s.fac f).take m (detail d) s.stamp)).judgeOutSlot

theorem setFac_self (s : State) (f : Factor) : s.setFac f (s.fac f) = s := by
  unfold State.setFac State.fac
  rw [put_look_self]

theorem occur_untriggered (hpart : s.mgu.part ≠ .bypass) (h : s.triggerSet f m = []) : s.occur f m d = entered s f m d := by
  have hset : (s.takeOcc { factor := f, mask := m, detail := detail d }).triggerSet f m = [] := h
  have hfuel : occurFuel 5 { factor := f, mask := m, detail := detail d } s =
      ((s.takeOcc { factor := f, mask := m, detail := detail d }).setFac f
        ((s.takeOcc { factor := f, mask := m, detail := detail d }).fac f)).judgeOutSlot := by
    simp [occurFuel, hset, State.triggerChans, State.judgeTriggered, forEach, chanMask]
  unfold State.occur State.occurOf
  rw [if_neg (mt beq_iff_eq.mp hpart), hfuel]
  unfold State.takeOcc
  rw [setFac_self]
  rfl

theorem entered_fac (g : Factor) :
    (entered s f m d).fac g = if f = g then (s.fac f).take m (detail d) s.stamp else s.fac g :=
  State.setFac_fac_at (s := s) f _ g

end untriggered

/-! ### Channels that begin to run (R159, R161) -/

section running
variable {s : State} {o : Occ}

/-- A step that reads only the measurements and its own channel replaces the channels of a list. -/
theorem forEach_eq_setChans_of_meu {h : Chan → State → State} {g : Chan → Channel} {l : List Chan} (hl : l.Nodup)
    (hstep : ∀ k ∈ l, ∀ t : State, t.meu = s.meu → t.chan k = s.chan k → h k t = t.setChan k (g k)) :
    forEach l h s = setChans g l s := by
  induction l generalizing s with
  | nil => rfl
  | cons k l ih =>
    obtain ⟨hk, hl⟩ := List.nodup_cons.mp hl
    calc forEach (k :: l) h s = forEach l h (h k s) := rfl
      _ = forEach l h (s.setChan k (g k)) := by rw [hstep k List.mem_cons_self s rfl rfl]
      _ = setChans g l (s.setChan k (g k)) := ih hl fun j hj t hmeu ht => by
        have hjk : j ≠ k := fun e => hk (e ▸ hj)
        exact hstep j (List.mem_cons_of_mem k hj) t hmeu (ht.trans (setChan_chan_other hjk _))

theorem triggered_of_meu {t : State} (h : t.meu = s.meu) (c : Channel) : t.triggered c = s.triggered c := by
  have hrole : t.roleValid (.bay c.bay) = s.roleValid (.bay c.bay) := by
    unfold State.roleValid State.src State.ctx
    rw [h]
  unfold State.triggered
  rw [hrole, h]

/-- A channel of the trigger set, with the hold where the occurrence raised its flag. -/
def started (s : State) (f : Factor) (hold : Bool) (k : Chan) : Channel :=
  if hold then { s.triggered (s.chan k) with holding := some f } else s.triggered (s.chan k)

theorem triggerChans_eq (raised : Bool) (ho : o.companion = false) : s.triggerChans o raised =
    let set := s.triggerSet o.factor o.mask
    let hold := raised && !set.isEmpty
    let t := setChans (started s o.factor hold) set s
    t.setFac o.factor { s.fac o.factor with
      capMask := (s.fac o.factor).capMask ||| chanMask set, held := (s.fac o.factor).held || hold } := by
  have hstep := forEach_eq_setChans_of_meu (s := s) (l := s.triggerSet o.factor o.mask)
    (h := fun k u => u.setChan k
      (if (raised && !(s.triggerSet o.factor o.mask).isEmpty) then { u.triggered (u.chan k) with holding := some o.factor }
       else u.triggered (u.chan k)))
    (g := started s o.factor (raised && !(s.triggerSet o.factor o.mask).isEmpty)) (triggerSet_nodup _ _ _)
    (fun k _ t hmeu hchan => by rw [triggered_of_meu hmeu, hchan]; rfl)
  unfold State.triggerChans
  dsimp only
  rw [ho, if_neg Bool.false_ne_true, hstep]
  simp only [State.fac, setChans_evu]

end running

section triggering
variable {s : State} {f : Factor} {m : BitVec 9} {d : List Byte}

/-- The occurrence makes a hold: it has raised the flag, and it has triggered a channel. -/
def holds (s : State) (f : Factor) (m : BitVec 9) : Bool := !(s.fac f).flag && !(s.triggerSet f m).isEmpty

/-- The factor record once the occurrence is entered and its channels are triggered (R165). -/
def triggeredRecord (s : State) (f : Factor) (m : BitVec 9) (d : List Byte) : FactorRecord :=
  { (s.fac f).take m (detail d) s.stamp with
    capMask := (s.fac f).capMask ||| chanMask (s.triggerSet f m), held := (s.fac f).held || holds s f m }

/-- The state before the channels that have ended at once are judged. -/
def withTriggered (s : State) (f : Factor) (m : BitVec 9) (d : List Byte) : State :=
  (setChans (started s f (holds s f m)) (s.triggerSet f m)
    (s.setFac f ((s.fac f).take m (detail d) s.stamp))).setFac f (triggeredRecord s f m d)

theorem occur_triggers (hpart : s.mgu.part ≠ .bypass) : s.occur f m d =
    ((withTriggered s f m d).judgeTriggered (occurFuel 4) f (s.triggerSet f m) (holds s f m)).judgeOutSlot := by
  have hchans := triggerChans_eq (s := s.takeOcc { factor := f, mask := m, detail := detail d })
    (o := { factor := f, mask := m, detail := detail d }) (!(s.fac f).flag) rfl
  have hfac : (s.takeOcc { factor := f, mask := m, detail := detail d }).fac f = (s.fac f).take m (detail d) s.stamp :=
    State.setFac_fac _ _ _
  dsimp only at hchans
  rw [hfac] at hchans
  unfold State.occur State.occurOf
  rw [if_neg (mt beq_iff_eq.mp hpart)]
  show ((State.triggerChans (s.takeOcc _) _ (!(s.fac f).flag)).judgeTriggered _ _ _ _).judgeOutSlot = _
  rw [hchans]
  rfl

theorem withTriggered_fac (g : Factor) : (withTriggered s f m d).fac g = if f = g then triggeredRecord s f m d else s.fac g := by
  unfold withTriggered
  rw [State.setFac_fac_at]
  split
  · rfl
  · next h =>
    unfold State.fac
    rw [setChans_evu]
    exact (State.setFac_fac_at (s := s) f _ g).trans (if_neg h)

theorem withTriggered_mgu : (withTriggered s f m d).mgu = s.mgu :=
  forEach_keep State.mgu (fun k t => t.setChan k (started s f (holds s f m) k)) (fun _ _ => rfl) _ _

theorem withTriggered_chan_of_mem {k : Chan} (h : k ∈ s.triggerSet f m) :
    (withTriggered s f m d).chan k = started s f (holds s f m) k :=
  setChans_chan_of_mem (s := s.setFac f ((s.fac f).take m (detail d) s.stamp)) h

theorem withTriggered_chan_of_notMem {k : Chan} (h : k ∉ s.triggerSet f m) :
    (withTriggered s f m d).chan k = s.chan k :=
  setChans_chan_of_notMem (s := s.setFac f ((s.fac f).take m (detail d) s.stamp)) h

theorem started_of_measured {k : Chan} (hold : Bool) (h : s.roleValid (.bay (s.chan k).bay) = true) :
    started s f hold k = { s.chan k with
      state := .running,
      rows := (s.meu.history.look (s.chan k).bay).drop ((s.meu.history.look (s.chan k).bay).length - (s.chan k).pre * 32),
      holding := if hold then some f else (s.chan k).holding } := by
  unfold started State.triggered newest
  rw [if_pos h]
  cases hold <;> rfl

theorem started_of_unmeasured {k : Chan} (hold : Bool) (h : ¬ s.roleValid (.bay (s.chan k).bay) = true) :
    started s f hold k = { s.chan k with
      state := .done, rows := [], truncated := true, holding := if hold then some f else (s.chan k).holding } := by
  unfold started State.triggered
  rw [if_neg h]
  cases hold <;> rfl

theorem judgeTriggered_of_running {u : State} (make : Occ → State → State) {l : List Chan} (hold : Bool)
    (h : ∀ k ∈ l, (u.chan k).state ≠ .done) : u.judgeTriggered make f l hold = u := by
  have hnone : l.filter (fun k => (u.chan k).state == .done) = [] :=
    List.filter_eq_nil_iff.mpr fun k hk e => h k hk (beq_iff_eq.mp e)
  unfold State.judgeTriggered
  rw [hnone]
  rfl

/-- Where the source of every triggered channel is VALID, the channels begin to run and none ends. -/
theorem occur_runs (hpart : s.mgu.part ≠ .bypass)
    (hmeasured : ∀ k, Triggers s f m k → s.roleValid (.bay (s.chan k).bay) = true) :
    s.occur f m d = (withTriggered s f m d).judgeOutSlot := by
  rw [occur_triggers hpart, judgeTriggered_of_running]
  intro k hk
  rw [withTriggered_chan_of_mem hk, started_of_measured _ (hmeasured k (mem_triggerSet.mp hk))]
  exact nofun

theorem holds_of_triggers {k : Chan} (h : Triggers s f m k) : holds s f m = !(s.fac f).flag := by
  unfold holds
  have hne : (s.triggerSet f m).isEmpty = false := by
    rw [List.isEmpty_eq_false_iff_exists_mem]
    exact ⟨k, mem_triggerSet.mpr h⟩
  rw [hne]
  exact Bool.and_true _

end triggering

/-! ### A channel that ends at once (R159, R161, R162) -/

section ending
variable {u : State} {f : Factor} {k : Chan} {make : Occ → State → State}

/-- The end of a channel of a trigger set of one, with the hold it has made or with none. -/
theorem judgeTriggered_single (hdone : (u.chan k).state = .done) (hold : Bool) :
    u.judgeTriggered make f [k] hold = if hold then u.judgeHoldWith make f else u.judgeEndWith make k := by
  unfold State.judgeTriggered
  simp only [List.filter_cons, hdone, beq_self_eq_true, if_true, List.filter_nil]
  rfl

theorem judgeHoldWith_report (hhold : (u.chan k).holding = some f) (hdone : (u.chan k).state = .done)
    (hreport : (u.chan k).reportAtEnd = true) (halone : ∀ j, j ≠ k → (u.chan j).holding ≠ some f) :
    u.judgeHoldWith make f = (make ((released u f).captureDone k) (released u f)).dropHolds f := by
  have hholders : u.holders f = [k] :=
    filter_allChans_eq_singleton (beq_iff_eq.mpr hhold) (fun j hj => beq_false_of_ne (halone j hj))
  have hmade : (if ((released u f).chan k).reportAtEnd then make ((released u f).captureDone k) (released u f)
      else released u f) = make ((released u f).captureDone k) (released u f) := if_pos hreport
  rw [State.judgeHoldWith, hholders]
  exact ((if_neg (by simp [hdone])).trans (if_pos (by simp [hreport]))).trans (congrArg (State.dropHolds · f) hmade)

/-- With no channel ARMED, the occurrences that an end makes are taken as any others. -/
theorem occurFuel_of_unarmed (h : Unarmed u) (hpart : u.mgu.part ≠ .bypass) {o : Occ} (ho : o.companion = false) :
    occurFuel 4 o u = u.occurOf o := by
  unfold State.occurOf
  rw [if_neg (mt beq_iff_eq.mp hpart), occurFuel_succ h 3 ho, occurFuel_succ h 4 ho]

theorem judgeEndWith_report (hnone : (u.chan k).holding = none) (hreport : (u.chan k).reportAtEnd = true) :
    u.judgeEndWith make k = make (u.captureDone k) u := by
  unfold State.judgeEndWith
  rw [hnone]
  exact if_pos hreport

theorem judgeEndWith_silent (hnone : (u.chan k).holding = none) (hreport : (u.chan k).reportAtEnd = false) :
    u.judgeEndWith make k = u := by
  unfold State.judgeEndWith
  rw [hnone]
  exact if_neg (by rw [hreport]; exact Bool.false_ne_true)

end ending

theorem judgeOutSlot_fac (u : State) (g : Factor) : u.judgeOutSlot.fac g = u.fac g := rfl

theorem judgeOutSlot_chan (u : State) (j : Chan) : u.judgeOutSlot.chan j = u.chan j := rfl

section ended
variable {s : State} {f : Factor} {m : BitVec 9} {d : List Byte} {k : Chan}

/-- The one channel an occurrence triggers, whose bay's source is not VALID. -/
structure EndsOne (s : State) (f : Factor) (m : BitVec 9) (k : Chan) : Prop where
  part : s.mgu.part ≠ .bypass
  triggers : Triggers s f m k
  unmeasured : ¬ s.roleValid (.bay (s.chan k).bay) = true
  others : ∀ j, j ≠ k → (s.chan j).state ≠ .armed
  unheld : ∀ j, (s.chan j).holding ≠ some f
  free : (s.chan k).holding = none

/-- A channel that has ended without rows. -/
def endedChannel (c : Channel) : Channel := { c with state := .done, rows := [], truncated := true }

variable (h : EndsOne s f m k)
include h

theorem EndsOne.set : s.triggerSet f m = [k] := by
  refine filter_allChans_eq_singleton (List.mem_filter.mp (mem_triggerSet.mpr h.triggers)).2 fun j hj => ?_
  unfold Channel.triggeredBy
  rw [beq_false_of_ne (h.others j hj), Bool.false_and, Bool.false_and]

theorem EndsOne.chan_self : (withTriggered s f m d).chan k =
    { endedChannel (s.chan k) with holding := if (s.fac f).flag then none else some f } := by
  rw [withTriggered_chan_of_mem (mem_triggerSet.mpr h.triggers), started_of_unmeasured _ h.unmeasured, h.free,
    holds_of_triggers h.triggers]
  cases (s.fac f).flag <;> rfl

theorem EndsOne.chan_other {j : Chan} (hj : j ≠ k) : (withTriggered s f m d).chan j = s.chan j :=
  withTriggered_chan_of_notMem (by rw [h.set, List.mem_singleton]; exact hj)

theorem EndsOne.unarmed : Unarmed (withTriggered s f m d) := fun j => by
  by_cases hj : j = k
  · rw [hj, h.chan_self]
    exact nofun
  · rw [h.chan_other hj]
    exact h.others j hj

omit h in
theorem withTriggered_part (hpart : s.mgu.part ≠ .bypass) : (withTriggered s f m d).mgu.part ≠ .bypass := by
  rwa [withTriggered_mgu]

theorem EndsOne.occur : s.occur f m d = (if (s.fac f).flag then (withTriggered s f m d).judgeEndWith (occurFuel 4) k
    else (withTriggered s f m d).judgeHoldWith (occurFuel 4) f).judgeOutSlot := by
  have hdone : ((withTriggered s f m d).chan k).state = .done := by rw [h.chan_self]; rfl
  rw [occur_triggers h.part, h.set, judgeTriggered_single hdone, holds_of_triggers h.triggers]
  cases (s.fac f).flag <;> rfl

theorem EndsOne.fac : (withTriggered s f m d).fac f = { (s.fac f).take m (detail d) s.stamp with
    capMask := (s.fac f).capMask ||| chanMask (s.triggerSet f m), held := (s.fac f).held || !(s.fac f).flag } := by
  rw [withTriggered_fac, if_pos rfl, triggeredRecord, holds_of_triggers h.triggers]

/-- The channels and the factors after a report: CAPTURE_DONE has occurred, and the channel holds for nothing. -/
theorem EndsOne.reports (hne : fCaptureDone k ≠ f) (hreport : (s.chan k).reportAtEnd = true) :
    (∀ j, j ≠ k → (s.occur f m d).chan j = s.chan j) ∧ (s.occur f m d).chan k = endedChannel (s.chan k) ∧
    (((s.occur f m d).fac (fCaptureDone k)).flag = true ∧
      ((s.occur f m d).fac (fCaptureDone k)).count = min 255 ((s.fac (fCaptureDone k)).count + 1)) ∧
    ((s.occur f m d).fac f).flag = true ∧ ((s.occur f m d).fac f).held = ((s.fac f).held && (s.fac f).flag) := by
  have hunarmed := h.unarmed (d := d)
  have hpart := withTriggered_part (f := f) (m := m) (d := d) h.part
  have hself := h.chan_self (d := d)
  have hfac := h.fac (d := d)
  have hdone : (withTriggered s f m d).fac (fCaptureDone k) = s.fac (fCaptureDone k) :=
    (withTriggered_fac _).trans (if_neg hne.symm)
  have hrep : ((withTriggered s f m d).chan k).reportAtEnd = true := by rw [hself]; exact hreport
  have hnone := h.free
  rw [h.occur]
  cases hflag : (s.fac f).flag with
  | true =>
    rw [hflag, if_pos rfl] at hself
    have hends : (withTriggered s f m d).judgeEndWith (occurFuel 4) k =
        (withTriggered s f m d).occurOf ((withTriggered s f m d).captureDone k) := by
      rw [judgeEndWith_report (by rw [hself]) hrep, occurFuel_of_unarmed hunarmed hpart rfl]
    rw [if_pos rfl, hends]
    have hchan : ∀ j, ((withTriggered s f m d).occurOf ((withTriggered s f m d).captureDone k)).chan j =
        (withTriggered s f m d).chan j := occur_chan hunarmed (fCaptureDone k) _ _
    have hother : ((withTriggered s f m d).occurOf ((withTriggered s f m d).captureDone k)).fac f =
        (withTriggered s f m d).fac f := occur_fac_other hunarmed hne _ _
    have htook : ((withTriggered s f m d).occurOf ((withTriggered s f m d).captureDone k)).fac (fCaptureDone k) = _ :=
      occur_fac_same hunarmed hpart (fCaptureDone k) _ _
    simp only [judgeOutSlot_fac, judgeOutSlot_chan]
    generalize (withTriggered s f m d).occurOf ((withTriggered s f m d).captureDone k) = v at hchan hother htook ⊢
    rw [hchan, hother, htook, hself, hfac, hdone, hflag]
    refine ⟨fun j hj => (hchan j).trans (h.chan_other hj), ?_, ⟨rfl, rfl⟩, rfl, by simp⟩
    rw [← hnone]
    rfl
  | false =>
    rw [hflag, if_neg Bool.false_ne_true] at hself
    have hhold : ((withTriggered s f m d).chan k).holding = some f := by rw [hself]
    have halone : ∀ j, j ≠ k → ((withTriggered s f m d).chan j).holding ≠ some f := fun j hj => by
      rw [h.chan_other hj]
      exact h.unheld j
    have hends : (withTriggered s f m d).judgeHoldWith (occurFuel 4) f = reported (withTriggered s f m d) f k := by
      rw [judgeHoldWith_report hhold (by rw [hself]; rfl) hrep halone,
        occurFuel_of_unarmed (u := released (withTriggered s f m d) f) hunarmed hpart rfl]
      rfl
    rw [if_neg Bool.false_ne_true, hends]
    simp only [judgeOutSlot_fac, judgeOutSlot_chan]
    have hheld := reported_fac_held (u := withTriggered s f m d) hunarmed hne
    have htold := reported_fac_done (u := withTriggered s f m d) hunarmed hne hpart
    have hchan := reported_chan_of_holding (u := withTriggered s f m d) (k := k) hunarmed hhold
    have hothers : ∀ j, j ≠ k → (reported (withTriggered s f m d) f k).chan j = s.chan j := fun j hj =>
      (reported_chan_of_not_holding (u := withTriggered s f m d) hunarmed (halone j hj)).trans (h.chan_other hj)
    rw [hdone] at htold
    rw [hfac] at hheld
    rw [hself] at hchan
    generalize reported (withTriggered s f m d) f k = v at hheld htold hchan hothers ⊢
    rw [hheld, hchan]
    exact ⟨hothers, by rw [← hnone]; rfl, htold, rfl, (Bool.and_false _).symm⟩

/-- With no report at its end, the channel stands as it ended where no hold is made. -/
theorem EndsOne.silent (hreport : (s.chan k).reportAtEnd = false) (hflag : (s.fac f).flag = true) :
    (∀ j, j ≠ k → (s.occur f m d).chan j = s.chan j) ∧ (s.occur f m d).chan k = endedChannel (s.chan k) ∧
    ((s.occur f m d).fac f).flag = true := by
  have hself := h.chan_self (d := d)
  rw [hflag, if_pos rfl] at hself
  have hends : s.occur f m d = (withTriggered s f m d).judgeOutSlot := by
    rw [h.occur, hflag, if_pos rfl, judgeEndWith_silent (by rw [hself]) (by rw [hself]; exact hreport)]
  rw [hends]
  simp only [judgeOutSlot_fac, judgeOutSlot_chan]
  refine ⟨fun j hj => h.chan_other hj, hself.trans ?_, (congrArg FactorRecord.flag h.fac :)⟩
  rw [← h.free]
  rfl

/-- With no report at its end, the hold that the occurrence makes ends by absorption: the factor is clear. -/
theorem EndsOne.absorbs (hreport : (s.chan k).reportAtEnd = false) (hflag : (s.fac f).flag = false) :
    (∀ j, j ≠ k → (s.occur f m d).chan j = s.chan j) ∧
    (s.occur f m d).chan k = { endedChannel (s.chan k) with state := .disarmed } ∧
    (s.occur f m d).fac f = { FactorRecord.cold with enable := (s.fac f).enable, level := (s.fac f).level } := by
  have hself := h.chan_self (d := d)
  rw [hflag, if_neg Bool.false_ne_true] at hself
  have hhold : ((withTriggered s f m d).chan k).holding = some f := by rw [hself]
  have halone : ∀ j, j ≠ k → ((withTriggered s f m d).chan j).holding ≠ some f := fun j hj => by
    rw [h.chan_other hj]
    exact h.unheld j
  have hends : s.occur f m d = (((withTriggered s f m d).absorb f).dropHolds f).judgeOutSlot := by
    rw [h.occur, hflag, if_neg Bool.false_ne_true, judgeHold_absorb]
    intro j hj
    obtain rfl : j = k := Classical.byContradiction fun hne => halone j hne hj
    rw [hself]
    exact ⟨nofun, hreport⟩
  rw [hends]
  simp only [judgeOutSlot_fac, judgeOutSlot_chan]
  refine ⟨fun j hj => (absorbed_chan_of_not_holding (halone j hj)).trans (h.chan_other hj),
    (absorbed_chan_of_holding hhold).trans ?_, ((absorbed_fac f).trans (if_pos rfl)).trans ?_⟩
  · rw [hself, ← h.free]
    rfl
  · rw [h.fac]
    rfl

end ended

/-! ### Fault records (R149 to R154) -/

section records
variable {s : State}

/-- The bus evaluation pairs with a tag: its own tag is the same or the one before (R113). -/
def Paired (s : State) (tag : Pos) (v : BusEval) : Prop := s.meu.latestBus = some v ∧ (v.tag = tag ∨ v.tag = tag - 8)

theorem pairedBus_eq_some {tag : Pos} {v : BusEval} : s.pairedBus tag = some v ↔ Paired s tag v := by
  unfold State.pairedBus Paired prevTag
  rw [Option.filter_eq_some_iff, Bool.or_eq_true, beq_iff_eq, beq_iff_eq]

theorem pairedBus_eq_none {tag : Pos} (h : ∀ v, ¬ Paired s tag v) : s.pairedBus tag = none :=
  Option.eq_none_iff_forall_ne_some.mpr fun v hv => h v (pairedBus_eq_some.mp hv)

theorem segment_matches {g : Segment} {b : Bay} {x : Int} :
    g.matches b x = true ↔ g.bay = some b ∧ g.xLow ≤ x ∧ x ≤ g.xHigh := by
  unfold Segment.matches
  rw [Bool.and_eq_true, Bool.and_eq_true, beq_iff_eq, decide_eq_true_eq, decide_eq_true_eq, and_assoc]

theorem segmentOf_first {b : Bay} {x : Int} {k : Fin 32} (h : (s.recd.segments.look k).matches b x = true)
    (hfirst : ∀ j, j < k → ¬ (s.recd.segments.look j).matches b x = true) :
    s.segmentOf b x = some (s.recd.segments.look k).segLabel := by
  have hfind : s.recd.segments.toList.find? (fun g => g.matches b x) = some (s.recd.segments.look k) := by
    rw [List.find?_eq_some_iff_getElem]
    refine ⟨h, k.val, by simp, by simp [Vector.look], fun j hj => ?_⟩
    have hnot := hfirst ⟨j, hj.trans k.isLt⟩ hj
    simpa [Vector.look] using hnot
  unfold State.segmentOf
  rw [hfind]
  rfl

theorem segmentOf_none {b : Bay} {x : Int} (h : ∀ k, ¬ (s.recd.segments.look k).matches b x = true) : s.segmentOf b x = none := by
  unfold State.segmentOf
  rw [Option.map_eq_none_iff, List.find?_eq_none]
  intro g hg
  obtain ⟨i, hi, rfl⟩ := List.mem_iff_getElem.mp hg
  have hnot := h ⟨i, by simpa using hi⟩
  simpa [Vector.look] using hnot

theorem faultedPhase_a {e : BayEval} (v : BusEval) (hb : e.ib.mag ≤ e.ia.mag) (hc : e.ic.mag ≤ e.ia.mag) :
    faultedPhase e v = (e.ia, v.va) := if_pos (by simp [hb, hc])

theorem faultedPhase_b {e : BayEval} (v : BusEval) (ha : e.ia.mag < e.ib.mag) (hc : e.ic.mag ≤ e.ib.mag) :
    faultedPhase e v = (e.ib, v.vb) := (if_neg (by simp [ha.not_ge])).trans (if_pos hc)

theorem faultedPhase_c {e : BayEval} (v : BusEval) (ha : e.ia.mag < e.ic.mag) (hb : e.ib.mag < e.ic.mag) :
    faultedPhase e v = (e.ic, v.vc) := (if_neg (by simp [ha.not_ge])).trans (if_neg hb.not_ge)

theorem storeRecord_other (r : FaultRecord) {j : Fin 16} (h : j ≠ s.recd.top + 1) :
    (s.storeRecord r).recd.ring.look j = s.recd.ring.look j := (Vector.look_put _ _ _ _).trans (if_neg h.symm)

theorem storeRecord_top (r : FaultRecord) :
    (s.storeRecord r).recd.ring.look (s.recd.top + 1) = some { r with seq := s.recd.nextSeq } := Vector.look_put_same _ _ _

end records

section untriggered
variable {s : State} {f : Factor} {m : BitVec 9} {d : List Byte}

theorem entered_maskE : (entered s f m d).maskE = s.maskE := State.setFac_maskE s f _ rfl

/-- What the out-slot holds after the occurrence (R169 to R171). -/
theorem entered_outSlot {g : Factor} {w : Frame} (h : (entered s f m d).evu.outSlot = some (g, w)) :
    s.evu.dest ≠ 0 ∧ w = (entered s f m d).eventFrame g ∧ (entered s f m d).eligible g = true ∧
      ∀ h, (entered s f m d).eligible h = true → Outranks (entered s f m d) g h := by
  obtain ⟨hdest, hframe, hbest⟩ := outSlotNow_some h
  exact ⟨hdest, hframe, mostEligible_some hbest⟩

theorem eligible_iff {g : Factor} : s.eligible g = true ↔ (s.fac g).flag = true ∧ (s.fac g).enable = true ∧
    s.evu.threshold < (s.fac g).level ∧ (s.fac g).reported = false ∧ (s.fac g).held = false := by
  simp only [State.eligible, FactorRecord.eligible, Bool.and_eq_true, decide_eq_true_eq, Bool.not_eq_true', and_assoc]

end untriggered

/-- Settles O47: the occurrence by what it triggers, and the records as they are built. -/
theorem occurrenceRecorded : Obligations.OccurrenceRecorded := by
  refine ⟨fun s f m d => ⟨fun hpart => FrameArrival.occur_of_bypass hpart f m d, fun hpart hnot => ?untriggered⟩,
    fun s f m d hpart => ⟨fun hon hmeasured => ?runs, fun k hon hun hother hheld hnone hne => ?ends⟩,
    fun s r => ⟨storeRecord_top r, fun j hj => storeRecord_other r hj, rfl⟩, fun s b c e d a => ?trip, fun s b c => ?bay⟩
  case untriggered =>
    have hset : s.triggerSet f m = [] := List.eq_nil_iff_forall_not_mem.mpr fun k hk => by
      obtain ⟨harmed, htrigger, -⟩ := mem_triggerSet.mp hk
      exact hnot k harmed htrigger
    dsimp only
    rw [occur_untriggered hpart hset]
    refine ⟨onlyEvents_of_mask entered_maskE, rfl, fun g hg => (entered_fac g).trans (if_neg hg.symm),
      (entered_fac f).trans (if_pos rfl), fun g w hslot => ?_, fun hslot => outSlotNow_none hslot⟩
    obtain ⟨hdest, hframe, hrank, hbest⟩ := entered_outSlot hslot
    exact ⟨hdest, hframe, eligible_iff.mp hrank, fun h hh => hbest h (eligible_iff.mpr hh)⟩
  case runs =>
    obtain ⟨k, hk⟩ := hon
    have honly := onlyEvents_of_mask (s.occur_maskE f m d)
    have heq := occur_runs (d := d) hpart hmeasured
    have hchan : ∀ j, (s.occur f m d).chan j = (withTriggered s f m d).chan j := fun j => by rw [heq, judgeOutSlot_chan]
    have hfac : ∀ g, (s.occur f m d).fac g = if f = g then triggeredRecord s f m d else s.fac g := fun g => by
      rw [heq, judgeOutSlot_fac, withTriggered_fac]
    have hholds := holds_of_triggers hk
    dsimp only
    rw [hfac f, if_pos rfl]
    refine ⟨honly, fun g hg => (hfac g).trans (if_neg hg.symm), rfl, rfl, rfl, rfl, congrArg ((s.fac f).held || ·) hholds,
      fun j => ?_, fun j => ⟨fun hj => ?_, fun hj => ?_⟩⟩
    · show ((s.fac f).capMask ||| chanMask (s.triggerSet f m)).getLsbD j.val = true ↔ _
      rw [BitVec.getLsbD_or, Bool.or_eq_true, getLsbD_chanMask, mem_triggerSet]
      exact Iff.rfl
    · rw [hchan, withTriggered_chan_of_mem (mem_triggerSet.mpr hj), started_of_measured _ (hmeasured j hj), hholds]
      cases (s.fac f).flag <;> rfl
    · rw [hchan, withTriggered_chan_of_notMem (mt mem_triggerSet.mp hj)]
  case ends =>
    have hends : EndsOne s f m k := ⟨hpart, hon, hun, hother, hheld, hnone⟩
    have hdone : fCaptureDone k ≠ f := fun e => hne (congrArg Fin.val e.symm)
    dsimp only
    refine ⟨fun j hj => ?_, fun hreport => (hends.reports hdone hreport).2,
      fun hreport hflag => (hends.silent hreport hflag).2, fun hreport hflag => (hends.absorbs hreport hflag).2⟩
    cases hreport : (s.chan k).reportAtEnd with
    | true => exact (hends.reports hdone hreport).1 j hj
    | false =>
      cases hflag : (s.fac f).flag with
      | true => exact (hends.silent hreport hflag).1 j hj
      | false => exact (hends.absorbs hreport hflag).1 j hj
  case trip =>
    refine ⟨_, rfl, rfl, rfl, rfl, rfl, rfl, rfl, rfl, rfl, rfl, rfl, rfl, rfl, rfl, rfl, fun v hv => ?_, fun hnone => ?_,
      fun hc => ?_, fun hx => ?_, fun x hx => ?_⟩
    · have hbus : s.busFor (some e.tag) = some v := pairedBus_eq_some.mpr hv
      simp only [hbus, Option.map_some, true_and]
      intro hc
      rw [if_pos (by simpa using hc)]
      refine ⟨fun hb hc => ?_, fun ha hc => ?_, fun ha hb => ?_⟩
      · rw [faultedPhase_a v hb hc]; rfl
      · rw [faultedPhase_b v ha hc]; rfl
      · rw [faultedPhase_c v ha hb]; rfl
    · have hbus : s.busFor (some e.tag) = none := pairedBus_eq_none hnone
      simp only [hbus, Option.map_none, ite_self, and_self]
    · exact if_neg (by rcases hc with rfl | rfl <;> decide)
    · exact (congrArg (fun y : Option Int => y.bind (fun x => s.segmentOf b x)) hx).trans rfl
    · have hlabel := congrArg (fun y : Option Int => y.bind (fun x => s.segmentOf b x)) hx
      refine ⟨fun k hk hfirst => hlabel.trans ?_, fun hnone => hlabel.trans ?_⟩
      · exact segmentOf_first (segment_matches.mpr hk) fun j hj hm => hfirst j hj (segment_matches.mp hm)
      · exact segmentOf_none fun j hm => hnone j (segment_matches.mp hm)
  case bay =>
    refine ⟨_, rfl, rfl, rfl, rfl, rfl, rfl, rfl, rfl, rfl, rfl, rfl, fun hl => ?_, fun l hl => ?_⟩
    · simp only [hl]
      exact ⟨rfl, rfl, rfl, rfl, rfl, rfl, rfl⟩
    · simp only [hl]
      refine ⟨rfl, rfl, rfl, rfl, rfl, rfl, fun v hv => ⟨fun htag => ?_, fun hne hne' => ?_⟩, fun hv => ?_⟩
      · have hbus : s.busFor (some l.tag) = some v := pairedBus_eq_some.mpr ⟨hv, htag⟩
        exact congrArg (Option.map fun v : BusEval => v.vn.mag) hbus
      · have hbus : s.busFor (some l.tag) = none := pairedBus_eq_none fun w hw => by
          obtain ⟨hw, htag⟩ := hw
          obtain rfl : v = w := Option.some.inj (hv.symm.trans hw)
          exact htag.elim hne hne'
        exact congrArg (Option.map fun v : BusEval => v.vn.mag) hbus
      · have hbus : s.busFor (some l.tag) = none := pairedBus_eq_none fun w hw => nomatch hv.symm.trans hw.1
        exact congrArg (Option.map fun v : BusEval => v.vn.mag) hbus

end Sys2Proof.Proofs.OccurrenceRules

/-! The derivation of the FIRE reasons, bay by bay: where no bay has a sequence in hand that FIRE would cancel, it sets the FIRE reasons
and does nothing else (R81, R101). -/

namespace Sys2Proof.Proofs.FireDerivation
open Sys2Proof.Machine Sys2Proof.Safety Sys2Proof.Proofs.HuntBays Sys2Proof.Proofs.BlockRange Sys2Proof.Proofs.StatusRules
  Sys2Proof.Proofs.FireInvariant

section burn
variable {s : State} {b : Bay}

/-- FIRE of one bay as it should be. -/
def burn (b : Bay) (t : State) : State :=
  if t.shouldBurn b && !(t.rcl b).block.fire then t.addReason b .fire
  else if !t.shouldBurn b && (t.rcl b).block.fire then t.removeReason b .fire
  else t

theorem deriveBay_fst (p : State × BitVec 8) (b : Bay) : (deriveBay p b).1 = burn b p.1 := by
  unfold deriveBay burn
  dsimp only
  split
  · rfl
  · split <;> rfl

theorem deriveFold_fst (l : List Bay) (p : State × BitVec 8) : (l.foldl deriveBay p).1 = forEach l burn p.1 := by
  induction l generalizing p with
  | nil => rfl
  | cons b l ih =>
    rw [List.foldl_cons, ih, deriveBay_fst]
    rfl

theorem deriveFire_fst (s : State) : s.deriveFire.1 = forEach allBays burn s := deriveFold_fst _ _

theorem burn_at (b : Bay) (t : State) : OnlyAt (bayRec b) t (burn b t) :=
  ite_at _ (addReason_at t b .fire) (ite_at _ (removeReason_at t b .fire) (OnlyAt.refl _ t))

theorem burn_maskR (b : Bay) (t : State) : (burn b t).maskR = t.maskR :=
  ite_maskR (t.addReason_maskR b .fire) (ite_maskR (t.removeReason_maskR b .fire) rfl)

theorem putReason_self (s : State) (b : Bay) (r : BlockReason) : s.putReason b r ((s.rcl b).block.has r) = s := by
  have hset : (s.rcl b).block.set r ((s.rcl b).block.has r) = (s.rcl b).block := by cases r <;> rfl
  unfold State.putReason State.setRcl
  dsimp only
  rw [hset]
  show ({ s with rcc := s.rcc.put b (s.rcc.look b) } : State) = s
  rw [put_look_self]

/-- Where FIRE cancels no sequence, the bay's FIRE is set and nothing else is done. -/
theorem burn_settled (h : ¬ Cancels s b) : burn b s = s.putReason b .fire (s.shouldBurn b) := by
  have hkeep : s.putReason b .fire (s.rcl b).block.fire = s := putReason_self s b .fire
  unfold burn
  cases hburn : s.shouldBurn b with
  | true =>
    cases hfire : (s.rcl b).block.fire with
    | true =>
      rw [hfire] at hkeep
      exact hkeep.symm
    | false => exact addReason_stored hfire h
  | false =>
    cases hfire : (s.rcl b).block.fire with
    | true => exact if_pos hfire
    | false =>
      rw [hfire] at hkeep
      exact hkeep.symm

theorem cancels_of_same {t : State} (hsame : (t.rcl b).state = (s.rcl b).state) (hmask : t.maskR = s.maskR) :
    Cancels t b ↔ Cancels s b := by
  unfold Cancels
  rw [runs_of_maskR hmask, hsame]

/-- The slot and the reclose record of a bay with no sequence in hand, after the derivation. -/
theorem deriveFire_settled_bay (h : ¬ Cancels s b) :
    s.deriveFire.1.rcl b = { s.rcl b with block := { (s.rcl b).block with fire := s.shouldBurn b } } ∧
    s.deriveFire.1.slot (bayRec b) = s.slot (bayRec b) := by
  obtain ⟨u, hsame, hmask, hstep⟩ := forEach_bay burn_at burn_maskR b s
  rw [burn_settled ((cancels_of_same (congrArg _ hsame.rcl) hmask).not.mpr h)] at hstep
  rw [deriveFire_fst]
  refine ⟨?_, hstep.slot.trans hsame.slot⟩
  rw [hstep.rcl, State.putReason, State.setRcl_rcl, hsame.rcl, State.shouldBurn_of_maskR hmask]
  rfl

/-- With no sequence in hand at any bay, the derivation changes the reclose records alone. -/
theorem deriveFire_settled (h : ∀ b, ¬ Cancels s b) : s.deriveFire.1 = { s with rcc := s.deriveFire.1.rcc } := by
  have hall : (fun t : State => t = { s with rcc := t.rcc } ∧ ∀ b, ¬ Cancels t b) (forEach allBays burn s) := by
    refine forEach_inv (fun t : State => t = { s with rcc := t.rcc } ∧ ∀ b, ¬ Cancels t b) burn (fun b t ht => ?_) _ _ ⟨rfl, h⟩
    obtain ⟨heq, hnone⟩ := ht
    rw [burn_settled (hnone b)]
    refine ⟨congrArg (fun u : State => { u with rcc := (t.putReason b .fire (t.shouldBurn b)).rcc }) heq, fun c => ?_⟩
    refine (cancels_of_same ?_ (t.putReason_maskR b .fire _)).not.mpr (hnone c)
    unfold State.putReason
    rw [rcl_setRcl]
    split
    · next e => rw [e]
    · rfl
  rw [deriveFire_fst]
  exact hall.1

theorem not_cancels_of_idle (h : s.runs b = false) : ¬ Cancels s b := fun hc => by
  rw [Cancels, h] at hc
  exact Bool.false_ne_true hc.1

theorem not_cancels_of_state (h : (s.rcl b).state ≠ .dead) (h' : (s.rcl b).state ≠ .closing .waiting) : ¬ Cancels s b :=
  fun hc => hc.2.elim h h'

theorem fireStep_of_maskR {t : State} (h : t.maskR = s.maskR) : t.fireStep = s.fireStep := by
  have honly := onlySlots_of_maskR h
  unfold State.fireStep State.fireRecord State.groupValid State.placed State.stamp
  rw [honly.fru, honly.pru, honly.mono, State.maskR_mgu h]

end burn

end Sys2Proof.Proofs.FireDerivation

/-! COMMISSION with its five checks, and DECOMMISSION (R87, R193, R194). -/

namespace Sys2Proof.Proofs.Commissioning
open Sys2Proof.Machine Sys2Proof.Safety Sys2Proof.Proofs.HuntBays Sys2Proof.Proofs.BlockRange Sys2Proof.Proofs.FireInvariant
  Sys2Proof.Proofs.FireDerivation Sys2Proof.Proofs.FrameRules Sys2Proof.Proofs.SlotRules Sys2Proof.Proofs.Requests
  Sys2Proof.Proofs.BreakerFail Sys2Proof.Proofs.TableWrites

/-! ### The five checks (R193) -/

section checks
variable {s : State}

theorem find?_finRange {n : Nat} {q : Fin n → Bool} {k : Fin n} (hk : q k = true) (hfirst : ∀ j, j < k → q j = false) :
    (List.finRange n).find? q = some k := by
  rw [List.find?_eq_some_iff_getElem]
  refine ⟨hk, k.val, by simp, by simp, fun j hj => ?_⟩
  rw [Bool.not_eq_true']
  simpa using hfirst ⟨j, hj.trans k.isLt⟩ hj

theorem allBays_eq_finRange : allBays = List.finRange 8 := by decide

theorem allLevels_eq_finRange : allLevels = List.finRange 5 := by decide

theorem roleInUse_iff {r : Role} : s.roleInUse r = true ↔ ∃ e, (s.src e).inUse = true ∧ (s.src e).role = some r := by
  unfold State.roleInUse State.findSource
  rw [List.find?_isSome]
  simp only [mem_allSources, true_and, Bool.and_eq_true, beq_iff_eq]

theorem roleValid_iff {r : Role} :
    s.roleValid r = true ↔ ∃ e, (s.src e).inUse = true ∧ (s.src e).role = some r ∧ (s.ctx e).state = .valid := by
  unfold State.roleValid
  rw [List.any_eq_true]
  simp only [mem_allSources, true_and, Bool.and_eq_true, beq_iff_eq, and_assoc]

theorem serves_iff {b : Bay} : s.serves b = true ↔
    ((s.cap (bayRec b)).inService = true → ∃ e, (s.src e).inUse = true ∧ (s.src e).role = some (.bay b)) := by
  rw [← roleInUse_iff]
  unfold State.serves
  cases (s.cap (bayRec b)).inService <;> simp

theorem mapsValid_iff {l : Level} :
    s.mapsValid l = true ↔ ∀ g, (s.fru.fireMap.look l).group = some g → s.groupValid g = true := by
  unfold State.mapsValid
  cases (s.fru.fireMap.look l).group <;> simp

theorem plansServed_iff {k : Fin 8} : s.plansServed k = true ↔
    ∀ b, (s.hnc.table.plan.look k).bay = some b → (s.cap (bayRec b)).inService = true := by
  unfold State.plansServed
  cases (s.hnc.table.plan.look k).bay <;> simp

/-- The first check: the bus and at least one bay have their sources. -/
def Sourced (s : State) : Prop := s.roleValid .bus = true ∧ ∃ b, s.roleInUse (.bay b) = true

theorem sourced_iff : (s.roleValid .bus && allBays.any (fun b => s.roleInUse (.bay b))) = true ↔ Sourced s := by
  rw [Bool.and_eq_true, List.any_eq_true]
  simp only [mem_allBays, true_and, Sourced]

theorem failure_unsourced (h : ¬ Sourced s) : s.commissionFailure = some 256 :=
  if_pos (by rw [Bool.not_eq_true', Bool.eq_false_iff]; exact mt sourced_iff.mp h)

variable (hsourced : Sourced s)
include hsourced

theorem failure_sourced : s.commissionFailure = match allBays.find? (fun b => !s.serves b) with
    | some b => some (2 * 256 + b.val)
    | none =>
      if !s.groupValid s.baseGroup then some (3 * 256 + s.baseGroup.val)
      else match allLevels.find? (fun l => !s.mapsValid l) with
      | some l => some (4 * 256 + l.val)
      | none => (allBays.find? (fun k => !s.plansServed k)).map (fun k => 5 * 256 + k.val) := by
  have htrue := sourced_iff.mpr hsourced
  refine (if_neg ?_).trans ?_
  · rw [htrue]
    exact Bool.false_ne_true
  · rfl

theorem failure_unserved {b : Bay} (h : ¬ s.serves b = true) (hfirst : ∀ c, c < b → s.serves c = true) :
    s.commissionFailure = some (2 * 256 + b.val) := by
  have hfind : allBays.find? (fun b => !s.serves b) = some b := by
    rw [allBays_eq_finRange]
    exact find?_finRange (by simpa using h) fun c hc => by rw [hfirst c hc]; rfl
  rw [failure_sourced hsourced, hfind]

variable (hserved : ∀ b, s.serves b = true)
include hserved

theorem failure_served : s.commissionFailure =
    if !s.groupValid s.baseGroup then some (3 * 256 + s.baseGroup.val)
    else match allLevels.find? (fun l => !s.mapsValid l) with
    | some l => some (4 * 256 + l.val)
    | none => (allBays.find? (fun k => !s.plansServed k)).map (fun k => 5 * 256 + k.val) := by
  have hfind : allBays.find? (fun b => !s.serves b) = none := List.find?_eq_none.mpr fun b _ => by simp [hserved b]
  rw [failure_sourced hsourced, hfind]

theorem failure_base (h : s.groupValid s.baseGroup = false) : s.commissionFailure = some (3 * 256 + s.baseGroup.val) :=
  (failure_served hsourced hserved).trans (if_pos (by rw [h]; rfl))

variable (hbase : s.groupValid s.baseGroup = true)
include hbase

theorem failure_based : s.commissionFailure =
    match allLevels.find? (fun l => !s.mapsValid l) with
    | some l => some (4 * 256 + l.val)
    | none => (allBays.find? (fun k => !s.plansServed k)).map (fun k => 5 * 256 + k.val) :=
  (failure_served hsourced hserved).trans (if_neg (by rw [hbase]; exact Bool.false_ne_true))

theorem failure_unmapped {l : Level} (h : ¬ s.mapsValid l = true) (hfirst : ∀ m, m < l → s.mapsValid m = true) :
    s.commissionFailure = some (4 * 256 + l.val) := by
  have hfind : allLevels.find? (fun l => !s.mapsValid l) = some l := by
    rw [allLevels_eq_finRange]
    exact find?_finRange (by simpa using h) fun m hm => by rw [hfirst m hm]; rfl
  rw [failure_based hsourced hserved hbase, hfind]

variable (hmapped : ∀ l, s.mapsValid l = true)
include hmapped

theorem failure_mapped :
    s.commissionFailure = (allBays.find? (fun k => !s.plansServed k)).map (fun k => 5 * 256 + k.val) := by
  have hfind : allLevels.find? (fun l => !s.mapsValid l) = none := List.find?_eq_none.mpr fun l _ => by simp [hmapped l]
  rw [failure_based hsourced hserved hbase, hfind]

theorem failure_unplanned {k : Fin 8} (h : ¬ s.plansServed k = true) (hfirst : ∀ j, j < k → s.plansServed j = true) :
    s.commissionFailure = some (5 * 256 + k.val) := by
  have hfind : allBays.find? (fun k => !s.plansServed k) = some k := by
    rw [allBays_eq_finRange]
    exact find?_finRange (by simpa using h) fun j hj => by rw [hfirst j hj]; rfl
  rw [failure_mapped hsourced hserved hbase hmapped, hfind]
  rfl

theorem failure_none (h : ∀ k, s.plansServed k = true) : s.commissionFailure = none := by
  have hfind : allBays.find? (fun k => !s.plansServed k) = none := List.find?_eq_none.mpr fun k _ => by simp [h k]
  rw [failure_mapped hsourced hserved hbase hmapped, hfind]
  rfl

end checks

/-- The group of a BASE entry at the bottom of the stack. -/
theorem baseGroup_of_bottom {s : State} {e : StackEntry} {rest : List StackEntry} (hstack : s.fru.stack = e :: rest)
    (he : e.origin = .base) : s.baseGroup = e.group := by
  unfold State.baseGroup
  rw [hstack, List.find?_cons_of_pos (by simpa using he)]
  rfl

/-! ### The entry to ACTIVE (R87, R109, R193) -/

section enter
variable {s : State} {b : Bay}

/-- The reclose record of a bay that starts from its idle state. -/
def idleRecord (r : RecloseRecord) : RecloseRecord := { r.stopTimers with state := r.idleState, shots := 0 }

theorem startIdle_rcl (s : State) (b : Bay) : (s.startIdle b).rcl b = idleRecord (s.rcl b) := State.setRcl_rcl s b _

theorem idleRecord_state (r : RecloseRecord) :
    (idleRecord r).state = if r.lastDefinite = some .closed then .idleClosed else .idleOpen := by
  unfold idleRecord RecloseRecord.idleState
  simp only [beq_iff_eq]

theorem idleRecord_settled (r : RecloseRecord) : (idleRecord r).state ≠ .dead ∧ (idleRecord r).state ≠ .closing .waiting := by
  rw [idleRecord_state]
  split <;> exact ⟨nofun, nofun⟩

/-- The part ACTIVE with every bay in service started from its idle state. -/
def started (s : State) : State :=
  forEach allBays (fun b u => if (u.cap (bayRec b)).inService then u.startIdle b else u) (s.setPart .active)

theorem started_maskS (s : State) : (started s).maskS = (s.setPart .active).maskS :=
  forEach_keep State.maskS _ (fun b u => by
    split
    · exact u.startIdle_maskS b
    · rfl) _ _

theorem started_rcl (s : State) (b : Bay) :
    (started s).rcl b = if (s.cap (bayRec b)).inService then idleRecord (s.rcl b) else s.rcl b := by
  obtain ⟨u, hsame, hmask, hstep⟩ := forEach_bay (f := fun b u => if (u.cap (bayRec b)).inService then u.startIdle b else u)
    (fun c t => ite_at _ (t.setRcl_at c _) (OnlyAt.refl _ t)) (fun c t => ite_maskR (t.setRcl_maskR c _) rfl) b
    (s.setPart .active)
  have hcap : (u.cap (bayRec b)).inService = (s.cap (bayRec b)).inService := by
    unfold State.cap
    rw [State.maskR_cap hmask]
    rfl
  have hrcl : u.rcl b = s.rcl b := hsame.rcl
  refine hstep.rcl.trans ?_
  rw [hcap]
  split
  · rw [startIdle_rcl, hrcl]
  · exact hrcl

theorem started_runs (s : State) (b : Bay) : (started s).runs b = (s.cap (bayRec b)).inService := by
  rw [runs_of_maskR (State.maskR_of_maskS (started_maskS s))]
  rfl

theorem started_settled (s : State) (b : Bay) : ¬ Cancels (started s) b := by
  cases hserved : (s.cap (bayRec b)).inService with
  | false => exact not_cancels_of_idle (by rw [started_runs, hserved])
  | true =>
    have hstate := idleRecord_settled (s.rcl b)
    refine not_cancels_of_state ?_ ?_
    · rw [started_rcl, if_pos hserved]
      exact hstate.1
    · rw [started_rcl, if_pos hserved]
      exact hstate.2

/-- The part ACTIVE with the FIRE reasons derived too. -/
def burning (s : State) : State := (started s).deriveFire.1

theorem burning_maskR (s : State) : (burning s).maskR = (s.setPart .active).maskR :=
  (started s).deriveFire_maskR.trans (State.maskR_of_maskS (started_maskS s))

theorem enterActive_eq (s : State) : s.enterActive =
    (burning s).changeStack (s.setPart .active).fireStep.1 .commission := by
  rw [← fireStep_of_maskR (burning_maskR s)]
  rfl

theorem burning_rcl (s : State) (b : Bay) : (burning s).rcl b =
    { (started s).rcl b with block := { ((started s).rcl b).block with fire := (s.setPart .active).shouldBurn b } } := by
  rw [← State.shouldBurn_of_maskR (State.maskR_of_maskS (started_maskS s))]
  exact (deriveFire_settled_bay (started_settled s b)).1

theorem started_block (s : State) (b : Bay) : ((started s).rcl b).block = (s.rcl b).block :=
  State.maskS_block (s := s.setPart .active) (started_maskS s) b

theorem enterActive_block (s : State) (b : Bay) : (s.enterActive.rcl b).block =
    { (s.rcl b).block with fire := (s.setPart .active).shouldBurn b } := by
  rw [enterActive_eq, changeStack_block, burning_rcl, started_block]

/-- A bay in service stands in its idle state. -/
theorem enterActive_idle (hserved : (s.cap (bayRec b)).inService = true) : (s.enterActive.rcl b).shots = 0 ∧
    (s.enterActive.rcl b).state = if (s.rcl b).lastDefinite = some .closed then .idleClosed else .idleOpen := by
  have hrcl : (burning s).rcl b = { idleRecord (s.rcl b) with
      block := { ((started s).rcl b).block with fire := (s.setPart .active).shouldBurn b } } := by
    rw [burning_rcl, started_rcl, if_pos hserved]
  have hsame : SameBay b (burning s) s.enterActive := by
    rw [enterActive_eq]
    refine (changeStack_bay _ _ _ b).resolve_right fun h => ?_
    have hwaits := h.waited
    rw [hrcl] at hwaits
    exact (idleRecord_settled _).2 hwaits
  rw [hsame.rcl, hrcl, ← idleRecord_state]
  exact ⟨rfl, rfl⟩

theorem changeStack_maskH (u : State) (l : List StackEntry) (c : GroupCause) : (u.changeStack l c).maskH = u.maskH := by
  have hstacked : (u.setStack l).maskH = u.maskH := rfl
  exact (closedH_mask u).changeStack hstacked

theorem changeStack_mgu (u : State) (l : List StackEntry) (c : GroupCause) : (u.changeStack l c).mgu = u.mgu :=
  State.maskH_mgu (changeStack_maskH u l c)

theorem enterActive_only (s : State) : OnlyHunt (s.setPart .active) s.enterActive ∧ s.enterActive.hnc = s.hnc ∧
    s.enterActive.mgu = { s.mgu with part := .active } ∧ s.enterActive.fru.stack = (s.setPart .active).fireStep.1 := by
  have hburning := onlySlots_of_maskR (burning_maskR s)
  have hmgu := State.maskR_mgu (burning_maskR s)
  rw [enterActive_eq]
  generalize (s.setPart .active).fireStep.1 = l
  refine ⟨onlyHunt_trans hburning.toOnlyHunt (onlyHunt_of_mask (changeStack_maskH _ _ _)), ?_, ?_, ?_⟩
  · rw [changeStack_hnc]
    exact hburning.hnc
  · rw [changeStack_mgu, hmgu]
    rfl
  · rw [changeStack_fru]

theorem opCommission_refused (n : Rec) (h : s.mgu.part ≠ .unconfigured) : State.opCommission n s = (s, refuse .state) :=
  if_pos h

theorem opCommission_failed (n : Rec) (h : s.mgu.part = .unconfigured) {v : Nat} (hv : s.commissionFailure = some v) :
    State.opCommission n s = (s, { code := .invalidTable, value := BitVec.ofNat 32 v }) := by
  unfold State.opCommission
  rw [if_neg (not_not_intro h), hv]
  rfl

theorem opCommission_done (n : Rec) (h : s.mgu.part = .unconfigured) (hv : s.commissionFailure = none) :
    State.opCommission n s = (s.enterActive, okAnswer) := by
  unfold State.opCommission
  rw [if_neg (not_not_intro h), hv]

end enter

/-! ### The return to UNCONFIGURED (R38, R87, R109, R115, R125, R194) -/

section leave
variable {s : State} {b : Bay}

/-- The reclose record of a bay that a DECOMMISSION has put back. -/
def retired (r : RecloseRecord) : RecloseRecord :=
  { idleRecord r with block := { r.block with fire := false, hunt := false, manual := false } }

theorem putReason_rcl (s : State) (b : Bay) (r : BlockReason) (v : Bool) :
    (s.putReason b r v).rcl b = { s.rcl b with block := (s.rcl b).block.set r v } := State.setRcl_rcl _ _ _

theorem decommissionBay_rcl (s : State) (b : Bay) : (s.decommissionBay b).rcl b = retired (s.rcl b) := by
  have hidle : ((s.setPend (bayRec b) .reclose none).startIdle b).rcl b = idleRecord (s.rcl b) := startIdle_rcl _ b
  have hwaits : (((s.setPend (bayRec b) .reclose none).startIdle b).rcl b).state ≠ .closing .waiting := by
    rw [hidle]
    exact (idleRecord_settled _).2
  have hlamp := lamp_rcl (bayRec b) .off hwaits
  unfold State.decommissionBay
  dsimp only
  rw [putReason_rcl, putReason_rcl, putReason_rcl]
  split
  · rw [hlamp, hidle]
    rfl
  · rw [hidle]
    rfl

theorem decommissionBay_at (s : State) (b : Bay) : OnlyAt (bayRec b) s (s.decommissionBay b) := by
  have hput (t : State) (r : BlockReason) (v : Bool) : OnlyAt (bayRec b) t (t.putReason b r v) := t.setRcl_at b _
  have hidle : OnlyAt (bayRec b) s ((s.setPend (bayRec b) .reclose none).startIdle b) :=
    (s.setPend_at _ _ _).trans (State.setRcl_at _ b _)
  exact (((ite_at _ (hidle.trans (State.lamp_at _ _ _)) hidle).trans (hput _ .fire _)).trans (hput _ .hunt _)).trans
    (hput _ .manual _)

theorem decommissionBay_maskR (s : State) (b : Bay) : (s.decommissionBay b).maskR = s.maskR :=
  (closedS_maskR s).decommissionBay (fun t b r v h => (t.putReason_maskR b r v).trans h) rfl

/-- Every bay put back, in the part that is UNCONFIGURED now. -/
@[irreducible] def putBack (s : State) : State := forEach allBays (fun b u => u.decommissionBay b) (s.setPart .unconfigured)

theorem putBack_maskR (s : State) : (putBack s).maskR = (s.setPart .unconfigured).maskR := by
  unfold putBack
  exact forEach_keep State.maskR _ (fun b u => decommissionBay_maskR u b) _ _

theorem putBack_rcl (s : State) (b : Bay) : (putBack s).rcl b = retired (s.rcl b) := by
  obtain ⟨u, hsame, -, hstep⟩ := forEach_bay (f := fun b u => u.decommissionBay b) (fun c t => decommissionBay_at t c)
    (fun c t => decommissionBay_maskR t c) b (s.setPart .unconfigured)
  unfold putBack
  refine hstep.rcl.trans ?_
  rw [decommissionBay_rcl, hsame.rcl]
  rfl

/-- The FIRE entry is out of the stack, and FIRE out of the block sets. -/
@[irreducible] def cooled (s : State) : State := ((putBack s).setStack (removeEntry .fire (putBack s).fru.stack)).deriveFire.1

theorem cooled_maskR (s : State) :
    (cooled s).maskR = ((putBack s).setStack (removeEntry .fire (putBack s).fru.stack)).maskR := by
  unfold cooled
  exact State.deriveFire_maskR _

theorem unconfigured_runs (s : State) (b : Bay) :
    ((putBack s).setStack (removeEntry .fire (putBack s).fru.stack)).runs b = false := by
  have hmgu : (putBack s).mgu = { s.mgu with part := .unconfigured } := State.maskR_mgu (putBack_maskR s)
  have hidle : (putBack s).protecting = false := unconfigured_idle (by rw [hmgu])
  have hstacked : ∀ l, ((putBack s).setStack l).runs b = ((putBack s).protecting && ((putBack s).cap (bayRec b)).inService) :=
    fun _ => rfl
  rw [hstacked, hidle, Bool.false_and]

theorem cooled_rcl (s : State) (b : Bay) : (cooled s).rcl b = retired (s.rcl b) := by
  have hruns := unconfigured_runs s b
  have hburn : ((putBack s).setStack (removeEntry .fire (putBack s).fru.stack)).shouldBurn b = false := by
    unfold State.shouldBurn
    rw [hruns]
    rfl
  unfold cooled
  refine (deriveFire_settled_bay (not_cancels_of_idle hruns)).1.trans ?_
  rw [hburn]
  show { (putBack s).rcl b with block := { ((putBack s).rcl b).block with fire := false } } = _
  rw [putBack_rcl]
  rfl

theorem cooled_slots (s : State) : OnlySlots ((putBack s).setStack (removeEntry .fire (putBack s).fru.stack)) (cooled s) :=
  onlySlots_of_maskR (cooled_maskR s)

theorem putBack_slots (s : State) : OnlySlots (s.setPart .unconfigured) (putBack s) := onlySlots_of_maskR (putBack_maskR s)

/-- The elements and the direction of a bay at their values for a bay that is not protected. -/
def still (b : Bay) (u : State) : State := (u.zeroElements b).setDir b .unavailable

@[irreducible] def stilled (t : State) : State := forEach allBays still t

/-- Element values with all but the trip latch at 0. -/
def zeroed (x : Elements) : Elements := { ptoc := 0, etoc := 0, phi := 0, sef := 0, latch := x.latch }

theorem stilled_maskM (t : State) : (stilled t).maskM = t.maskM :=
  by
  unfold stilled
  exact forEach_keep State.maskM still (fun _ u => (closedM_mask u).setDir ((closedM_mask u).zeroElements rfl)) _ _

theorem stilled_fold (l : List Bay) (t : State) (c : Bay) :
    (forEach l still t).elem c =
      (if c ∈ l then zeroed (t.elem c) else t.elem c) ∧
    (forEach l still t).dir c =
      (if c ∈ l then .unavailable else t.dir c) := by
  induction l generalizing t with
  | nil => exact ⟨rfl, rfl⟩
  | cons b l ih =>
    have helem : (still b t).elem c = if b = c then zeroed (t.elem c) else t.elem c := by
      refine (State.setElem_elem_at _ _ _ _).trans ?_
      split
      · next h => rw [h]; rfl
      · rfl
    have hdir : (still b t).dir c = if b = c then .unavailable else t.dir c :=
      State.setDir_dir_at _ _ _ _
    obtain ⟨ihe, ihd⟩ := ih (still b t)
    refine ⟨ihe.trans ?_, ihd.trans ?_⟩
    · rw [helem]
      by_cases hb : b = c
      · simp [hb, zeroed]
      · simp [hb, Ne.symm hb]
    · rw [hdir]
      by_cases hb : b = c
      · simp [hb]
      · simp [hb, Ne.symm hb]

theorem stilled_elem (t : State) (c : Bay) : (stilled t).elem c = zeroed (t.elem c) := by
  unfold stilled
  exact (stilled_fold _ _ _).1.trans (if_pos (mem_allBays c))

theorem stilled_dir (t : State) (c : Bay) : (stilled t).dir c = .unavailable := by
  unfold stilled
  exact (stilled_fold _ _ _).2.trans (if_pos (mem_allBays c))

theorem stilled_meu (t : State) : (stilled t).meu = t.meu := by
  unfold stilled
  exact forEach_keep State.meu still (fun _ _ => rfl) _ _

theorem stilled_bcu (t : State) : (stilled t).bcu = t.bcu := by
  unfold stilled
  exact forEach_keep State.bcu still (fun _ _ => rfl) _ _

theorem stilled_rcc (t : State) : (stilled t).rcc = t.rcc := by
  unfold stilled
  exact forEach_keep State.rcc still (fun _ _ => rfl) _ _

theorem stilled_fru (t : State) : (stilled t).fru = t.fru := by
  unfold stilled
  exact forEach_keep State.fru still (fun _ _ => rfl) _ _

theorem stilled_hnc (t : State) : (stilled t).hnc = t.hnc := by
  unfold stilled
  exact forEach_keep State.hnc still (fun _ _ => rfl) _ _

theorem stilled_mgu (t : State) : (stilled t).mgu = t.mgu := by
  unfold stilled
  exact forEach_keep State.mgu still (fun _ _ => rfl) _ _

theorem hncNvd_idle {t : State} (h : t.hnc.state = .idle) (old : NvdState) :
    t.hncNvd old .normal = t.setHnc { t.hnc with rearm := true } := by
  simp [State.hncNvd, State.mayWait, h]

/-- With no hunt, the return of the NVD element to NORMAL sets the hunt's re-arm mark at the most. -/
theorem changeNvd_idle {t : State} (h : t.hnc.state = .idle) : ∃ x, t.changeNvd Nvd.cold = (t.setNvd Nvd.cold).setHnc x := by
  unfold State.changeNvd
  dsimp only
  split
  · exact ⟨t.hnc, rfl⟩
  · exact ⟨_, hncNvd_idle (t := t.setNvd Nvd.cold) h _⟩

theorem leaveActive_eq (s : State) : s.leaveActive = (stilled (cooled s)).changeNvd Nvd.cold := by
  unfold stilled cooled putBack
  rfl

theorem cooled_fru (s : State) : (cooled s).fru = { s.fru with stack := s.fru.stack.filter (fun e => e.origin != .fire) } := by
  have hfru : (putBack s).fru = s.fru := (putBack_slots s).fru
  rw [(cooled_slots s).fru]
  show { (putBack s).fru with stack := removeEntry .fire (putBack s).fru.stack } = _
  rw [hfru]
  rfl

theorem cooled_only (s : State) : OnlyMeasures (s.setPart .unconfigured) (cooled s) ∧ (cooled s).meu = s.meu ∧
    (cooled s).bcu.status = s.bcu.status ∧ (cooled s).bcu.backupFlag = s.bcu.backupFlag ∧ (cooled s).hnc = s.hnc ∧
    (cooled s).mgu.part = .unconfigured ∧ ∀ b, (cooled s).elem b = s.elem b := by
  have hback := putBack_slots s
  have hcool := cooled_slots s
  have hstack : OnlyMeasures (putBack s) ((putBack s).setStack (removeEntry .fire (putBack s).fru.stack)) :=
    onlyMeasures_of_mask rfl
  refine ⟨onlyMeasures_trans (onlyMeasures_trans hback.toOnlyMeasures hstack) hcool.toOnlyMeasures, hcool.meu.trans hback.meu,
    hcool.status.trans hback.status, hcool.backup.trans hback.backup, hcool.hnc.trans hback.hnc, hcool.part.trans hback.part,
    fun b => ?_⟩
  have hpru : (cooled s).pru = s.pru := hcool.pru.trans hback.pru
  unfold State.elem
  rw [hpru]

/-- What a DECOMMISSION leaves (R194). -/
theorem leaveActive_leaves (hidle : s.hnc.state = .idle) :
    OnlyMeasures (s.setPart .unconfigured) s.leaveActive ∧ s.leaveActive.mgu.part = .unconfigured ∧
    s.leaveActive.meu = s.meu ∧ s.leaveActive.bcu.status = s.bcu.status ∧ s.leaveActive.bcu.backupFlag = s.bcu.backupFlag ∧
    s.leaveActive.fru.stack = s.fru.stack.filter (fun e => e.origin != .fire) ∧
    s.leaveActive.efu = { direction := Vector.replicate 8 .unavailable, nvd := Nvd.cold } ∧
    ∀ b, s.leaveActive.rcl b = retired (s.rcl b) ∧ s.leaveActive.elem b = zeroed (s.elem b) := by
  obtain ⟨hmeasures, hmeu, hstatus, hbackup, hhnc, hpart, helem⟩ := cooled_only s
  have hstill : (stilled (cooled s)).hnc.state = .idle := by rw [stilled_hnc, hhnc, hidle]
  obtain ⟨x, hx⟩ := changeNvd_idle hstill
  have hmask : s.leaveActive.maskM = (cooled s).maskM := by
    rw [leaveActive_eq, State.changeNvd_maskM, stilled_maskM]
  have hleave : s.leaveActive = ((stilled (cooled s)).setNvd Nvd.cold).setHnc x := (leaveActive_eq s).trans hx
  have honly := onlyMeasures_trans hmeasures (onlyMeasures_of_mask hmask)
  have hfields : s.leaveActive.mgu = (cooled s).mgu ∧ s.leaveActive.meu = (cooled s).meu ∧
      s.leaveActive.bcu = (cooled s).bcu ∧ s.leaveActive.fru = (cooled s).fru ∧ s.leaveActive.rcc = (cooled s).rcc ∧
      s.leaveActive.pru = (stilled (cooled s)).pru ∧
      s.leaveActive.efu = { (stilled (cooled s)).efu with nvd := Nvd.cold } := by
    rw [hleave]
    exact ⟨stilled_mgu _, stilled_meu _, stilled_bcu _, stilled_fru _, stilled_rcc _, rfl, rfl⟩
  obtain ⟨hmgu, hmeu', hbcu, hfru, hrcc, hpru, hefu⟩ := hfields
  refine ⟨honly, by rw [hmgu, hpart], hmeu'.trans hmeu, by rw [hbcu, hstatus], by rw [hbcu, hbackup], by rw [hfru, cooled_fru],
    ?_, fun b => ⟨?_, ?_⟩⟩
  · have hdir : (stilled (cooled s)).efu.direction = Vector.replicate 8 .unavailable := Vector.ext_look fun b =>
      (stilled_dir (cooled s) b).trans (Vector.look_replicate _ b).symm
    exact hefu.trans (congrArg (fun d => ({ direction := d, nvd := Nvd.cold } : Efu)) hdir)
  · unfold State.rcl
    rw [hrcc]
    exact cooled_rcl s b
  · rw [← helem b, ← stilled_elem]
    unfold State.elem
    rw [hpru]

theorem retired_leaves (r : RecloseRecord) : (retired r).block.fire = false ∧ (retired r).block.hunt = false ∧
    (retired r).block.manual = false ∧ (retired r).shots = 0 ∧
    (retired r).state = (if r.lastDefinite = some .closed then .idleClosed else .idleOpen) :=
  ⟨rfl, rfl, rfl, rfl, idleRecord_state r⟩

theorem opDecommission_standdown (n : Rec) (h : s.mgu.part = .standdown) : State.opDecommission n s = (s, refuse .state) :=
  if_pos h

theorem opDecommission_busy (n : Rec) (h : s.mgu.part ≠ .standdown) (hhunt : s.hnc.state ≠ .idle) :
    State.opDecommission n s = (s, refuse .busy) := (if_neg h).trans (if_pos hhunt)

theorem opDecommission_locked (n : Rec) (h : s.mgu.part ≠ .standdown) (hhunt : s.hnc.state = .idle)
    (hlock : s.fru.seasonLock = true) : State.opDecommission n s = (s, refuse .locked) :=
  ((if_neg h).trans (if_neg (not_not_intro hhunt))).trans (if_pos hlock)

theorem opDecommission_unlocked (n : Rec) (h : s.mgu.part ≠ .standdown) (hhunt : s.hnc.state = .idle)
    (hlock : s.fru.seasonLock = false) : State.opDecommission n s =
      if s.mgu.part ≠ .active then (s, refuse .state) else (s.leaveActive, okAnswer) :=
  ((if_neg h).trans (if_neg (not_not_intro hhunt))).trans (if_neg (by rw [hlock]; exact Bool.false_ne_true))

end leave

/-- Settles O35: the checks by the first that fails, the entry to ACTIVE by its steps, and the return by its own. -/
theorem commissioningActs : Obligations.CommissioningActs := by
  refine ⟨fun s p h => ⟨fun hpart => exec_of_runOp rfl h (opCommission_refused _ hpart), fun hpart hbus =>
      exec_of_runOp rfl h (opCommission_failed _ hpart (failure_unsourced ?bus)), fun hpart v hv =>
      exec_of_runOp rfl h (opCommission_failed _ hpart hv), fun hpart hnone => ?enter⟩,
    fun s p h hpart => ?checks, fun s p h => ⟨fun hstand => exec_of_runOp rfl h (opDecommission_standdown _ hstand),
      fun hpart hhunt => exec_of_runOp rfl h (opDecommission_busy _ hpart hhunt),
      fun hpart hhunt hlock => exec_of_runOp rfl h (opDecommission_locked _ hpart hhunt hlock),
      fun hpart hactive hhunt hlock =>
        exec_of_runOp rfl h ((opDecommission_unlocked _ hpart hhunt hlock).trans (if_pos hactive)),
      fun hactive hhunt hlock => ?leave⟩⟩
  case bus => exact fun hsourced => Bool.false_ne_true (hbus.symm.trans hsourced.1)
  case enter =>
    obtain ⟨honly, hhnc, hmgu, hstack⟩ := enterActive_only s
    refine ⟨_, exec_of_runOp rfl h (opCommission_done _ hpart hnone), hmgu, honly, hhnc, fun b r hr => ?_, hstack, fun b =>
      ⟨congrArg BlockSet.fire (enterActive_block s b), enterActive_idle⟩⟩
    rw [enterActive_block]
    cases r with
    | fire => exact absurd hr (by decide)
    | _ => rfl
  case checks =>
    have hanswers {v : Nat} (hv : s.commissionFailure = some v) : exec .commission s =
        .next (s.opDone { code := .invalidTable, value := BitVec.ofNat 32 v }) :=
      exec_of_runOp rfl h (opCommission_failed _ hpart hv)
    have hone : Sourced s ↔ (∃ e, (s.src e).inUse = true ∧ (s.src e).role = some .bus ∧ (s.ctx e).state = .valid) ∧
        ∃ b, ∃ e, (s.src e).inUse = true ∧ (s.src e).role = some (.bay b) := by
      unfold Sourced
      simp only [roleInUse_iff, roleValid_iff]
    refine ⟨fun hnot => hanswers (failure_unsourced (mt hone.mp hnot)), fun hsourced b hb hfirst => hanswers
        (failure_unserved (hone.mpr hsourced) (mt serves_iff.mp hb) fun c hc => serves_iff.mpr (hfirst c hc)),
      fun hsourced hserved e rest hstack he => ?_⟩
    have hsourced := hone.mpr hsourced
    have hserved : ∀ b, s.serves b = true := fun b => serves_iff.mpr (hserved b)
    rw [← baseGroup_of_bottom hstack he]
    refine ⟨fun hbase => hanswers (failure_base hsourced hserved hbase), fun hbase => ⟨fun l hl hfirst => hanswers
        (failure_unmapped hsourced hserved hbase (mt mapsValid_iff.mp hl) fun m hm => mapsValid_iff.mpr (hfirst m hm)),
      fun hmapped => ?_⟩⟩
    have hmapped : ∀ l, s.mapsValid l = true := fun l => mapsValid_iff.mpr (hmapped l)
    exact ⟨fun k hk hfirst => hanswers (failure_unplanned hsourced hserved hbase hmapped (mt plansServed_iff.mp hk)
        fun j hj => plansServed_iff.mpr (hfirst j hj)),
      fun hall => failure_none hsourced hserved hbase hmapped fun k => plansServed_iff.mpr (hall k)⟩
  case leave =>
    obtain ⟨honly, hpart, hmeu, hstatus, hbackup, hstack, hefu, hbays⟩ := leaveActive_leaves hhunt
    refine ⟨_, exec_of_runOp rfl h ((opDecommission_unlocked _ (by rw [hactive]; decide) hhunt hlock).trans
        (if_neg (not_not_intro hactive))), honly, hpart, hmeu, hstatus, hbackup, hstack, hefu, fun b r hr => ?_, fun b => ?_⟩
    · rw [(hbays b).1]
      cases r with
      | fire => exact absurd hr (by decide)
      | hunt => exact absurd hr (by decide)
      | manual => exact absurd hr (by decide)
      | _ => rfl
    · obtain ⟨hrcl, helem⟩ := hbays b
      obtain ⟨hfire, hhunt, hmanual, hshots, hstate⟩ := retired_leaves (s.rcl b)
      rw [hrcl]
      exact ⟨hfire, hhunt, hmanual, hshots, hstate, helem⟩

end Sys2Proof.Proofs.Commissioning

/-! RESTART: the warm restart of every block, the fire regime after it, and the lamp requests for the lockouts it has made (R88, R101,
R110, R195). -/

namespace Sys2Proof.Proofs.Restart
open Sys2Proof.Machine Sys2Proof.Safety Sys2Proof.Proofs.HuntBays Sys2Proof.Proofs.BlockRange Sys2Proof.Proofs.FireInvariant
  Sys2Proof.Proofs.FireDerivation Sys2Proof.Proofs.SlotRules Sys2Proof.Proofs.Requests Sys2Proof.Proofs.StackControl
  Sys2Proof.Proofs.TableWrites Sys2Proof.Proofs.RecloseTimers
  Sys2Proof.Proofs.Switching

/-! ### Lamp requests at slots that stand empty (R80, R88) -/

section lamps
variable {v t : State} {b : Bay} {n : Rec} {l : List Bay}

/-- A slot with no command and no request. -/
def Empty (v : State) (n : Rec) : Prop := (v.slot n).state = .free ∧ (v.slot n).pend = Pending.none

/-- All that lamp requests at empty slots leave as it was: everything but the slots and the out-places. -/
def OnlyCommands (v t : State) : Prop :=
  t = { v with bcu := { v.bcu with slots := t.bcu.slots }, riu := { v.riu with outPlaces := t.riu.outPlaces } }

theorem onlyCommands_trans {u : State} (h : OnlyCommands v t) (k : OnlyCommands t u) : OnlyCommands v u := by
  unfold OnlyCommands at *
  exact k.trans (congrArg (fun w : State => { w with
    bcu := { w.bcu with slots := u.bcu.slots }, riu := { w.riu with outPlaces := u.riu.outPlaces } }) h)

theorem issueCmd_only (v : State) (b : Bay) (a : LampArg) :
    OnlyCommands v (v.issueCmd (bayRec b) .annunciate (.indicate a)) := by
  unfold State.issueCmd
  rfl

section only
variable (h : OnlyCommands v t)
include h

theorem OnlyCommands.cap (n : Rec) : t.cap n = v.cap n := by
  unfold OnlyCommands at h
  rw [h]
  rfl

theorem OnlyCommands.status (n : Rec) : t.status n = v.status n := by
  unfold OnlyCommands at h
  rw [h]
  rfl

theorem OnlyCommands.mono : t.mono = v.mono := by
  unfold OnlyCommands at h
  rw [h]

theorem OnlyCommands.bayCmdFrame (n : Rec) (m : Command) (tag : Nat) : t.bayCmdFrame n m tag = v.bayCmdFrame n m tag := by
  unfold OnlyCommands at h
  rw [h]
  rfl

end only

/-- A lamp request at an empty slot is issued where the bay is in service, and else refused. -/
theorem lamp_empty {a : LampArg} (ha : a ≠ .noChange) (hempty : Empty v (bayRec b))
    (hlocal : (v.status (bayRec b)).localMode = false) : v.lamp (bayRec b) a =
      if (v.cap (bayRec b)).inService then v.issueCmd (bayRec b) .annunciate (.indicate a) else v := by
  obtain ⟨hfree, hpend⟩ := hempty
  unfold State.lamp
  cases hserved : (v.cap (bayRec b)).inService with
  | false => rw [place_of_refused (Switching.judgeReq_service .annunciate hserved), if_neg Bool.false_ne_true]
  | true =>
    have hjudge : v.judgeReq (bayRec b) .annunciate (.indicate a) = none :=
      State.judgeReq_none hserved nofun hlocal nofun nofun
    rw [State.place_issued hjudge hfree hpend (fun e => ha (Command.indicate.inj e)), if_pos rfl]

/-- The lamp requests of a list of bays, one after the other. -/
def lamps (l : List Bay) (v : State) : State := forEach l (fun b t => t.lamp (bayRec b) .blink) v

/-- The slot and the out-place of a record whose lamp request has been issued. -/
def Blinks (v t : State) (n : Rec) : Prop :=
  t.slot n = (v.slot n).issued .annunciate (.indicate .blink) v.mono 1000 ∧
  t.riu.outPlaces.look n = some (v.bayCmdFrame n (.indicate .blink) (nextTag (v.slot n).lastTag))

def Untouched (v t : State) (n : Rec) : Prop := t.slot n = v.slot n ∧ t.riu.outPlaces.look n = v.riu.outPlaces.look n

theorem lamps_leave (hl : l.Nodup) (hempty : ∀ b ∈ l, Empty v (bayRec b)) (hlocal : ∀ n, (v.status n).localMode = false) :
    OnlyCommands v (lamps l v) ∧
    (∀ b ∈ l, (v.cap (bayRec b)).inService = true → Blinks v (lamps l v) (bayRec b)) ∧
    (∀ n, (∀ b ∈ l, n = bayRec b → (v.cap n).inService = false) → Untouched v (lamps l v) n) := by
  induction l generalizing v with
  | nil => exact ⟨rfl, nofun, fun n _ => ⟨rfl, rfl⟩⟩
  | cons b l ih =>
    obtain ⟨hb, hl⟩ := List.nodup_cons.mp hl
    have hlamp := lamp_empty (a := .blink) nofun (hempty b List.mem_cons_self) (hlocal (bayRec b))
    have hat : OnlyAt (bayRec b) v (v.lamp (bayRec b) .blink) := v.lamp_at _ _
    have honly : OnlyCommands v (v.lamp (bayRec b) .blink) := by
      rw [hlamp]
      split
      · exact issueCmd_only v b .blink
      · rfl
    have hother {c : Bay} (hc : c ∈ l) : bayRec c ≠ bayRec b := fun e => hb (bayRec_inj e ▸ hc)
    obtain ⟨ihonly, ihblinks, ihkeeps⟩ := ih (v := v.lamp (bayRec b) .blink) hl (fun c hc => by
        unfold Empty
        rw [hat.slots _ (hother hc)]
        exact hempty c (List.mem_cons_of_mem _ hc)) (fun n => by
        rw [honly.status]
        exact hlocal n)
    refine ⟨onlyCommands_trans honly ihonly, fun c hc hserved => ?_, fun n hn => ?_⟩
    · rcases List.mem_cons.mp hc with rfl | hc
      · obtain ⟨hslot, hout⟩ := ihkeeps (bayRec c) fun d hd e => absurd e.symm (hother hd)
        have hissued := hlamp.trans (if_pos hserved)
        exact ⟨hslot.trans ((congrArg (State.slot · (bayRec c)) hissued).trans (State.issueCmd_slot _ _ _ _)),
          hout.trans ((congrArg (fun w : State => w.riu.outPlaces.look (bayRec c)) hissued).trans
            (State.issueCmd_out _ _ _ _))⟩
      · obtain ⟨hslot, hout⟩ := ihblinks c hc (by rw [honly.cap]; exact hserved)
        rw [hat.slots _ (hother hc), honly.mono] at hslot
        rw [hat.slots _ (hother hc), honly.bayCmdFrame] at hout
        exact ⟨hslot, hout⟩
    · obtain ⟨hslot, hout⟩ := ihkeeps n fun c hc e => by
        rw [honly.cap]
        exact hn c (List.mem_cons_of_mem _ hc) e
      by_cases hnb : n = bayRec b
      · have hkeeps : v.lamp (bayRec b) .blink = v := by
          rw [hlamp, ← hnb, hn b List.mem_cons_self hnb]
          rfl
        exact ⟨hslot.trans (congrArg (State.slot · n) hkeeps),
          hout.trans (congrArg (fun w : State => w.riu.outPlaces.look n) hkeeps)⟩
      · exact ⟨hslot.trans (hat.slots n hnb), hout.trans (hat.outPlaces n hnb)⟩

end lamps

/-! ### The fire regime after a restart (R110) -/

section fire
variable {s : State}

/-- Every block at its warm-restart values, with the pin read and the effective level formed. -/
def levelled (s : State) : State :=
  { s.blocksWarm with fru := { s.fru with
      pinLevel := pinLevelOf s.pins.tfb, effective := max s.fru.commanded (pinLevelOf s.pins.tfb),
      stack := removeEntry .hunt s.fru.stack } }

/-- The stack once the fire regime has stepped, in a part that protects. -/
def restartStack (s : State) : List StackEntry :=
  if (levelled s).protecting then (levelled s).fireStep.1 else removeEntry .hunt s.fru.stack

theorem fruRestart_eq (s : State) : s.blocksWarm.fruRestart = ((levelled s).setStack (restartStack s)).deriveFire.1 := by
  unfold State.fruRestart restartStack
  show (if (levelled s).protecting = true then (levelled s).setStack (levelled s).fireStep.1 else levelled s).deriveFire.1 = _
  split
  · rfl
  · rfl

theorem restartStack_idle (h : s.protecting = false) : restartStack s = s.fru.stack.filter (fun e => e.origin != .hunt) :=
  if_neg (by rw [show (levelled s).protecting = s.protecting from rfl, h]; exact Bool.false_ne_true)

theorem restartStack_active (h : s.protecting = true) : restartStack s = (levelled s).fireStep.1 := if_pos h

theorem fireStep_none {t : State} (h : t.fireRecord.group = none) :
    t.fireStep.1 = t.fru.stack.filter (fun e => e.origin != .fire) := by
  unfold State.fireStep
  rw [h]
  dsimp only
  split
  · rfl
  · next hnone =>
    refine (List.filter_eq_self.mpr fun e he => ?_).symm
    rw [bne_iff_ne]
    exact fun ho => hnone (hasOrigin_iff.mpr ⟨e, he, ho⟩)

theorem fireStep_invalid {t : State} {g : GroupNo} (h : t.fireRecord.group = some g) (hg : t.groupValid g = false) :
    t.fireStep.1 = t.fru.stack := by
  unfold State.fireStep
  rw [h]
  dsimp only
  rw [hg]
  rfl

theorem fireStep_valid {t : State} {g : GroupNo} (h : t.fireRecord.group = some g) (hg : t.groupValid g = true) :
    t.fireStep.1 = t.placed .fire g := by
  unfold State.fireStep
  rw [h]
  dsimp only
  rw [hg]
  rfl

/-- A FIRE entry placed on a stack with no HUNT entry stands on top. -/
theorem placed_fire_new {t : State} (g : GroupNo) (hnew : ∀ e ∈ t.fru.stack, e.origin ≠ .fire)
    (hhunt : ∀ e ∈ t.fru.stack, e.origin ≠ .hunt) :
    t.placed .fire g = t.fru.stack ++ [{ origin := .fire, group := g, placed := t.stamp }] := by
  refine (if_neg (by rw [hasOrigin_false_of_ne hnew]; exact Bool.false_ne_true)).trans ?_
  exact insertBelow_absent hhunt

theorem removeEntry_absent (o : Origin) (l : List StackEntry) : ∀ e ∈ removeEntry o l, e.origin ≠ o := fun e he => by
  simpa using (List.mem_filter.mp he).2

/-! ### The reclose records after a restart (R88, R101) -/

theorem lostByRestart_iff {x : RecloseState} :
    x.lostByRestart = true ↔ x = .dead ∨ x = .reclaim ∨ ∃ c, x = .closing c := by
  cases x <;> simp [RecloseState.lostByRestart]

theorem levelled_rcl (s : State) (b : Bay) : (levelled s).rcl b = (s.rcl b).warm := Vector.look_each _ _ _

theorem warm_settled (r : RecloseRecord) : r.warm.state ≠ .dead ∧ r.warm.state ≠ .closing .waiting := by
  unfold RecloseRecord.warm RecloseRecord.idleState
  dsimp only
  split
  · next h => constructor <;> (intro e; rw [e] at h; cases h)
  · split
    · exact ⟨nofun, nofun⟩
    · split <;> exact ⟨nofun, nofun⟩

theorem warm_state_idle {r : RecloseRecord} (h : r.state = .idleClosed ∨ r.state = .idleOpen) :
    r.warm.state = r.idleState := by
  unfold RecloseRecord.warm
  rcases h with h | h <;> simp [h, RecloseState.isLockout, RecloseState.lostByRestart]

theorem warm_state_lost {r : RecloseRecord} (h : r.state.lostByRestart = true) :
    r.warm.state = .lockout .protectionBlocked := by
  have hlock : r.state.isLockout = false := isLockout_eq_false fun c e => by rw [e] at h; cases h
  unfold RecloseRecord.warm
  simp [hlock, h]

theorem warm_state_locked {r : RecloseRecord} {c : LockoutCause} (h : r.state = .lockout c) : r.warm.state = .lockout c := by
  unfold RecloseRecord.warm
  simp [h, RecloseState.isLockout]

theorem levelled_settled (s : State) (b : Bay) : ¬ Cancels ((levelled s).setStack (restartStack s)) b := by
  have hstate := warm_settled (s.rcl b)
  rw [← levelled_rcl] at hstate
  exact not_cancels_of_state hstate.1 hstate.2

/-- The state before the lamp requests. -/
@[irreducible] def restarted (s : State) : State := s.blocksWarm.fruRestart

theorem restarted_eq (s : State) :
    restarted s = { levelled s with fru := { (levelled s).fru with stack := restartStack s }, rcc := (restarted s).rcc } := by
  unfold restarted
  rw [fruRestart_eq]
  exact deriveFire_settled (levelled_settled s)

theorem restarted_rcl (s : State) (b : Bay) : (restarted s).rcl b = { (s.rcl b).warm with block := { (s.rcl b).warm.block with
    fire := s.protecting && (s.cap (bayRec b)).inService &&
      (s.fru.fireMap.look (max s.fru.commanded (pinLevelOf s.pins.tfb))).mask.getLsbD b.val } } := by
  have hbay := (deriveFire_settled_bay (levelled_settled s b)).1
  have hrcl : ((levelled s).setStack (restartStack s)).rcl b = (s.rcl b).warm := levelled_rcl s b
  have hburn : ((levelled s).setStack (restartStack s)).shouldBurn b = (s.protecting && (s.cap (bayRec b)).inService &&
      (s.fru.fireMap.look (max s.fru.commanded (pinLevelOf s.pins.tfb))).mask.getLsbD b.val) := rfl
  unfold restarted
  rw [fruRestart_eq, hbay, hrcl, hburn]

/-- The bays whose sequence the restart loses. -/
def lostBays (s : State) : List Bay := allBays.filter (fun b => (s.rcl b).state.lostByRestart)

theorem warmRestart_eq (s : State) : s.warmRestart = lamps (lostBays s) (restarted s) := by
  unfold restarted
  rfl

theorem mem_lostBays {b : Bay} : b ∈ lostBays s ↔ (s.rcl b).state.lostByRestart = true := by
  simp [lostBays, mem_allBays]

theorem restarted_slot (s : State) (n : Rec) : (restarted s).slot n = (s.slot n).warm := by
  rw [restarted_eq]
  exact Vector.look_each _ _ _

theorem restarted_status (s : State) (n : Rec) : (restarted s).status n = (s.status n).warm := by
  rw [restarted_eq]
  exact Vector.look_each _ _ _

theorem restarted_cap (s : State) (n : Rec) : (restarted s).cap n = s.cap n := by
  rw [restarted_eq]
  rfl

theorem restarted_place (s : State) (n : Rec) : (restarted s).riu.outPlaces.look n = none := by
  rw [restarted_eq]
  exact Vector.look_replicate _ _

theorem restarted_mono (s : State) : (restarted s).mono = s.mono := by
  rw [restarted_eq]
  rfl

theorem restarted_frame (s : State) (n : Rec) (m : Command) (tag : Nat) :
    (restarted s).bayCmdFrame n m tag = s.bayCmdFrame n m tag := by
  rw [restarted_eq]
  rfl

/-- The reclose record of a bay after a restart, FIRE as the record in force says. -/
def rewarmed (s : State) (b : Bay) : RecloseRecord :=
  { (s.rcl b).warm with block := { (s.rcl b).warm.block with
    fire := s.protecting && (s.cap (bayRec b)).inService &&
      (s.fru.fireMap.look (max s.fru.commanded (pinLevelOf s.pins.tfb))).mask.getLsbD b.val } }

/-- The state a restart leaves, but for the reclose records, the slots and the out-places. -/
def afterRestart (s : State) (rcc : Vector RecloseRecord 8) (slots : Vector Slot 9)
    (places : Vector (Option Frame) 9) : State :=
  { levelled s with
    fru := { (levelled s).fru with stack := restartStack s }, rcc := rcc,
    bcu := { s.bcu.warm with slots := slots }, riu := { s.riu.warm with outPlaces := places } }

theorem warmRestart_leaves (s : State) : ∃ rcc slots places, s.warmRestart = afterRestart s rcc slots places ∧
    (∀ b, rcc.look b = rewarmed s b) ∧
    (∀ b, (s.rcl b).state.lostByRestart = true → (s.cap (bayRec b)).inService = true →
      slots.look (bayRec b) = (s.slot (bayRec b)).warm.issued .annunciate (.indicate .blink) s.mono 1000 ∧
      places.look (bayRec b) = some (s.bayCmdFrame (bayRec b) (.indicate .blink) (nextTag (s.slot (bayRec b)).lastTag))) ∧
    ∀ n, (∀ b, n = bayRec b → (s.rcl b).state.lostByRestart = true → (s.cap n).inService = false) →
      slots.look n = (s.slot n).warm ∧ places.look n = none := by
  have hnodup : (lostBays s).Nodup := (by decide : allBays.Nodup).filter _
  obtain ⟨honly, hblinks, hkeeps⟩ := lamps_leave (v := restarted s) hnodup
    (fun b _ => by unfold Empty; rw [restarted_slot]; exact ⟨rfl, rfl⟩) (fun n => by rw [restarted_status]; rfl)
  have hrcl := restarted_rcl s
  rw [← warmRestart_eq] at honly hblinks hkeeps
  refine ⟨(restarted s).rcc, s.warmRestart.bcu.slots, s.warmRestart.riu.outPlaces, ?_, hrcl, fun b hlost hserved => ?_,
    fun n hn => ?_⟩
  · unfold OnlyCommands at honly
    rw [restarted_eq] at honly
    exact honly
  · obtain ⟨hslot, hplace⟩ := hblinks b (mem_lostBays.mpr hlost) (by rw [restarted_cap]; exact hserved)
    rw [restarted_slot, restarted_mono] at hslot
    rw [restarted_slot, restarted_frame] at hplace
    exact ⟨hslot, hplace⟩
  · obtain ⟨hslot, hplace⟩ := hkeeps n fun b hb e => by
      rw [restarted_cap]
      exact hn b e (mem_lostBays.mp hb)
    exact ⟨hslot.trans (restarted_slot s n), hplace.trans (restarted_place s n)⟩

end fire

/-! ### RESTART (R195) -/

section restart
variable {s : State} {p : Progress}

theorem restartOp_refused (h : Runs s .restart p) {c : ResultCode} (hc : s.restartRefused = some c) :
    exec .restart s = .next (s.opDone (refuse c)) := by
  refine (State.live_of_free h.live _).trans ?_
  unfold State.restartOp
  rw [h.asked]
  dsimp only
  rw [hc]

/-- The reply entries of a request that an accepted RESTART ends. -/
def restartEntries (p : Progress) : List ReplyEntry :=
  p.entries ++ [{ code := .ok, value := 0 }] ++ (p.ops.drop 1).map (fun _ => { code := .notAttempted, value := 0 })

/-- The state once the reply of a RESTART has been placed. -/
def replied (s : State) (p : Progress) : State :=
  { s with
    mgu := { s.mgu with cur := none }
    riu := { s.riu with replies := s.riu.replies ++
      [buildFrame p.src s.ownByte kindReply ({ p with entries := restartEntries p } : Progress).payload] } }

theorem placeReply_abandon (s : State) (p : Progress) : s.placeReply (p.answered okAnswer).abandon = replied s p := by
  rw [answered_of_fits (a := okAnswer) rfl]
  simp [okAnswer, Progress.abandon, Progress.payload, State.placeReply, replied, restartEntries]

theorem restartOp_taken (h : Runs s .restart p) (hpart : s.mgu.part ≠ .standdown) (hhunt : s.hnc.state = .idle) :
    exec .restart s = .next (replied s p).warmRestart := by
  refine (State.live_of_free h.live _).trans ?_
  unfold State.restartOp
  rw [h.asked]
  dsimp only
  rw [State.restartRefused, if_neg hpart, if_neg (not_not_intro hhunt)]
  exact congrArg (fun t : State => Host.Outcome.next t.warmRestart) (placeReply_abandon s p)

theorem channel_warm (c : Channel) : (c.state = .running → c.warm = { c with state := .done, truncated := true, holding := none }) ∧
    (c.state ≠ .running → c.warm = { c with holding := none }) :=
  ⟨fun h => if_pos (beq_iff_eq.mpr h), fun h => if_neg (by simpa using h)⟩

theorem warm_idle {r : RecloseRecord} (h : r.state = .idleClosed ∨ r.state = .idleOpen) :
    (r.lastDefinite = some .closed → r.warm.state = .idleClosed) ∧
    (r.lastDefinite ≠ some .closed → r.warm.state = .idleOpen) := by
  rw [warm_state_idle h, idleState_eq]
  exact ⟨fun hclosed => if_pos hclosed, fun hopen => if_neg hopen⟩

/-- Settles O36, by the two refusals, and the state after a restart block by block. -/
theorem restartActs : Obligations.RestartActs := by
  refine fun s p h => ⟨fun hstand => restartOp_refused h (if_pos hstand),
    fun hpart hhunt => restartOp_refused h ((if_neg hpart).trans (if_pos hhunt)), fun hpart hhunt => ?_⟩
  obtain ⟨rcc, slots, places, hstate, hrcl, hlamps, hquiet⟩ :=
    warmRestart_leaves (replied s p)
  refine ⟨_, (restartOp_taken h hpart hhunt).trans (congrArg _ hstate), rfl, rfl, rfl, rfl, rfl, rfl, rfl, fun e => ?ctx,
    fun b => ?measured, rfl, rfl, rfl, rfl, rfl, fun n => ?commands, fun b => ?reclose, rfl, fun hidle => ?stackIdle,
    fun hactive => ?stack, rfl, rfl, fun b => ?latest, fun k => ?channels, rfl, fun f => ?factors⟩
  case ctx => exact Vector.look_replicate _ _
  case measured =>
    exact ⟨Vector.look_replicate _ _, Vector.look_replicate _ _, Vector.look_replicate _ _, Vector.look_replicate _ _⟩
  case commands =>
    have hwarm : (afterRestart (replied s p) rcc slots places).status n = (s.status n).warm := Vector.look_each _ _ _
    rw [hwarm]
    refine ⟨rfl, rfl, rfl, rfl, rfl, rfl, rfl, rfl, fun ⟨⟨b, hb, hlost⟩, hserved⟩ => ?_, fun hnot => ?_⟩
    · subst hb
      obtain ⟨hslot, hplace⟩ := hlamps b (lostByRestart_iff.mpr hlost) hserved
      exact ⟨hplace, hslot⟩
    · obtain ⟨hslot, hplace⟩ := hquiet n fun b hb hlost => by
        have := fun hserved => hnot ⟨⟨b, hb, lostByRestart_iff.mp hlost⟩, hserved⟩
        exact Bool.eq_false_iff.mpr this
      exact ⟨hplace, hslot⟩
  case reclose =>
    have hprotects : (replied s p).protecting = (s.mgu.part == .active) := by
      show (s.mgu.part == .active || s.mgu.part == .standdown) = _
      rw [beq_eq_false_iff_ne.mpr hpart, Bool.or_false]
    have hrecord : (afterRestart (replied s p) rcc slots places).rcl b = rewarmed (replied s p) b := hrcl b
    rw [hrecord]
    refine ⟨?_, warm_idle, fun hlost => warm_state_lost (lostByRestart_iff.mpr hlost), fun c => warm_state_locked⟩
    unfold rewarmed
    rw [hprotects]
    rfl
  case stackIdle => exact restartStack_idle (protecting_eq_false.mpr (not_or.mpr ⟨hidle, hpart⟩))
  case stack =>
    have hstack := restartStack_active (s := s.placeReply (p.answered okAnswer).abandon) (protecting_iff.mpr (.inl hactive))
    refine ⟨fun hnone => hstack.trans (fireStep_none hnone), fun g hgroup => ⟨fun hinvalid =>
      hstack.trans (fireStep_invalid hgroup hinvalid), fun hvalid hfire => ?_, fun hvalid hnew => ?_⟩⟩
    · exact (hstack.trans (fireStep_valid hgroup hvalid)).trans (placed_held hfire)
    · exact (hstack.trans (fireStep_valid hgroup hvalid)).trans (placed_fire_new g hnew (removeEntry_absent .hunt _))
  case latest => exact Vector.look_replicate _ _
  case channels =>
    have hwarm : (afterRestart (replied s p) rcc slots places).chan k = (s.chan k).warm := Vector.look_each _ _ _
    rw [hwarm]
    exact channel_warm _
  case factors => exact Vector.look_each _ _ _

end restart

end Sys2Proof.Proofs.Restart

/-! READ_CAPTURE and the blocks of a readout (R163): a readout that stands alone gives its blocks one after the other while the
queue has a free place. -/

namespace Sys2Proof.Proofs.CaptureBlocks
open Sys2Proof.Machine Sys2Proof.Safety Sys2Proof.Proofs.CaptureOps Sys2Proof.Proofs.Requests Sys2Proof.Proofs.RingFrames

/-! ### One block -/

section place
variable {s : State}

theorem placeBlock_next {r : Readout} {rest : List Readout} (hreading : s.recd.readouts = r :: rest)
    (hroom : s.riu.capQueue.length < 4) : s.placeBlock = { s with
      recd := { s.recd with
        readouts := (if r.left ≤ 32 then [] else [{ r with next := r.next + 32, left := r.left - 32 }]) ++ rest },
      riu := { s.riu with capQueue := s.riu.capQueue ++ [s.blockFrame r (min 32 r.left)] } } := by
  unfold State.placeBlock
  rw [hreading]
  refine (if_pos hroom).trans ?_
  rw [show Config.blockRows = 32 from rfl]
  dsimp only
  by_cases hlast : r.left ≤ 32
  · rw [if_neg (by simpa using hlast), if_pos hlast]
  · rw [min_eq_left (by omega), if_pos (by simpa using hlast), if_neg hlast]

theorem placeBlock_full (hfull : 4 ≤ s.riu.capQueue.length) : s.placeBlock = s := by
  unfold State.placeBlock
  split
  · rfl
  · exact if_neg (not_lt.mpr hfull)

/-- Nothing but the readouts and the capture-block queue differs. -/
def OnlyBlocks (s t : State) : Prop :=
  t = { s with recd := { s.recd with readouts := t.recd.readouts }, riu := { s.riu with capQueue := t.riu.capQueue } }

theorem onlyBlocks_trans {t u : State} (h : OnlyBlocks s t) (k : OnlyBlocks t u) : OnlyBlocks s u := by
  unfold OnlyBlocks at *
  exact k.trans (congrArg (fun w : State => { w with
    recd := { w.recd with readouts := u.recd.readouts }, riu := { w.riu with capQueue := u.riu.capQueue } }) h)

theorem placeBlock_only (s : State) : OnlyBlocks s s.placeBlock := by
  unfold State.placeBlock
  split
  · rfl
  · split <;> rfl

theorem placeBlocks_only (n : Nat) (s : State) : OnlyBlocks s (State.placeBlocks n s) := by
  induction n generalizing s with
  | zero => rfl
  | succ n ih => exact onlyBlocks_trans (placeBlock_only s) (ih _)

theorem placeBlocks_of_fixed {n : Nat} (h : s.placeBlock = s) : State.placeBlocks n s = s := by
  induction n with
  | zero => rfl
  | succ n ih => exact (congrArg (State.placeBlocks n) h).trans ih

end place

/-! ### The blocks of a readout that stands alone -/

section blocks
variable {s : State} {r : Readout} {j : Nat}

/-- Block j of a readout. -/
def block (s : State) (r : Readout) (j : Nat) : Frame :=
  s.blockFrame { r with next := r.next + 32 * j } (min 32 (r.left - 32 * j))

/-- A readout with its first j blocks placed. -/
def laid (s : State) (r : Readout) (j : Nat) : State :=
  { s with
    recd := { s.recd with readouts :=
      if r.left ≤ 32 * j then [] else [{ r with next := r.next + 32 * j, left := r.left - 32 * j }] }
    riu := { s.riu with capQueue := s.riu.capQueue ++ (List.range j).map (block s r) } }

theorem laid_zero (hreading : s.recd.readouts = [r]) (hleft : 0 < r.left) : laid s r 0 = s := by
  unfold laid
  rw [if_neg (by omega)]
  show ({ s with recd := { s.recd with readouts := [r] }, riu := { s.riu with capQueue := s.riu.capQueue ++ [] } } : State) = s
  rw [← hreading, List.append_nil]

theorem laid_room (s : State) (r : Readout) (j : Nat) : (laid s r j).riu.capQueue.length = s.riu.capQueue.length + j := by
  simp [laid]

theorem laid_succ (hleft : 32 * j < r.left) (hroom : s.riu.capQueue.length + j < 4) :
    (laid s r j).placeBlock = laid s r (j + 1) := by
  have hreading : (laid s r j).recd.readouts = [{ r with next := r.next + 32 * j, left := r.left - 32 * j }] :=
    if_neg (by omega)
  rw [placeBlock_next hreading (by rw [laid_room]; exact hroom)]
  have hreadouts : (if r.left - 32 * j ≤ 32 then ([] : List Readout)
      else [{ r with next := r.next + 32 * j + 32, left := r.left - 32 * j - 32 }]) ++ [] =
      if r.left ≤ 32 * (j + 1) then [] else [{ r with next := r.next + 32 * (j + 1), left := r.left - 32 * (j + 1) }] := by
    rw [List.append_nil, Nat.mul_succ, ← Nat.add_assoc, ← Nat.sub_sub]
    exact if_congr (by omega) rfl rfl
  dsimp only
  rw [hreadouts]
  unfold laid
  rw [List.range_succ, List.map_append, ← List.append_assoc]
  rfl

theorem laid_stays (h : r.left ≤ 32 * j ∨ 4 ≤ s.riu.capQueue.length + j) : (laid s r j).placeBlock = laid s r j := by
  rcases h with hdone | hfull
  · exact placeBlock_nothing (if_pos hdone)
  · exact placeBlock_full (by rw [laid_room]; exact hfull)

/-- The blocks placed at once: those there are, and those there is a free place for. -/
def placeable (s : State) (r : Readout) : Nat := min (4 - s.riu.capQueue.length) ((r.left + 31) / 32)

theorem placeBlocks_laid (n : Nat) (hj : j ≤ placeable s r) :
    State.placeBlocks n (laid s r j) = laid s r (min (j + n) (placeable s r)) := by
  induction n generalizing j with
  | zero => rw [Nat.add_zero, min_eq_left hj]; rfl
  | succ n ih =>
    show State.placeBlocks n (laid s r j).placeBlock = _
    by_cases hmore : j < placeable s r
    · have hbound := hmore
      unfold placeable at hbound
      rw [laid_succ (by omega) (by omega), ih hmore, Nat.succ_add_eq_add_succ]
    · have hend : j = placeable s r := by omega
      have hbound := hend
      unfold placeable at hbound
      rw [laid_stays (by omega), ih hj, min_eq_right (by omega), min_eq_right (by omega)]

/-- A readout that stands alone, with as many blocks placed as there are free places (R163). -/
theorem placeBlocks_alone (hreading : s.recd.readouts = [r]) (hleft : 0 < r.left) :
    State.placeBlocks 4 s = laid s r (placeable s r) := by
  have hall := placeBlocks_laid (s := s) (r := r) 4 (Nat.zero_le _)
  rw [laid_zero hreading hleft, Nat.zero_add, min_eq_right (by unfold placeable; omega)] at hall
  exact hall

/-- A readout of one block that finds a free place. -/
theorem laid_single (hleft : 0 < r.left) (hsmall : r.left ≤ 32) (hroom : s.riu.capQueue.length < 4) :
    (laid s r (placeable s r)).recd.readouts = [] ∧
    (laid s r (placeable s r)).riu.capQueue = s.riu.capQueue ++ [s.blockFrame r r.left] := by
  have hone : placeable s r = 1 := by unfold placeable; omega
  have hblock : block s r 0 = s.blockFrame r r.left := congrArg (s.blockFrame r) (min_eq_right hsmall)
  rw [hone, ← hblock]
  exact ⟨if_pos hsmall, rfl⟩

end blocks

/-! ### READ_CAPTURE -/

section read
variable {s : State} {v : Word32} {k : Chan} (n : Rec)

theorem reading_iff : s.reading k = true ↔ ∃ r ∈ s.recd.readouts, r.chan = k := by
  simp [State.reading]

/-- The readout an accepted READ_CAPTURE starts. -/
def begun (s : State) (k : Chan) (v : Word32) : Readout :=
  { chan := k, next := captureFirst v, left := captureCount v, dest := s.requester }

/-- The readouts with the one an accepted READ_CAPTURE starts. -/
def begins (s : State) (k : Chan) (v : Word32) : State :=
  { s with recd := { s.recd with readouts := s.recd.readouts ++ [begun s k v] } }

theorem begins_alone (h : s.recd.readouts = []) : (begins s k v).recd.readouts = [begun s k v] :=
  congrArg (· ++ [begun s k v]) h

theorem opReadCapture_badChannel (h : 3 < captureChannel v) : State.opReadCapture v n s = (s, refuse .badArg) := by
  rw [State.opReadCapture, index?_eq_none h]

theorem opReadCapture_empty (h : captureCount v = 0) : State.opReadCapture v n s = (s, refuse .badArg) := by
  unfold State.opReadCapture
  dsimp only
  split
  · rfl
  · exact if_pos h

variable (hk : k.val = captureChannel v) (hcount : 0 < captureCount v)
include hk hcount

theorem opReadCapture_channel : State.opReadCapture v n s =
    if s.reading k then (s, refuse .busy)
    else if (s.chan k).state = .armed ∨ (s.chan k).state = .running ∨ (s.chan k).rows = [] then (s, refuse .state)
    else if (s.chan k).rows.length < captureFirst v + captureCount v then (s, refuse .badArg)
    else (State.placeBlocks 4 (begins s k v), okValue (value ((captureCount v + 31) / 32))) := by
  rw [State.opReadCapture, index?_eq_some hk]
  exact if_neg (by omega)

end read

/-- Settles O22: READ_CAPTURE by its checks in order, and the blocks placed at once; then one CAPTURE_BLOCK_PLACE. -/
theorem captureReadout : Obligations.CaptureReadout := by
  refine ⟨fun s p imm h => ⟨fun hbad => exec_of_runImm rfl h ?bad, fun k hk hcount => ⟨fun hreading => ?busy,
    fun hreading hempty => ?state, fun hreading hfilled hshort => ?short, fun hreading hfilled hlong => ?taken⟩⟩,
    fun s hfree => ⟨fun hnothing => ?nothing, fun r rest hr hroom => ?next⟩⟩
  case bad =>
    rcases hbad with hchannel | hcount
    · exact opReadCapture_badChannel _ hchannel
    · exact opReadCapture_empty _ hcount
  case busy =>
    exact exec_of_runImm rfl h ((opReadCapture_channel _ hk hcount).trans (if_pos (reading_iff.mpr hreading)))
  case state =>
    exact exec_of_runImm rfl h ((opReadCapture_channel _ hk hcount).trans
      ((if_neg (mt reading_iff.mp hreading)).trans (if_pos hempty)))
  case short =>
    exact exec_of_runImm rfl h ((opReadCapture_channel _ hk hcount).trans ((if_neg (mt reading_iff.mp hreading)).trans
      ((if_neg hfilled).trans (if_pos hshort))))
  case taken =>
    have hbody := (opReadCapture_channel p.context (s := consumed s p) hk hcount).trans
      ((if_neg (mt reading_iff.mp hreading)).trans ((if_neg hfilled).trans (if_neg (not_lt.mpr hlong))))
    have honly : OnlyBlocks (consumed s p) (State.placeBlocks 4 (begins (consumed s p) k (valueOf p imm))) :=
      onlyBlocks_trans (t := begins (consumed s p) k (valueOf p imm)) rfl (placeBlocks_only 4 _)
    refine ⟨_, exec_of_runImm rfl h hbody, honly, fun hfull => ?_, fun hidle hsmall hroom => ?_, fun hidle => ?_⟩
    · rw [placeBlocks_of_fixed (placeBlock_full (s := begins (consumed s p) k (valueOf p imm)) hfull)]
      exact ⟨rfl, rfl⟩
    · rw [placeBlocks_alone (begins_alone (s := consumed s p) hidle) hcount]
      exact laid_single (s := begins (consumed s p) k (valueOf p imm)) hcount hsmall hroom
    · rw [placeBlocks_alone (begins_alone (s := consumed s p) hidle) hcount]
      exact ⟨rfl, rfl⟩
  case nothing =>
    exact (State.live_of_free hfree _).trans (congrArg _ (hnothing.elim placeBlock_nothing placeBlock_full))
  case next => exact (State.live_of_free hfree _).trans (congrArg _ (placeBlock_next hr hroom))

end Sys2Proof.Proofs.CaptureBlocks

/-! READ, table by table (R186, R191): the value of a field by its table and its address. -/

namespace Sys2Proof.Proofs.TableReads
open Sys2Proof.Machine Sys2Proof.Safety Sys2Proof.Proofs.TableWrites Sys2Proof.Proofs.CaptureOps Sys2Proof.Proofs.BreakerFail
  Sys2Proof.Proofs.FieldWrites

/-- READ of the field at address k of table n answers a value. -/
def Gives (s : State) (t : BitVec 12) (n k : Nat) (v : Word32) : Prop :=
  targetTable t = n ∧ (targetAddr t).toNat = k → exec (.read t) s = .next (s.opDone { code := .ok, value := v })

/-- READ of address k of table n is refused BAD_ARG. -/
def Refuses (s : State) (t : BitVec 12) (n k : Nat) : Prop :=
  targetTable t = n ∧ (targetAddr t).toNat = k → exec (.read t) s = .next (s.opDone (refuse .badArg))

section read
variable {s : State} {p : Progress} {t : BitVec 12} {v : Word32} {n k m c j : Nat}

theorem read_value (h : Runs s (.read t) p) (hv : s.readTarget t p.context = some v) :
    exec (.read t) s = .next (s.opDone { code := .ok, value := v }) :=
  exec_of_runOp rfl h (by unfold State.opRead; rw [hv]; rfl)

theorem read_refused (h : Runs s (.read t) p) (hnone : s.readTarget t p.context = none) :
    exec (.read t) s = .next (s.opDone (refuse .badArg)) :=
  exec_of_runOp rfl h (by unfold State.opRead; rw [hnone])

theorem listed (h : Runs s (.read t) p) (hv : ∀ a : BitVec 8, a.toNat = k → s.readTable n a p.context = some v) :
    Gives s t n k v :=
  fun ⟨htable, haddr⟩ => read_value h (by unfold State.readTarget; rw [htable]; exact hv _ haddr)

theorem unlisted (h : Runs s (.read t) p) (hnone : ∀ a : BitVec 8, a.toNat = k → s.readTable n a p.context = none) :
    Refuses s t n k :=
  fun ⟨htable, haddr⟩ => read_refused h (by unfold State.readTarget; rw [htable]; exact hnone _ haddr)

/-- Field j of record e of table n, in a table of records of m addresses each. -/
theorem listedIn (h : Runs s (.read t) p) (e : Fin c) (j : Nat) (hj : j < m)
    (hv : ∀ a : BitVec 8, a.toNat = e.val * m + j → addrIndex a m c = some e → addrField a m = j →
      s.readTable n a p.context = some v) : Gives s t n (e.val * m + j) v :=
  listed h fun a ha => hv a ha (addrIndex_of ha hj) (addrField_of ha hj)

end read

/-! ### Fields that need a fact of their own -/

theorem optValue_map {α : Type} (o : Option α) (g : α → Nat) : optValue (o.map (fun x => value (g x))) = optNat (o.map g) := by
  cases o <;> rfl

theorem flagValue_eq (b : Bool) : flagValue b = value (if b then 1 else 0) := by
  cases b <;> rfl

theorem refusal_none {o : CmdOutcome} (h : ∀ q, o ≠ .refusedAtRequest q) : o.refusal = none := by
  unfold CmdOutcome.refusal
  split
  · next q => exact absurd rfl (h q)
  · rfl

section entries
variable {s : State} {a : BitVec 8} {k j : Nat}

theorem entryValue_held {e : StackEntry} (he : s.fru.stack[k]? = some e) :
    s.entryValue k = value (e.origin.code * 256 + e.group.val) := by
  unfold State.entryValue
  rw [he]

theorem entryTime_held {e : StackEntry} (he : s.fru.stack[k]? = some e) : s.entryTime k = e.placed := by
  unfold State.entryTime
  rw [he]

theorem entry_above (h : s.fru.stack.length ≤ k) : s.entryValue k = 0 ∧ s.entryTime k = 0 := by
  unfold State.entryValue State.entryTime
  rw [List.getElem?_eq_none h]
  exact ⟨rfl, rfl⟩

theorem readFire_entry (ha : a.toNat = 8 + k) (hk : k < 4) : s.readFire a = some (s.entryValue k) := by
  have hin : inRange 8 11 (8 + k) = true := inRange_of (by omega) (by omega)
  unfold State.readFire
  split
  case h_7 => rw [ha, hin, if_pos rfl, Nat.add_sub_cancel_left]
  all_goals omega

theorem readFire_time (ha : a.toNat = 12 + k) (hk : k < 4) : s.readFire a = some (s.entryTime k) := by
  have hout : inRange 8 11 (12 + k) = false := inRange_outside (by omega)
  have hin : inRange 12 15 (12 + k) = true := inRange_of (by omega) (by omega)
  unfold State.readFire
  split
  case h_7 => rw [ha, hout, hin, if_neg Bool.false_ne_true, if_pos rfl, Nat.add_sub_cancel_left]
  all_goals omega

theorem readFire_group {g : GroupNo} (ha : a.toNat = 16 + g.val) : s.readFire a = some (flagValue (s.groupInUse g)) := by
  have hentry : inRange 8 11 (16 + g.val) = false := inRange_outside (by omega)
  have htime : inRange 12 15 (16 + g.val) = false := inRange_outside (by omega)
  unfold State.readFire
  split
  case h_7 =>
    rw [ha, hentry, htime, if_neg Bool.false_ne_true, if_neg Bool.false_ne_true, if_pos (Nat.le_add_right _ _),
      Nat.add_sub_cancel_left, index?_eq_some rfl]
    rfl
  all_goals omega

theorem readCandidate_absent (h : s.hnc.cands.length ≤ k) : s.readCandidate k j = absentValue := by
  unfold State.readCandidate
  rw [List.getElem?_eq_none h]

theorem readCandidate_held {c : Candidate} (h : s.hnc.cands[k]? = some c) (j : Nat) : s.readCandidate k j =
    match j with
    | 0 => noneFin c.bay
    | 1 => value c.dwell
    | 2 => optNat (c.snapshot.map Direction.code)
    | _ => value c.outcome.code := by
  unfold State.readCandidate
  rewrite [h]
  rfl

theorem readHunt_candidate (ha : a.toNat = 64 + 4 * k + j) (hk : k < 8) (hj : j < 4) :
    s.readHunt a = some (s.readCandidate k j) := by
  have hindex : (64 + 4 * k + j - 64) / 4 = k := by omega
  have hfield : (64 + 4 * k + j - 64) % 4 = j := by omega
  have hin : inRange 64 95 (64 + 4 * k + j) = true := inRange_of (by omega) (by omega)
  unfold State.readHunt
  dsimp only
  split
  case h_11 => rw [ha, hin, if_pos rfl, hindex, hfield]
  all_goals omega

end entries

/-! ### The tables -/

section tables
variable {s : State} {p : Progress} {t : BitVec 12}

/-- Table 0: the station and the ring. -/
theorem read_station (h : Runs s (.read t) p) :
    Gives s t 0 0 (value s.riu.own.toNat) ∧ Gives s t 0 1 (flagValue s.riu.inUp) ∧ Gives s t 0 2 (value s.riu.checkFail) ∧
    Gives s t 0 3 (value s.riu.overrun) ∧ Gives s t 0 4 (value s.riu.fwd.length) ∧ Gives s t 0 5 (value s.mgu.part.code) ∧
    Gives s t 0 6 (flagValue s.bcu.backupFlag) ∧ Gives s t 0 7 (value s.evu.dest) ∧ Gives s t 0 8 (value s.evu.threshold) ∧
    Gives s t 0 9 (optNat (s.evu.outSlot.map (fun x => x.1.val))) ∧ Gives s t 0 10 s.mgu.offset ∧ Gives s t 0 11 s.mono ∧
    Gives s t 0 12 (value s.recd.count) ∧ Gives s t 0 13 (value s.recd.top.val) ∧
      Gives s t 0 14 (value s.recd.nextSeq.toNat) ∧
    ∀ k, 15 ≤ k → Refuses s t 0 k := by
  refine ⟨?_, ?_, ?_, ?_, ?_, ?_, ?_, ?_, ?_, ?_, ?_, ?_, ?_, ?_, ?_, fun k hk => unlisted h fun a ha => ?_⟩
  case refine_16 =>
    change s.readStation a.toNat = none
    rw [ha]
    unfold State.readStation
    split
    case h_16 => rfl
    all_goals omega
  case refine_10 =>
    refine listed h fun a ha => (congrArg s.readStation ha).trans (congrArg (some ∘ optNat) ?_)
    exact Option.map_map _ _ _
  all_goals exact listed h fun a ha => congrArg s.readStation ha

/-- Table 1: the source table and the continuity contexts. -/
theorem read_sources (h : Runs s (.read t) p) :
    (∀ e : SrcIx, let x := s.src e
      let c := s.ctx e
      let a := e.val * 16
      Gives s t 1 a (optNat x.addr) ∧ Gives s t 1 (a + 1) (optNat (x.role.map Role.code)) ∧
        Gives s t 1 (a + 2) (flagValue x.inUse) ∧
      Gives s t 1 (a + 3) (value c.state.code) ∧ Gives s t 1 (a + 4) (optFin c.lastPos) ∧
        Gives s t 1 (a + 5) (optFin c.lastTag) ∧
      Gives s t 1 (a + 6) (value c.missing) ∧ Gives s t 1 (a + 7) (value c.fill)) ∧
    ∀ k, 192 ≤ k ∨ 8 ≤ k % 16 → Refuses s t 1 k := by
  refine ⟨fun e => ⟨listedIn h (m := 16) e 0 (by decide) ?_, listedIn h (m := 16) e 1 (by decide) ?_,
    listedIn h (m := 16) e 2 (by decide) ?_, listedIn h (m := 16) e 3 (by decide) ?_,
    listedIn h (m := 16) e 4 (by decide) ?_, listedIn h (m := 16) e 5 (by decide) ?_,
    listedIn h (m := 16) e 6 (by decide) ?_, listedIn h (m := 16) e 7 (by decide) ?_⟩, fun k hk => unlisted h fun a ha => ?_⟩
  case refine_9 =>
    change s.readSource a = none
    unfold State.readSource addrIndex addrField
    rw [ha]
    split
    · dsimp only [Option.bind]
      split
      case h_9 => rfl
      all_goals omega
    · rfl
  all_goals
    intro a _ he hj
    rewrite [State.readTable, State.readSource, he, hj]
    rfl

/-- Table 2: the capability table, the bay status and the command slot. -/
theorem read_bay (h : Runs s (.read t) p) :
    let n := p.context
    let c := s.cap n
    let x := s.status n
    let y := s.slot n
    let own (b : Bool) : Word32 := if n = 8 then absentValue else flagValue b
    let flight (g : Flight → Nat) : Word32 := optNat (y.state.flight.map g)
    Gives s t 2 0 (optNat c.addr) ∧ Gives s t 2 1 (flagValue c.inService) ∧ Gives s t 2 2 (own c.recloseCap) ∧
    Gives s t 2 3 (own c.sefCap) ∧ Gives s t 2 4 (own c.hasLocal) ∧ Gives s t 2 5 (own c.hasInterlock) ∧
    Gives s t 2 6 (own c.hasSpring) ∧
    Gives s t 2 16 (value x.position.code) ∧ Gives s t 2 17 (flagValue x.localMode) ∧ Gives s t 2 18 (flagValue x.interlock) ∧
    Gives s t 2 19 (flagValue x.spring) ∧ Gives s t 2 20 (value x.reported.code) ∧ Gives s t 2 21 (value x.indicator.code) ∧
    Gives s t 2 22 (flagValue x.presence) ∧
    Gives s t 2 32 (value y.state.code) ∧ Gives s t 2 33 (value y.kindCode) ∧ Gives s t 2 34 (flight (fun f => f.tag)) ∧
    Gives s t 2 35 (flight (fun f => f.cls.code)) ∧ Gives s t 2 36 (flight (fun f => f.cmd.argCode)) ∧
    Gives s t 2 37 (flight (fun f => if f.tripAttached then 1 else 0)) ∧ Gives s t 2 38 (value y.lastTag) ∧
    (y.lastResult = none → Gives s t 2 39 0 ∧ Gives s t 2 40 absentValue ∧ Gives s t 2 41 absentValue ∧
      Gives s t 2 42 absentValue) ∧
    (∀ r, y.lastResult = some r →
      Gives s t 2 39 (value (r.outcome.code * 65536 + r.cls.code * 256 + r.cmd.kindCode)) ∧ Gives s t 2 40 (optNat r.tag) ∧
      (∀ q, r.outcome = .refusedAtRequest q → Gives s t 2 41 (value q.code)) ∧
      ((∀ q, r.outcome ≠ .refusedAtRequest q) → Gives s t 2 41 absentValue) ∧ Gives s t 2 42 r.time) ∧
    ∀ k, (7 ≤ k ∧ k < 16) ∨ (23 ≤ k ∧ k < 32) ∨ 43 ≤ k → Refuses s t 2 k := by
  refine ⟨?_, ?_, ?_, ?_, ?_, ?_, ?_, ?_, ?_, ?_, ?_, ?_, ?_, ?_, ?_, ?_, listed h fun a ha => ?tag,
    listed h fun a ha => ?cls,
    listed h fun a ha => ?arg, listed h fun a ha => ?trip, ?_, fun hr => ?noResult, fun r hr => ?result,
    fun k hk => unlisted h fun a ha => ?unlisted⟩
  case tag => rewrite [State.readTable, State.readBay, ha]; exact congrArg some (optValue_map _ _)
  case cls => rewrite [State.readTable, State.readBay, ha]; exact congrArg some (optValue_map _ _)
  case arg => rewrite [State.readTable, State.readBay, ha]; exact congrArg some (optValue_map _ _)
  case trip =>
    rewrite [State.readTable, State.readBay, ha]
    simp only [State.readSlot, flagValue_eq]
    exact congrArg some (optValue_map _ _)
  case noResult =>
    refine ⟨?_, ?_, ?_, ?_⟩
    all_goals
      refine listed h fun a ha => ?_
      rewrite [State.readTable, State.readBay, ha]
      dsimp only [State.readSlot, Slot.resultCode]
      rewrite [hr]
      rfl
  case result =>
    refine ⟨?_, ?_, fun q hq => ?_, fun hq => ?_, ?_⟩
    all_goals
      refine listed h fun a ha => ?_
      rewrite [State.readTable, State.readBay, ha]
      dsimp only [State.readSlot, Slot.resultCode]
      rewrite [hr]
    case refine_3 => 
      dsimp only [Option.bind]
      rewrite [hq]
      rfl
    case refine_4 =>
      dsimp only [Option.bind]
      rewrite [refusal_none hq]
      rfl
    all_goals rfl
  case unlisted =>
    have hrest : ¬ k ≤ 6 := by omega
    change s.readBay _ a = none
    unfold State.readBay
    rw [ha]
    split
    case h_8 =>
      unfold State.readSlot
      rw [if_neg hrest]
      split
      case h_12 => rfl
      all_goals omega
    all_goals omega
  all_goals
    refine listed h fun a ha => ?_
    rewrite [State.readTable, State.readBay, ha]
    rfl

/-- Table 3: the setting groups. -/
theorem read_groups (h : Runs s (.read t) p) :
    let n := p.context
    (∀ g : GroupNo, let x := s.pru.groups.look g
      (∀ (b : Bay) (i : Fin 25), n = bayRec b → Gives s t 3 (g.val * 32 + i.val) (optNat ((x.bays.look b).look i))) ∧
      (∀ i : Fin 4, n = 8 → Gives s t 3 (g.val * 32 + i.val) (optNat (x.station.look i))) ∧
      Gives s t 3 (g.val * 32 + 30) (failureValue (groupFailure s.pru x)) ∧
      Gives s t 3 (g.val * 32 + 31) (flagValue (s.groupValid g))) ∧
    ∀ k, 192 ≤ k ∨ (25 ≤ k % 32 ∧ k % 32 < 30) ∨ (n = 8 ∧ 4 ≤ k % 32 ∧ k % 32 < 30) → Refuses s t 3 k := by
  refine ⟨fun g => ⟨fun b i hb => listedIn h (m := 32) g i.val (by omega) fun a _ hg hj => ?_,
    fun i hn => listedIn h (m := 32) g i.val (by omega) fun a _ hg hj => ?_, listedIn h (m := 32) g 30 (by decide) ?_,
    listedIn h (m := 32) g 31 (by decide) ?_⟩, fun k hk => unlisted h fun a ha => ?_⟩
  case refine_1 =>
    rewrite [State.readTable, State.readGroup, hg, hb, recBay_bayRec]
    dsimp only [Option.bind]
    rewrite [hj]
    split
    · omega
    · omega
    · rewrite [index?_eq_some rfl]
      rfl
  case refine_2 =>
    rewrite [State.readTable, State.readGroup, hg, hn]
    dsimp only [Option.bind]
    rewrite [hj]
    split
    · omega
    · omega
    · rewrite [index?_eq_some rfl]
      rfl
  case refine_5 =>
    change s.readGroup a _ = none
    unfold State.readGroup addrIndex addrField
    rw [ha]
    split
    · dsimp only [Option.bind]
      split
      case h_3 =>
        have hbound := a.isLt
        split
        · next hb =>
          have hn : p.context ≠ 8 := fun e => by rw [e] at hb; exact nomatch hb
          have hfield : 25 ≤ k % 32 := by
            rcases hk with hk | hk | ⟨hn8, -⟩
            · omega
            · omega
            · exact absurd hn8 hn
          rw [index?_eq_none hfield]
          rfl
        · rw [index?_eq_none (by omega)]
          rfl
      all_goals omega
    · rfl
  all_goals
    intro a _ hg hj
    rewrite [State.readTable, State.readGroup, hg]
    dsimp only [Option.bind]
    rewrite [hj]
    rfl

/-- Table 4: the points of the curves. -/
theorem read_points (h : Runs s (.read t) p) :
    ∀ (c : CurveNo) (i : Fin 16), Gives s t 4 (c.val * 32 + i.val) (optNat ((s.pru.curves.look c).m.look i)) ∧
      Gives s t 4 (c.val * 32 + 16 + i.val) (optNat ((s.pru.curves.look c).inc.look i)) := by
  refine fun c i => ⟨listed h fun a ha => ?_, listed h fun a ha => ?_⟩
  · have hslot : slotOf a = i := Fin.ext (by show a.toNat % 16 = i.val; omega)
    rewrite [State.readTable, State.readPoint, curveOf_addr (c := c) ha (by omega), hslot,
      addrField_of (e := c.val) ha (by omega), if_pos i.isLt]
    rfl
  · have hslot : slotOf a = i := Fin.ext (by show a.toNat % 16 = i.val; omega)
    have hfield : addrField a 32 = 16 + i.val := by show a.toNat % 32 = _; omega
    rewrite [State.readTable, State.readPoint, curveOf_addr (c := c) (k := 16 + i.val) (by omega) (by omega), hslot, hfield,
      if_neg (by omega)]
    rfl

/-- Table 5: the curves. -/
theorem read_curves (h : Runs s (.read t) p) :
    (∀ c : CurveNo, let x := s.pru.curves.look c
      Gives s t 5 (c.val * 32) (optNat x.count) ∧ Gives s t 5 (c.val * 32 + 1) (flagValue x.valid) ∧
      Gives s t 5 (c.val * 32 + 2) (failureValue x.failure) ∧ Gives s t 5 (c.val * 32 + 3) (flagValue (s.curveInUse c))) ∧
    ∀ k, 4 ≤ k % 32 → Refuses s t 5 k := by
  refine ⟨fun c => ⟨listed h fun a ha => ?_, listed h fun a ha => ?_, listed h fun a ha => ?_, listed h fun a ha => ?_⟩,
    fun k hk => unlisted h fun a ha => ?_⟩
  case refine_1 =>
    rewrite [State.readTable, State.readCurve, curveOf_addr (c := c) (k := 0) ha (by decide),
      addrField_of (k := 0) (e := c.val) ha (by decide)]
    rfl
  case refine_5 =>
    change s.readCurve a = none
    unfold State.readCurve addrField
    dsimp only
    rw [ha]
    split
    case h_5 => rfl
    all_goals omega
  all_goals
    rewrite [State.readTable, State.readCurve, curveOf_addr (c := c) ha (by decide), addrField_of (e := c.val) ha (by decide)]
    rfl

/-- Table 6: the elements and the reclose record of a bay. -/
theorem read_protection (h : Runs s (.read t) p) :
    let n := p.context
    (∀ b : Bay, n = bayRec b → let x := s.elem b
      let r := s.rcl b
      Gives s t 6 0 (value x.ptoc) ∧ Gives s t 6 1 (value x.etoc) ∧ Gives s t 6 2 (value x.phi) ∧
        Gives s t 6 3 (value x.sef) ∧
      Gives s t 6 4 (value (latchValue x.latch)) ∧ Gives s t 6 5 (value (s.dir b).code) ∧
      Gives s t 6 16 (value r.state.code) ∧ Gives s t 6 17 (value r.shots) ∧ Gives s t 6 18 (value r.state.phaseCode) ∧
      Gives s t 6 19 (value r.state.causeCode) ∧ Gives s t 6 20 (value r.block.code) ∧
      Gives s t 6 21 (value (definiteCode r.lastDefinite)) ∧ Gives s t 6 22 (value (timerValue r.deadTimer)) ∧
      Gives s t 6 23 (value (timerValue r.springTimer)) ∧ Gives s t 6 24 (value r.reclaimTimer.left) ∧
      ∀ k, (6 ≤ k ∧ k < 16) ∨ 25 ≤ k → Refuses s t 6 k) ∧
    (n = 8 → ∀ k, Refuses s t 6 k) := by
  refine ⟨fun b hb => ⟨?_, ?_, ?_, ?_, ?_, ?_, ?_, ?_, ?_, ?_, ?_, ?_, ?_, ?_, ?_, fun k hk => unlisted h fun a ha => ?_⟩,
    fun hn k => unlisted h fun a _ => ?_⟩
  case refine_16 =>
    rewrite [State.readTable, State.readProtection, hb, recBay_bayRec]
    dsimp only [Option.bind]
    rewrite [ha]
    split
    case h_7 =>
      unfold State.readReclose
      dsimp only
      split
      case h_10 => rfl
      all_goals omega
    all_goals omega
  case refine_17 =>
    rewrite [State.readTable, State.readProtection, hn]
    rfl
  all_goals
    refine listed h fun a ha => ?_
    rewrite [State.readTable, State.readProtection, hb, recBay_bayRec]
    dsimp only [Option.bind]
    rewrite [ha]
    rfl

/-- Table 7: the fire regime. -/
theorem read_fire (h : Runs s (.read t) p) :
    Gives s t 7 0 (value s.fru.commanded.val) ∧ Gives s t 7 1 (value s.fru.pinLevel.val) ∧
    Gives s t 7 2 (value s.fru.effective.val) ∧ Gives s t 7 3 (flagValue s.fru.seasonLock) ∧
      Gives s t 7 4 (value s.activeNo.val) ∧
    Gives s t 7 5 (value s.fru.stack.length) ∧
    (∀ k, k < 4 → (∀ e, s.fru.stack[k]? = some e → Gives s t 7 (8 + k) (value (e.origin.code * 256 + e.group.val)) ∧
        Gives s t 7 (12 + k) e.placed) ∧
      (s.fru.stack.length ≤ k → Gives s t 7 (8 + k) 0 ∧ Gives s t 7 (12 + k) 0)) ∧
    (∀ g : GroupNo, Gives s t 7 (16 + g.val) (flagValue (s.groupInUse g))) ∧
    ∀ k, k = 6 ∨ k = 7 ∨ 22 ≤ k → Refuses s t 7 k := by
  refine ⟨?_, ?_, ?_, ?_, ?_, ?_, fun k hk => ⟨fun e he => ⟨?_, ?_⟩, fun hlen => ⟨?_, ?_⟩⟩, fun g => listed h fun a ha => ?_,
    fun k hk => unlisted h fun a ha => ?_⟩
  case refine_7 => exact listed h fun a ha => (readFire_entry ha hk).trans (congrArg some (entryValue_held he))
  case refine_8 => exact listed h fun a ha => (readFire_time ha hk).trans (congrArg some (entryTime_held he))
  case refine_9 => exact listed h fun a ha => (readFire_entry ha hk).trans (congrArg some (entry_above hlen).1)
  case refine_10 => exact listed h fun a ha => (readFire_time ha hk).trans (congrArg some (entry_above hlen).2)
  case refine_11 => exact readFire_group ha
  case refine_12 =>
    have hentry : inRange 8 11 k = false := inRange_outside (by omega)
    have htime : inRange 12 15 k = false := inRange_outside (by omega)
    have hgroup : 16 ≤ k → 6 ≤ k - 16 := by omega
    change s.readFire a = none
    unfold State.readFire
    rw [ha]
    split
    case h_7 =>
      rw [hentry, htime, if_neg Bool.false_ne_true, if_neg Bool.false_ne_true]
      split
      · next hk16 =>
        rw [index?_eq_none (hgroup hk16)]
        rfl
      · rfl
    all_goals omega
  all_goals exact listed h fun a ha => by rewrite [State.readTable, State.readFire, ha]; rfl

/-- Table 8: the fire map. -/
theorem read_fireMap (h : Runs s (.read t) p) :
    (∀ l : Level, let x := s.fru.fireMap.look l
      let a := l.val * 32
      Gives s t 8 a (noneFin x.group) ∧ Gives s t 8 (a + 1) (value x.mask.toNat) ∧ Gives s t 8 (a + 2) (value x.shotCap) ∧
      Gives s t 8 (a + 3) (flagValue x.fastAll) ∧ Gives s t 8 (a + 4) (value x.sefCap)) ∧
    ∀ k, 160 ≤ k ∨ 5 ≤ k % 32 → Refuses s t 8 k := by
  refine ⟨fun l => ⟨listedIn h (m := 32) l 0 (by decide) ?_, listedIn h (m := 32) l 1 (by decide) ?_,
    listedIn h (m := 32) l 2 (by decide) ?_, listedIn h (m := 32) l 3 (by decide) ?_,
    listedIn h (m := 32) l 4 (by decide) ?_⟩, fun k hk => unlisted h fun a ha => ?_⟩
  case refine_6 =>
    change s.readFireMap a = none
    unfold State.readFireMap addrIndex addrField
    rw [ha]
    split
    · dsimp only [Option.bind]
      split
      case h_6 => rfl
      all_goals omega
    · rfl
  all_goals
    intro a _ hl hj
    rewrite [State.readTable, State.readFireMap, hl, hj]
    rfl

/-- Table 9: the NVD element. -/
theorem read_nvd (h : Runs s (.read t) p) :
    Gives s t 9 0 (value s.efu.nvd.state.code) ∧ Gives s t 9 1 (value s.efu.nvd.timing) ∧
    Gives s t 9 2 (value s.efu.nvd.confirm) ∧ ∀ k, 3 ≤ k → Refuses s t 9 k := by
  refine ⟨?_, ?_, ?_, fun k hk => unlisted h fun a ha => ?_⟩
  case refine_4 =>
    change s.readNvd a = none
    unfold State.readNvd
    rw [ha]
    split
    case h_4 => rfl
    all_goals omega
  all_goals
    refine listed h fun a ha => ?_
    rewrite [State.readTable, State.readNvd, ha]
    rfl

/-- Table 10: the hunt table. -/
theorem read_huntTable (h : Runs s (.read t) p) :
    let x := s.hnc.table
    Gives s t 10 0 (flagValue x.enable) ∧ Gives s t 10 1 (noneFin x.group) ∧ Gives s t 10 2 (value x.startDelay) ∧
    Gives s t 10 3 (value x.retestDelay) ∧ Gives s t 10 4 (value x.fireLimit) ∧
    (∀ k : Fin 8, Gives s t 10 (16 + 2 * k.val) (noneFin (x.plan.look k).bay) ∧
      Gives s t 10 (17 + 2 * k.val) (value (x.plan.look k).dwell)) ∧
    ∀ k, (5 ≤ k ∧ k < 16) ∨ 32 ≤ k → Refuses s t 10 k := by
  refine ⟨?_, ?_, ?_, ?_, ?_, fun k => ⟨listed h fun a ha => ?_, listed h fun a ha => ?_⟩,
    fun k hk => unlisted h fun a ha => ?_⟩
  case refine_6 =>
    obtain ⟨hbay, hk, hlow⟩ := planBay_addr ha
    change s.readHuntTable a = _
    unfold State.readHuntTable
    dsimp only
    split
    case h_6 =>
      rw [hbay, hk]
      rfl
    all_goals omega
  case refine_7 =>
    obtain ⟨hbay, hin, hk, hlow⟩ := planDwell_addr (k := k) (addr := a) (by omega)
    change s.readHuntTable a = _
    unfold State.readHuntTable
    dsimp only
    split
    case h_6 =>
      rw [hbay, hin, hk]
      rfl
    all_goals omega
  case refine_8 =>
    have hout : inRange 16 31 k = false := inRange_outside (by omega)
    change s.readHuntTable a = none
    unfold State.readHuntTable isPlanBay
    dsimp only
    rw [ha]
    split
    case h_6 =>
      rw [hout]
      rfl
    all_goals omega
  all_goals
    refine listed h fun a ha => ?_
    rewrite [State.readTable, State.readHuntTable, ha]
    rfl

/-- Table 11: the hunt and its candidates. -/
theorem read_hunt (h : Runs s (.read t) p) :
    let x := s.hnc
    Gives s t 11 0 (value x.state.code) ∧ Gives s t 11 1 (value (timerValue x.timer)) ∧ Gives s t 11 2 (optFin x.current) ∧
    Gives s t 11 3 (optFin x.bayOpen) ∧ Gives s t 11 4 (flagValue x.rearm) ∧ Gives s t 11 5 (flagValue x.restoreOut) ∧
    (x.last = none → Gives s t 11 6 0 ∧ Gives s t 11 7 absentValue ∧ Gives s t 11 8 absentValue ∧
      Gives s t 11 9 absentValue) ∧
    (∀ l, x.last = some l → Gives s t 11 6 (value l.result.code) ∧ Gives s t 11 7 (optFin l.bay) ∧
      Gives s t 11 8 l.started ∧ Gives s t 11 9 l.ended) ∧
    (∀ k, k < 8 → (∀ c, x.cands[k]? = some c → Gives s t 11 (64 + 4 * k) (noneFin c.bay) ∧
        Gives s t 11 (65 + 4 * k) (value c.dwell) ∧ Gives s t 11 (66 + 4 * k) (optNat (c.snapshot.map Direction.code)) ∧
        Gives s t 11 (67 + 4 * k) (value c.outcome.code)) ∧
      (x.cands.length ≤ k → ∀ j, j < 4 → Gives s t 11 (64 + 4 * k + j) absentValue)) ∧
    ∀ k, (10 ≤ k ∧ k < 64) ∨ 96 ≤ k → Refuses s t 11 k := by
  refine ⟨?_, ?_, ?_, ?_, ?_, ?_, fun hl => ⟨?_, ?_, ?_, ?_⟩, fun l hl => ⟨?_, ?_, ?_, ?_⟩,
    fun k hk => ⟨fun c hc => ⟨?_, ?_, ?_, ?_⟩, fun hlen j hj => ?_⟩, fun k hk => unlisted h fun a ha => ?_⟩
  case refine_20 =>
    have hout : inRange 64 95 k = false := inRange_outside (by omega)
    change s.readHunt a = none
    unfold State.readHunt
    dsimp only
    rw [ha]
    split
    case h_11 =>
      rw [hout]
      rfl
    all_goals omega
  case refine_19 => exact listed h fun a ha => (readHunt_candidate ha hk hj).trans (congrArg some (readCandidate_absent hlen))
  case refine_15 =>
    exact listed h fun a ha => (readHunt_candidate (j := 0) ha hk (by decide)).trans
      (congrArg some (readCandidate_held hc 0))
  case refine_16 =>
    exact listed h fun a ha => (readHunt_candidate (j := 1) (by omega) hk (by decide)).trans
      (congrArg some (readCandidate_held hc 1))
  case refine_17 =>
    exact listed h fun a ha => (readHunt_candidate (j := 2) (by omega) hk (by decide)).trans
      (congrArg some (readCandidate_held hc 2))
  case refine_18 =>
    exact listed h fun a ha => (readHunt_candidate (j := 3) (by omega) hk (by decide)).trans
      (congrArg some (readCandidate_held hc 3))
  case refine_7 | refine_8 | refine_9 | refine_10 | refine_11 | refine_12 | refine_13 | refine_14 =>
    refine listed h fun a ha => ?_
    rewrite [State.readTable, State.readHunt, ha, hl]
    rfl
  all_goals
    refine listed h fun a ha => ?_
    rewrite [State.readTable, State.readHunt, ha]
    rfl

/-- Table 12: the segments. -/
theorem read_segments (h : Runs s (.read t) p) :
    (∀ i : SegIx, let x := s.recd.segments.look i
      Gives s t 12 (i.val * 8) (noneFin x.bay) ∧ Gives s t 12 (i.val * 8 + 1) (intValue x.xLow) ∧
      Gives s t 12 (i.val * 8 + 2) (intValue x.xHigh) ∧ Gives s t 12 (i.val * 8 + 3) (value x.segLabel)) ∧
    ∀ k, 4 ≤ k % 8 → Refuses s t 12 k := by
  refine ⟨fun i => ⟨listed h fun a ha => ?_, listed h fun a ha => ?_, listed h fun a ha => ?_, listed h fun a ha => ?_⟩,
    fun k hk => unlisted h fun a ha => ?_⟩
  case refine_1 =>
    rewrite [State.readTable, State.readSegment, segIndex_addr (i := i) (k := 0) ha (by decide),
      addrField_of (k := 0) (e := i.val) ha (by decide)]
    rfl
  case refine_5 =>
    change s.readSegment a = none
    unfold State.readSegment addrField
    dsimp only
    rw [ha]
    split
    case h_5 => rfl
    all_goals omega
  all_goals
    rewrite [State.readTable, State.readSegment, segIndex_addr (i := i) ha (by decide),
      addrField_of (e := i.val) ha (by decide)]
    rfl

/-- Table 13: the capture channels. -/
theorem read_channels (h : Runs s (.read t) p) :
    (∀ i : Chan, let x := s.chan i
      let a := i.val * 16
      Gives s t 13 a (value x.trigger.val) ∧ Gives s t 13 (a + 1) (value x.bay.val) ∧ Gives s t 13 (a + 2) (value x.pre) ∧
      Gives s t 13 (a + 3) (value x.length) ∧ Gives s t 13 (a + 4) (flagValue x.reportAtEnd) ∧
      Gives s t 13 (a + 8) (value x.state.code) ∧ Gives s t 13 (a + 9) (value x.rows.length) ∧
      Gives s t 13 (a + 10) (value x.target) ∧ Gives s t 13 (a + 11) (flagValue x.truncated) ∧
      Gives s t 13 (a + 12) (optFin x.holding) ∧ Gives s t 13 (a + 13) (flagValue (s.reading i))) ∧
    ∀ k, 64 ≤ k ∨ (5 ≤ k % 16 ∧ k % 16 < 8) ∨ 14 ≤ k % 16 → Refuses s t 13 k := by
  refine ⟨fun i => ⟨listedIn h (m := 16) i 0 (by decide) ?_, listedIn h (m := 16) i 1 (by decide) ?_,
    listedIn h (m := 16) i 2 (by decide) ?_, listedIn h (m := 16) i 3 (by decide) ?_,
    listedIn h (m := 16) i 4 (by decide) ?_, listedIn h (m := 16) i 8 (by decide) ?_,
    listedIn h (m := 16) i 9 (by decide) ?_, listedIn h (m := 16) i 10 (by decide) ?_,
    listedIn h (m := 16) i 11 (by decide) ?_, listedIn h (m := 16) i 12 (by decide) ?_,
    listedIn h (m := 16) i 13 (by decide) ?_⟩, fun k hk => unlisted h fun a ha => ?_⟩
  case refine_12 =>
    change s.readChannel a = none
    unfold State.readChannel addrIndex addrField
    rw [ha]
    split
    · dsimp only [Option.bind]
      split
      case h_12 => rfl
      all_goals omega
    · rfl
  all_goals
    intro a _ hi hj
    rewrite [State.readTable, State.readChannel, hi, hj]
    rfl

/-- Tables 14 and 15: the factors and their configuration. -/
theorem read_events (h : Runs s (.read t) p) :
    (∀ f : Factor, let x := s.fac f
      let a := f.val * 8
      Gives s t 14 a (flagValue x.flag) ∧ Gives s t 14 (a + 1) (flagValue x.reported) ∧
        Gives s t 14 (a + 2) (flagValue x.held) ∧
      Gives s t 14 (a + 3) (value x.count) ∧ Gives s t 14 (a + 4) (value x.mask.toNat) ∧
      Gives s t 14 (a + 5) (value x.capMask.toNat) ∧ Gives s t 14 (a + 6) (optValue x.firstTime) ∧
      (x.lastDetail = none → Gives s t 14 (a + 7) absentValue) ∧
      (∀ b0 b1 b2 b3 rest, x.lastDetail = some (b0 :: b1 :: b2 :: b3 :: rest) → Gives s t 14 (a + 7) (word32 b0 b1 b2 b3)) ∧
      Gives s t 15 a (flagValue x.enable) ∧ Gives s t 15 (a + 1) (value x.level) ∧
        Gives s t 15 (a + 2) (flagValue (s.eligible f))) ∧
    ∀ k, (192 ≤ k → Refuses s t 14 k) ∧ (192 ≤ k ∨ 3 ≤ k % 8 → Refuses s t 15 k) := by
  refine ⟨fun f => ⟨listedIn h (m := 8) f 0 (by decide) ?_, listedIn h (m := 8) f 1 (by decide) ?_,
    listedIn h (m := 8) f 2 (by decide) ?_, listedIn h (m := 8) f 3 (by decide) ?_, listedIn h (m := 8) f 4 (by decide) ?_,
    listedIn h (m := 8) f 5 (by decide) ?_, listedIn h (m := 8) f 6 (by decide) ?_,
    fun hnone => listedIn h (m := 8) f 7 (by decide) ?_,
    fun b0 b1 b2 b3 rest hd => listedIn h (m := 8) f 7 (by decide) ?_, listedIn h (m := 8) f 0 (by decide) ?_,
    listedIn h (m := 8) f 1 (by decide) ?_, listedIn h (m := 8) f 2 (by decide) ?_⟩,
    fun k => ⟨fun hk => unlisted h fun a ha => ?_, fun hk => unlisted h fun a ha => ?_⟩⟩
  case refine_13 =>
    change s.readEvent a = none
    unfold State.readEvent addrIndex addrField
    rw [ha, dif_neg (by omega)]
    rfl
  case refine_14 =>
    change s.readEventConfig a = none
    unfold State.readEventConfig addrIndex addrField
    rw [ha]
    split
    · dsimp only [Option.bind]
      split
      case h_4 => rfl
      all_goals omega
    · rfl
  case refine_8 =>
    intro a _ hf hj
    rewrite [State.readTable, State.readEvent, hf, hj]
    dsimp only [Option.bind]
    rewrite [hnone]
    rfl
  case refine_9 =>
    intro a _ hf hj
    rewrite [State.readTable, State.readEvent, hf, hj]
    dsimp only [Option.bind]
    rewrite [hd]
    rfl
  case refine_10 | refine_11 | refine_12 =>
    intro a _ hf hj
    change s.readEventConfig a = _
    rewrite [State.readEventConfig, hf, hj]
    rfl
  all_goals
    intro a _ hf hj
    rewrite [State.readTable, State.readEvent, hf, hj]
    rfl

end tables

end Sys2Proof.Proofs.TableReads

/-! READ, READ_STATUS and READ_RECORDS (R155, R186, R191): the words of the three sections, and the newest records in order. -/

namespace Sys2Proof.Proofs.ReadOps
open Sys2Proof.Machine Sys2Proof.Safety Sys2Proof.Proofs.TableReads Sys2Proof.Proofs.CaptureOps Sys2Proof.Proofs.BreakerFail

section status
variable {s : State} {v : Word32} {p : Progress} {imm : BitVec 12} {l : List Word32} {n : Nat}

theorem status_words (h : Runs s (.readStatus imm) p) (hl : s.statusSection (valueOf p imm).toNat = some l) :
    exec (.readStatus imm) s = .next ((consumed s p).opDone
      { code := .ok, value := BitVec.ofNat 32 l.length, block := some (l.flatMap bytes32) }) :=
  exec_of_runImm rfl h (by
    have hsection : (consumed s p).statusSection (valueOf p imm).toNat = some l := hl
    unfold State.opReadStatus
    rw [hsection]
    rfl)

theorem status_refused (h : Runs s (.readStatus imm) p) (hv : 2 < (valueOf p imm).toNat) :
    exec (.readStatus imm) s = .next ((consumed s p).opDone (refuse .badArg)) :=
  exec_of_runImm rfl h (by
    have hsection : (consumed s p).statusSection (valueOf p imm).toNat = none := by
      unfold State.statusSection
      split
      case h_4 => rfl
      all_goals omega
    unfold State.opReadStatus
    rw [hsection])

theorem length_flatMap_bytes32 (l : List Word32) : (l.flatMap bytes32).length = 4 * l.length := by
  induction l with
  | nil => rfl
  | cons w l ih => rw [List.flatMap_cons, List.length_append, ih, List.length_cons, Nat.mul_succ, Nat.add_comm]; rfl

theorem statusBays_length (s : State) : s.statusBays.length = 118 := rfl

theorem statusStreams_length (s : State) : s.statusStreams.length = 40 := rfl

theorem entryValue_eq (s : State) (k : Nat) :
    s.entryValue k = value ((s.fru.stack[k]?.map (fun e => e.origin.code * 256 + e.group.val)).getD 0) := by
  unfold State.entryValue
  cases s.fru.stack[k]? <;> rfl

theorem resultCode_eq (x : Slot) : x.resultCode =
    (x.lastResult.map (fun r => r.outcome.code * 65536 + r.cls.code * 256 + r.cmd.kindCode)).getD 0 := by
  unfold Slot.resultCode
  cases x.lastResult <;> rfl

end status

/-! ### The newest records (R155) -/

section records
variable {s : State} {n : Nat}

/-- The record k places before the top index. -/
def recordBack (s : State) (k : Nat) : Option FaultRecord := s.recd.ring.look (s.recd.top - Fin.ofNat 16 k)

theorem recordsFrom_eq (ring : Vector (Option FaultRecord) 16) (n : Nat) (i : Fin 16) :
    recordsFrom ring n i = (List.range n).filterMap (fun k => ring.look (i - Fin.ofNat 16 k)) := by
  induction n generalizing i with
  | zero => rfl
  | succ n ih =>
    have hback (k : Nat) : i - Fin.ofNat 16 (k + 1) = i - 1 - Fin.ofNat 16 k := by
      apply Fin.ext
      simp only [Fin.sub_def, Fin.ofNat, Fin.val_one]
      omega
    have hfirst : i - Fin.ofNat 16 0 = i := by
      apply Fin.ext
      simp only [Fin.sub_def, Fin.ofNat]
      omega
    rw [recordsFrom, ih, List.range_succ_eq_map, List.filterMap_cons, List.filterMap_map, hfirst]
    simp only [Function.comp_def, hback]
    cases ring.look i <;> rfl

theorem map_some_filterMap {α β : Type} {f : α → Option β} {l : List α} (h : ∀ x ∈ l, f x ≠ none) :
    (l.filterMap f).map some = l.map f := by
  induction l with
  | nil => rfl
  | cons x l ih =>
    obtain ⟨y, hy⟩ := Option.ne_none_iff_exists'.mp (h x List.mem_cons_self)
    rw [List.filterMap_cons_some hy, List.map_cons, List.map_cons, ih fun z hz => h z (List.mem_cons_of_mem _ hz), hy]

theorem newest_total {m : Nat} {back : Nat → Option FaultRecord} (h : ∀ k, k < m → back k ≠ none) :
    ((List.range m).filterMap back).length = m ∧ ∀ k, k < m → ((List.range m).filterMap back)[k]? = back k := by
  have hmap := map_some_filterMap (l := List.range m) fun k hk => h k (List.mem_range.mp hk)
  refine ⟨?_, fun k hk => ?_⟩
  · simpa using congrArg List.length hmap
  · have hget := congrArg (·[k]?) hmap
    obtain ⟨r, hr, hback⟩ : ∃ r, ((List.range m).filterMap back)[k]? = some r ∧ some r = back k := by simpa [hk] using hget
    exact hr.trans hback

theorem newestRecords_eq (s : State) (n : Nat) :
    s.newestRecords n = (List.range (min n s.recd.count)).filterMap (recordBack s) :=
  recordsFrom_eq _ _ _

theorem records_refused {v : Word32} (h : v.toNat = 0 ∨ 16 < v.toNat) (c : Rec) :
    State.opReadRecords v c s = (s, refuse .badArg) := if_pos h

theorem records_newest {v : Word32} (h : 1 ≤ v.toNat) (h16 : v.toNat ≤ 16) (c : Rec) :
    State.opReadRecords v c s = (s,
      { code := .ok, value := value (s.newestRecords v.toNat).length,
        block := some ((s.newestRecords v.toNat).flatMap FaultRecord.bytes) }) :=
  if_neg (show ¬ (v.toNat = 0 ∨ 16 < v.toNat) by omega)

theorem records_bytes (r : FaultRecord) : r.bytes.length = 31 := rfl

end records

/-- Settles O21: READ by the lemmas of each table, READ_STATUS by its section, READ_RECORDS by the walk back from the top. -/
theorem readsAnswer : Obligations.ReadsAnswer := by
  refine ⟨fun s p t h => ⟨fun ht => ?_, fun ht => ?_, fun ht => ?_, fun ht hnone => ?_, fun ht a ha => ?_, fun ht => ?_, ?answers⟩,
    fun s p t h => ⟨read_station h, read_sources h, read_bay h, read_groups h, read_points h, read_curves h, read_protection h,
      read_fire h, read_fireMap h, read_nvd h, read_huntTable h, read_hunt h, read_segments h, read_channels h, read_events h⟩,
    fun s p imm h => ?status, fun s p imm h => ⟨fun hbad => ?_, fun hlow hhigh => ?_, fun hlow hhigh hempty => ?_⟩, records_bytes⟩
  case answers =>
    cases hv : s.readTarget t p.context with
    | none => exact ⟨_, rfl, read_refused h hv⟩
    | some v => exact ⟨_, rfl, read_value h hv⟩
  case status =>
    have hwords {l : List Word32} := status_words (l := l) h
    have hanswers {l : List Word32} (hl : s.statusSection (valueOf p imm).toNat = some l) : ∃ bytes : List Byte,
        bytes.length = 4 * l.length ∧ exec (.readStatus imm) s = .next ((consumed s p).opDone
          { code := .ok, value := BitVec.ofNat 32 l.length, block := some bytes }) :=
      ⟨_, length_flatMap_bytes32 l, hwords hl⟩
    have hsection {n : Nat} (hv : (valueOf p imm).toNat = n) : s.statusSection (valueOf p imm).toNat = s.statusSection n :=
      congrArg s.statusSection hv
    refine ⟨fun hv => hanswers (hsection hv), fun hv => hanswers (hsection hv), fun hv => hanswers (hsection hv),
      fun hv => hwords ((hsection hv).trans ?_), fun hv => hwords ((hsection hv).trans ?_),
      fun hv => hwords (hsection hv), status_refused h⟩
    · have hbay : optFin (s.hnc.last.bind (fun l => l.bay)) = optNat (s.hnc.last.bind (fun l => l.bay.map Fin.val)) :=
        congrArg optNat Option.map_bind
      unfold State.statusSection State.statusStation
      simp only [entryValue_eq, hbay]
      rfl
    · unfold State.statusSection State.statusBays State.statusRecord
      simp only [resultCode_eq]
      rfl
  case refine_1 | refine_2 | refine_3 =>
    subst ht
    exact read_value h rfl
  case refine_4 =>
    subst ht
    exact read_value h (congrArg (fun a => some (optNat a)) hnone)
  case refine_5 =>
    subst ht
    exact read_value h (congrArg (fun a => some (optNat a)) ha)
  case refine_6 =>
    subst ht
    exact read_refused h rfl
  case refine_7 => exact exec_of_runImm rfl h (records_refused hbad _)
  case refine_8 =>
    have hbody := records_newest (s := consumed s p) hlow hhigh p.context
    rw [newestRecords_eq] at hbody
    refine ⟨_, rfl, ?_, newest_total, exec_of_runImm rfl h hbody⟩
    exact (List.length_filterMap_le _ _).trans (le_of_eq List.length_range)
  case refine_9 =>
    have hbody := records_newest (s := consumed s p) hlow hhigh p.context
    rw [newestRecords_eq, show (consumed s p).recd.count = 0 from hempty, Nat.min_zero] at hbody
    exact exec_of_runImm rfl h hbody

end Sys2Proof.Proofs.ReadOps

/-! A change of the NVD element at the hunt controller (R123), one equation for each state of the hunt (R128, R129, R135, R137 to
R142). -/

namespace Sys2Proof.Proofs.NvdAtHunt
open Sys2Proof.Machine

section change
variable {s : State} {old new : NvdState}

/-- A change into NORMAL sets re-arm, in every state of the hunt (R128). -/
def rearmed (s : State) (new : NvdState) : State :=
  if new == .normal then s.setHnc { s.hnc with rearm := true } else s

theorem rearmed_normal : rearmed s .normal = s.setHnc { s.hnc with rearm := true } := if_pos rfl

theorem rearmed_other (h : new ≠ .normal) : rearmed s new = s := if_neg (by simpa using h)

theorem rearmed_hnc (s : State) (new : NvdState) :
    rearmed s new = s.setHnc (if new = .normal then { s.hnc with rearm := true } else s.hnc) := by
  by_cases h : new = .normal
  · rw [if_pos h, h, rearmed_normal]
  · rw [if_neg h, rearmed_other h]
    rfl

theorem rearmed_state (s : State) (new : NvdState) : (rearmed s new).hnc.state = s.hnc.state := by
  rw [rearmed_hnc]
  show (if new = .normal then { s.hnc with rearm := true } else s.hnc).state = s.hnc.state
  split <;> rfl

theorem mayWait_iff : s.mayWait old new = true ↔ old = .timing ∧ new = .displaced ∧ s.hnc.table.enable = true ∧
    s.mgu.part = .active ∧ s.hnc.state = .idle ∧ s.hnc.rearm = true := by
  simp [State.mayWait, and_assoc]

theorem mayWait_started (h : s.hnc.state ≠ .idle) : (rearmed s new).mayWait old new = false := by
  rw [Bool.eq_false_iff, ne_eq, mayWait_iff, rearmed_state]
  exact fun ⟨_, _, _, _, hidle, _⟩ => h hidle

theorem hncNvd_waits (h : s.mayWait old new = true) : s.hncNvd old new = s.huntTo .waiting (some s.hnc.table.startDelay) := by
  obtain ⟨-, rfl, -⟩ := mayWait_iff.mp h
  exact if_pos h

/-- A change that starts no delay, by the state of the hunt. -/
theorem hncNvd_state {x : HuntState} (hstate : s.hnc.state = x) (hno : (rearmed s new).mayWait old new = false) :
    s.hncNvd old new =
      (match x with
      | .idle => rearmed s new
      | .waiting => if old == .displaced && (new == .normal || new == .unknown) then (rearmed s new).huntToIdle else rearmed s new
      | .aborting => rearmed s new
      | st => if new == .unknown then (rearmed s new).abortRunning .abortedStale
        else
          let cleared := old == .displaced && new == .normal
          match st with
          | .dwell => if cleared then (rearmed s new).huntFind else rearmed s new
          | .opening => if cleared then (rearmed s new).abortRunning .clearedUnattributed else rearmed s new
          | .restoring => if cleared then (rearmed s new).abortRunning .clearedUnattributed else rearmed s new
          | .retestClosing => if cleared then (rearmed s new).abortRunning .clearedUnattributed else rearmed s new
          | .retestDwell => if new == .displaced then (rearmed s new).foundPersistent else rearmed s new
          | _ => rearmed s new) := by
  have hsame := (rearmed_state s new).trans hstate
  have hfold : (if new == .normal then s.setHnc { s.hnc with rearm := true } else s) = rearmed s new := rfl
  unfold State.hncNvd
  dsimp only
  rw [hfold]
  generalize rearmed s new = u at hno hsame ⊢
  rw [hno, hsame]
  cases x <;> rfl

/-- A running hunt, but for one that aborts, is aborted where the element is lost (R142). -/
theorem hncNvd_lost (hrunning : s.hnc.state.running = true) (hfirst : s.hnc.state ≠ .aborting) :
    s.hncNvd old .unknown = s.abortHuntWith .abortedStale := by
  have hidle : s.hnc.state ≠ .idle := fun e => by rw [e] at hrunning; cases hrunning
  have habort : s.abortRunning .abortedStale = s.abortHuntWith .abortedStale := if_pos (by simp [hrunning, hfirst])
  rw [← habort]
  generalize hstate : s.hnc.state = x at hrunning hfirst
  rw [hncNvd_state hstate (mayWait_started hidle)]
  cases x with
  | idle => cases hrunning
  | waiting => cases hrunning
  | aborting => exact absurd rfl hfirst
  | _ => rfl

theorem hncNvd_aborting (hstate : s.hnc.state = .aborting) : s.hncNvd old new = rearmed s new :=
  hncNvd_state hstate (mayWait_started (by rw [hstate]; decide))

theorem hncNvd_waiting (hstate : s.hnc.state = .waiting) : s.hncNvd old new =
    if old == .displaced && (new == .normal || new == .unknown) then (rearmed s new).huntToIdle else rearmed s new :=
  hncNvd_state hstate (mayWait_started (by rw [hstate]; decide))

theorem hncNvd_idle_lost (hstate : s.hnc.state = .idle) : s.hncNvd old .unknown = s := by
  refine (hncNvd_state hstate ?_).trans (rearmed_other nofun)
  rw [Bool.eq_false_iff, ne_eq, mayWait_iff]
  exact fun ⟨_, hnew, _⟩ => nomatch hnew

section present
variable (hnew : new ≠ .unknown)
include hnew

theorem hncNvd_dwell (hstate : s.hnc.state = .dwell) : s.hncNvd old new =
    if old == .displaced && new == .normal then (rearmed s new).huntFind else rearmed s new :=
  (hncNvd_state hstate (mayWait_started (by rw [hstate]; decide))).trans (if_neg (by simpa using hnew))

/-- Between a command of the hunt and its outcome, the return to NORMAL from DISPLACED aborts the hunt (R141). -/
theorem hncNvd_between (hstate : s.hnc.state = .opening ∨ s.hnc.state = .restoring ∨ s.hnc.state = .retestClosing) :
    s.hncNvd old new =
      if old == .displaced && new == .normal then (rearmed s new).abortHuntWith .clearedUnattributed else rearmed s new := by
  have habort : (rearmed s new).abortRunning .clearedUnattributed = (rearmed s new).abortHuntWith .clearedUnattributed :=
    if_pos (by rw [rearmed_state]; rcases hstate with h | h | h <;> simp [h, HuntState.running])
  rw [← habort]
  rcases hstate with h | h | h
  all_goals exact (hncNvd_state h (mayWait_started (by rw [h]; decide))).trans (if_neg (by simpa using hnew))

theorem hncNvd_retestWait (hstate : s.hnc.state = .retestWait) : s.hncNvd old new = rearmed s new :=
  (hncNvd_state hstate (mayWait_started (by rw [hstate]; decide))).trans (if_neg (by simpa using hnew))

theorem hncNvd_retestDwell (hstate : s.hnc.state = .retestDwell) : s.hncNvd old new =
    if new == .displaced then (rearmed s new).foundPersistent else rearmed s new :=
  (hncNvd_state hstate (mayWait_started (by rw [hstate]; decide))).trans (if_neg (by simpa using hnew))

end present

end change

end Sys2Proof.Proofs.NvdAtHunt

/-! The three silences (R7, R48, R180): the loss of IN, of a source with its consumers (R8, R17, R115, R122), and of a record's
BAYSTAT, with a lost position in DEAD (R72). -/

namespace Sys2Proof.Proofs.Silences
open Sys2Proof.Machine Sys2Proof.Safety Sys2Proof.Proofs.NvdAtHunt Sys2Proof.Proofs.SourceStart Sys2Proof.Proofs.StatusRules
  Sys2Proof.Proofs.SlotRules Sys2Proof.Proofs.RecloseTimers Sys2Proof.Proofs.HuntAbort Sys2Proof.Proofs.Requests
  Sys2Proof.Proofs.FrameArrival
  Sys2Proof.Proofs.CaptureRows

/-! ### Presence judged again (R49) -/

section presence
variable {s t : State} {n : Rec} {b : Bay}

theorem judgePresence_maskS (s : State) (n : Rec) :
    (s.judgePresence n).maskS = (s.setStatus n { s.status n with presence := s.presentNow n }).maskS := by
  unfold State.judgePresence
  dsimp only
  split
  · next h => rw [← beq_iff_eq.mp h, setStatus_self]
  · have hoccur (f : Factor) (m : BitVec 9) (d : List Byte) (u : State) : (u.occur f m d).maskS = u.maskS :=
      State.maskS_of_maskE (u.occur_maskE f m d)
    exact ite_both (P := fun u : State => u.maskS = _) ((State.lamp_maskS _ _ _).trans (hoccur _ _ _ _)) (hoccur _ _ _ _)

theorem lamp_rcc (a : LampArg) (h : (s.slot n).pend.reclose = none) : (s.lamp n a).rcc = s.rcc := by
  rcases lamp_cases s n a with e | e
  · rw [e]
  · rw [e]
    unfold requested State.issueNext
    refine ite_both (P := fun u : State => u.rcc = s.rcc) (State.issueFrom_rcc classOrder ?_) rfl
    rw [setPend_slot]
    exact h

/-- The lamp request of a record that has come back leaves the reclose records where no reclose request waits there. -/
theorem judgePresence_rcc (h : (s.slot n).pend.reclose = none) : (s.judgePresence n).rcc = s.rcc := by
  have hoccur (u : State) (f : Factor) (m : BitVec 9) (d : List Byte) : (u.occur f m d).bcu = u.bcu ∧ (u.occur f m d).rcc = u.rcc :=
    ⟨State.maskE_bcu (u.occur_maskE f m d), State.maskE_rcc (u.occur_maskE f m d)⟩
  unfold State.judgePresence
  dsimp only
  refine ite_both (P := fun u : State => u.rcc = s.rcc) rfl (ite_both (P := fun u : State => u.rcc = s.rcc)
    ((lamp_rcc _ ?_).trans (hoccur _ _ _ _).2) (hoccur _ _ _ _).2)
  show ((State.occur _ _ _ _).bcu.slots.look n).pend.reclose = none
  rw [(hoccur _ _ _ _).1]
  exact h

theorem judgePresence_rcl (h : (s.rcl b).state ≠ .closing .waiting) : (s.judgePresence n).rcl b = s.rcl b := by
  have hoccur (u : State) (f : Factor) (m : BitVec 9) (d : List Byte) : (u.occur f m d).rcl b = u.rcl b :=
    congrArg (fun v => Vector.look v b) (State.maskE_rcc (u.occur_maskE f m d))
  unfold State.judgePresence
  dsimp only
  refine ite_both (P := fun u : State => u.rcl b = s.rcl b) rfl (ite_both (P := fun u : State => u.rcl b = s.rcl b)
    ((lamp_rcl _ _ ?_).trans (hoccur _ _ _ _)) (hoccur _ _ _ _))
  rw [hoccur]
  exact h

end presence

/-! ### The loss of a bay's source (R8, R115) -/

section bay
variable {s : State} {b : Bay}

/-- No latest evaluation of the bay (R148). -/
def unlatest (s : State) (b : Bay) : State := { s with recd := { s.recd with latest := s.recd.latest.put b none } }

theorem unlatest_maskS {t : State} (h : t.maskS = s.maskS) (b : Bay) : (unlatest t b).maskS = (unlatest s b).maskS :=
  congrArg (unlatest · b) h

theorem emptyBay_maskS {t : State} (h : t.maskS = s.maskS) (b : Bay) : (t.emptyBay b).maskS = (s.emptyBay b).maskS :=
  congrArg (State.emptyBay · b) h

/-- The bay status of a record judged present or not, with no other effect. -/
def presenceStored (s : State) (n : Rec) : State := s.setStatus n { s.status n with presence := s.presentNow n }

/-- A bay whose source has left VALID: the PHI count, the direction, the latest evaluation, the history and the waiting list. -/
def bayLost (s : State) (b : Bay) : State :=
  (unlatest (presenceStored ((s.zeroPhi b).setDir b .unavailable) (bayRec b)) b).emptyBay b

theorem leaveValid_bay_maskS (s : State) (b : Bay) : (s.leaveValid (some (.bay b))).maskS = (bayLost s b).maskS := by
  refine emptyBay_maskS (t := (((s.zeroPhi b).setDir b .unavailable).judgePresence (bayRec b)).recLostBay b) ?_ b
  exact (State.maskS_of_maskE (State.recLostBay_maskE _ _)).trans (unlatest_maskS (judgePresence_maskS _ _) b)

end bay

/-! ### The loss of the bus (R17, R115, R122) -/

section bus
variable {s t : State} {b : Bay}

/-- All but the measurement. -/
def unmeasured (s : State) : State := { s with meu := Meu.cold }

/-- All but the measurement, the factor records and the captures. -/
def apart (s : State) : State := (unmeasured s).maskE

theorem apart_blocks (h : apart t = apart s) :
    t.efu = s.efu ∧ t.hnc = s.hnc ∧ t.fru = s.fru ∧ t.bcu = s.bcu ∧ t.rcc = s.rcc ∧ t.riu = s.riu :=
  ⟨State.maskE_efu (s := unmeasured s) (t := unmeasured t) h, State.maskE_hnc (s := unmeasured s) (t := unmeasured t) h,
    State.maskE_fru (s := unmeasured s) (t := unmeasured t) h, State.maskE_bcu (s := unmeasured s) (t := unmeasured t) h,
    State.maskE_rcc (s := unmeasured s) (t := unmeasured t) h, State.maskE_riu (s := unmeasured s) (t := unmeasured t) h⟩

theorem complete_maskE (s : State) (b : Bay) (i : Instant) : (s.complete b i).maskE = (entered s b i).maskE := by
  rw [complete_eq]
  exact forEach_keep State.maskE _ (fun k t => t.appendRow_maskE b i k) _ _

theorem complete_apart (s : State) (b : Bay) (i : Instant) : apart (s.complete b i) = apart s :=
  congrArg (fun m : State => { m with meu := Meu.cold }) (complete_maskE s b i)

theorem flushWaiting_apart (s : State) (b : Bay) : apart (s.flushWaiting b) = apart s :=
  (forEach_keep apart _ (fun i t => complete_apart t b i) _ _).trans rfl

theorem complete_meu (s : State) (b : Bay) (i : Instant) : (s.complete b i).meu.waiting = s.meu.waiting ∧
    (s.complete b i).meu.latestBus = s.meu.latestBus := by
  rw [State.maskE_meu (complete_maskE s b i)]
  exact ⟨rfl, rfl⟩

theorem flushWaiting_waiting (s : State) (b : Bay) : (s.flushWaiting b).meu.waiting = s.meu.waiting.put b [] :=
  forEach_keep (fun t : State => t.meu.waiting) _ (fun i t => (complete_meu t b i).1) _ _

theorem flushWaiting_latestBus (s : State) (b : Bay) : (s.flushWaiting b).meu.latestBus = s.meu.latestBus :=
  forEach_keep (fun t : State => t.meu.latestBus) _ (fun i t => (complete_meu t b i).2) _ _

/-- Every waiting list is completed. -/
@[irreducible] def flushed (l : List Bay) (s : State) : State := forEach l (fun b t => t.flushWaiting b) s

theorem flushed_waiting {l : List Bay} (h : b ∈ l ∨ s.meu.waiting.look b = []) : (flushed l s).meu.waiting.look b = [] := by
  unfold flushed
  induction l generalizing s with
  | nil => exact h.resolve_left nofun
  | cons c l ih =>
    refine ih (s := s.flushWaiting c) ?_
    rw [flushWaiting_waiting, Vector.look_put]
    by_cases hcb : c = b
    · exact .inr (if_pos hcb)
    · rw [if_neg hcb]
      exact h.imp_left fun hmem => (List.mem_cons.mp hmem).resolve_left (Ne.symm hcb)

theorem flushed_apart (l : List Bay) (s : State) : apart (flushed l s) = apart s := by
  unfold flushed
  exact forEach_keep apart _ (fun b t => flushWaiting_apart t b) _ _

theorem flushed_latestBus (l : List Bay) (s : State) : (flushed l s).meu.latestBus = s.meu.latestBus := by
  unfold flushed
  exact forEach_keep (fun t : State => t.meu.latestBus) _ (fun b t => flushWaiting_latestBus t b) _ _

/-- No latest bus evaluation, and no direction of any bay. -/
def busMuted (s : State) : State :=
  { s with meu := { s.meu with latestBus := none }, efu := { s.efu with direction := s.efu.direction.each (fun _ => .unavailable) } }

theorem leaveValid_bus (s : State) : s.leaveValid (some .bus) = flushed allBays (busMuted s).nvdLost := by
  unfold flushed
  rfl

/-- The element once the bus is lost. -/
def nvdUnknown : Nvd := { state := .unknown, timing := 0, confirm := 0 }

theorem changeNvd_frame (s : State) (v : Nvd) : (s.changeNvd v).maskH = (s.setNvd v).maskH := by
  unfold State.changeNvd
  exact ite_both (P := fun t : State => t.maskH = _) rfl (State.hncNvd_maskH _ _ _)

theorem changeNvd_same {v : Nvd} (h : s.efu.nvd.state = v.state) : s.changeNvd v = s.setNvd v := if_pos h

theorem changeNvd_changed {v : Nvd} (h : s.efu.nvd.state ≠ v.state) :
    s.changeNvd v = (s.setNvd v).hncNvd s.efu.nvd.state v.state := if_neg h

theorem nvdLost_protecting (h : s.protecting = true) : s.nvdLost = s.changeNvd nvdUnknown := if_pos h

theorem nvdLost_idle (h : s.protecting = false) : s.nvdLost = s := if_neg (by rw [h]; exact Bool.false_ne_true)

theorem nvdLost_meu (s : State) : s.nvdLost.meu = s.meu := by
  unfold State.nvdLost
  exact ite_both (P := fun t : State => t.meu = s.meu)
    (State.maskB_meu (s := s.setNvd nvdUnknown) (State.maskB_of_maskH (changeNvd_frame s nvdUnknown))) rfl

theorem nvdLost_efu (s : State) : s.nvdLost.efu = if s.protecting then (s.setNvd nvdUnknown).efu else s.efu := by
  cases h : s.protecting with
  | true =>
    rw [nvdLost_protecting h]
    exact State.maskB_efu (State.maskB_of_maskH (changeNvd_frame s nvdUnknown))
  | false =>
    rw [nvdLost_idle h]
    rfl

end bus

/-! ### The expiry of a source's silence (R7) -/

section source
variable {s : State} {e : SrcIx} {b : Bay}

theorem sourceDue_iff : s.sourceDue e = true ↔ (s.ctx e).state = .valid ∧ (s.ctx e).silence = some 0 := by
  rw [State.sourceDue, Bool.and_eq_true, beq_iff_eq, due_iff]

theorem inDue_iff : s.inDue = true ↔ s.riu.inUp = true ∧ s.riu.inTimer = some 0 := by
  rw [State.inDue, Bool.and_eq_true, due_iff]

theorem sourceExpiry_due (hfree : s.pins.resetHeld = false) (h : s.sourceDue e = true) :
    exec (.sourceSilenceExpiry e) s = .next (s.sourceSilent e) :=
  (State.live_of_free hfree _).trans (congrArg _ (if_pos h))

/-- A source gone STALE, before its consumers are told. -/
def stale (s : State) (e : SrcIx) : State :=
  s.setCtx e { s.ctx e with state := .stale, window := [], missing := 0, fill := 0, silence := none }

theorem sourceSilent_maskE (s : State) (e : SrcIx) :
    (s.sourceSilent e).maskE = ((stale s e).leaveValid (s.src e).role).maskE := State.occur_maskE _ _ _ _

theorem sourceSilent_ctx (s : State) (e f : SrcIx) : (s.sourceSilent e).ctx f = (stale s e).ctx f := by
  have hctx := (closedN_ctx (stale s e).meu.ctx).leaveValid (s := stale s e) (r := (s.src e).role) rfl
  exact congrArg (fun v => Vector.look v f) ((congrArg Meu.ctx (State.maskE_meu (sourceSilent_maskE s e))).trans hctx)

theorem sourceSilent_bay (hrole : (s.src e).role = some (.bay b)) : (s.sourceSilent e).maskS = (bayLost (stale s e) b).maskS := by
  rw [← leaveValid_bay_maskS, ← hrole]
  exact State.maskS_of_maskE (sourceSilent_maskE s e)

/-- What the loss of a bay's source leaves of the bay. -/
theorem bayLost_leaves (s : State) (b : Bay) : (bayLost s b).meu.history.look b = [] ∧ (bayLost s b).meu.waiting.look b = [] ∧
    (bayLost s b).elem b = { s.elem b with phi := 0 } ∧ (bayLost s b).dir b = .unavailable ∧
    (bayLost s b).recd.latest.look b = none ∧ (bayLost s b).efu.nvd = s.efu.nvd ∧
    (bayLost s b).meu.latestBus = s.meu.latestBus :=
  ⟨Vector.look_put_same _ _ _, Vector.look_put_same _ _ _, Vector.look_put_same _ _ _, Vector.look_put_same _ _ _,
    Vector.look_put_same _ _ _, rfl, rfl⟩

theorem sourceSilent_bus (hrole : (s.src e).role = some .bus) :
    apart (s.sourceSilent e) = apart (busMuted (stale s e)).nvdLost ∧
    (s.sourceSilent e).meu = (flushed allBays (busMuted (stale s e)).nvdLost).meu := by
  have hmask := sourceSilent_maskE s e
  rw [hrole, leaveValid_bus] at hmask
  exact ⟨(congrArg (fun m : State => { m with meu := Meu.cold }) hmask).trans (flushed_apart _ _), State.maskE_meu hmask⟩

/-- The hunt's answer to the loss of the bus (R122, R129, R142). -/
structure BusLoss (s m u : State) : Prop where
  still : s.hnc.state = .idle ∨ s.hnc.state = .aborting ∨ s.efu.nvd.state = .unknown → u = m
  early : s.hnc.state = .waiting → s.efu.nvd.state ≠ .displaced → u = m
  ended : s.hnc.state = .waiting → s.efu.nvd.state = .displaced → u = m.huntToIdle
  aborts : s.hnc.state ≠ .idle → s.hnc.state ≠ .waiting → s.hnc.state ≠ .aborting → s.efu.nvd.state ≠ .unknown →
    u = m.abortHuntWith .abortedStale

theorem nvdLost_hunt (h : s.protecting = true) : BusLoss s (s.setNvd nvdUnknown) s.nvdLost := by
  have hkeeps : rearmed (s.setNvd nvdUnknown) .unknown = s.setNvd nvdUnknown := rearmed_other (by decide)
  have hwait := hncNvd_waiting (s := s.setNvd nvdUnknown) (old := s.efu.nvd.state) (new := .unknown)
  rw [hkeeps] at hwait
  rw [nvdLost_protecting h]
  by_cases hsame : s.efu.nvd.state = .unknown
  · have hset : s.changeNvd nvdUnknown = s.setNvd nvdUnknown := changeNvd_same hsame
    exact { still := fun _ => hset, early := fun _ _ => hset, ended := fun _ hold => absurd (hold.symm.trans hsame) (by decide),
            aborts := fun _ _ _ hnot => absurd hsame hnot }
  · rw [changeNvd_changed hsame]
    constructor
    case still =>
      rintro (hidle | haborting | hnot)
      · exact hncNvd_idle_lost (s := s.setNvd nvdUnknown) hidle
      · exact (hncNvd_aborting (s := s.setNvd nvdUnknown) haborting).trans hkeeps
      · exact absurd hnot hsame
    case early => exact fun hwaiting hold => (hwait hwaiting).trans (if_neg (by simp [hold]))
    case ended => exact fun hwaiting hold => (hwait hwaiting).trans (if_pos (by rw [hold]; rfl))
    case aborts =>
      exact fun hidle hwaiting haborting _ =>
        hncNvd_lost (s := s.setNvd nvdUnknown) (HuntOps.running_of_ne hidle hwaiting) haborting

end source

/-! ### The expiry of a record's BAYSTAT (R48, R72) -/

section baystat
variable {s : State} {n : Rec} {b : Bay}

/-- The record once its position, its spring input and its lamp are lost, before its presence is judged. -/
def silenced (s : State) (n : Rec) : State :=
  let t := (s.storePosition n .unknown).storeSpring n false
  t.setStatus n { t.status n with reported := .unknown, silence := none }

theorem baystatSilent_eq (s : State) (n : Rec) : s.baystatSilent n = (silenced s n).judgePresence n := rfl

theorem silenced_status (s : State) (n : Rec) : (silenced s n).bcu.status = (s.setStatus n { s.status n with
    position := .unknown, spring := false, reported := .unknown, silence := none }).bcu.status := by
  have hspring := storeSpring_status (s.storePosition n .unknown) n false
  have hposition := storePosition_status s n .unknown
  refine Vector.ext_look fun m => ?_
  show ((silenced s n).status m) = State.status _ m
  unfold silenced
  rw [setStatus_status, setStatus_status, status_of_eq hspring, status_of_eq hspring, setStatus_status, setStatus_status,
    status_of_eq hposition, status_of_eq hposition, setStatus_status, setStatus_status]
  simp only [if_true]
  split <;> rfl

theorem silenced_meu (s : State) (n : Rec) : (silenced s n).meu = s.meu :=
  State.maskB_meu ((State.storeSpring_maskB (s.storePosition n .unknown) n false).trans (State.storePosition_maskB s n .unknown))

theorem silenced_presence (s : State) (n : Rec) : (silenced s n).presentNow n =
    match recBay n with
    | some b => s.roleValid (.bay b)
    | none => false := by
  have hsilence : ((silenced s n).status n).silence = none := by
    rw [status_of_eq (silenced_status s n), setStatus_status, if_pos rfl]
  have hrole (r : Role) : (silenced s n).roleValid r = s.roleValid r := by
    unfold State.roleValid State.src State.ctx
    rw [silenced_meu]
  unfold State.presentNow
  rw [hsilence]
  cases recBay n with
  | none => rfl
  | some b => exact hrole _

/-- The bay status with its position lost. -/
def unplaced (s : State) (n : Rec) : State := s.setStatus n { s.status n with position := .unknown }

theorem storePosition_unknown (h : (s.status (bayRec b)).position ≠ .unknown) : s.storePosition (bayRec b) .unknown =
    if s.runs b && (s.rcl b).state == .dead then (unplaced s (bayRec b)).lock b .statusLost else unplaced s (bayRec b) := by
  have hposition (t : State) : t.hncPosition b .unknown = t := if_neg (by simp)
  have hchange : s.storePosition (bayRec b) .unknown = ((unplaced s (bayRec b)).rccPosition b .unknown).hncPosition b .unknown := by
    unfold State.storePosition
    dsimp only
    rw [if_neg (by simpa using h), recBay_bayRec]
    rfl
  rw [hchange, hposition]
  rfl

theorem silenced_slots (s : State) (n : Rec) : (silenced s n).rcc = (s.storePosition n .unknown).rcc ∧
    (silenced s n).bcu.slots = (s.storePosition n .unknown).bcu.slots := by
  have hspring : ((s.storePosition n .unknown).storeSpring n false).rcc = (s.storePosition n .unknown).rcc ∧
      ((s.storePosition n .unknown).storeSpring n false).bcu.slots = (s.storePosition n .unknown).bcu.slots := by
    unfold State.storeSpring
    dsimp only
    split
    · exact ⟨rfl, rfl⟩
    · cases recBay n <;> exact ⟨rfl, rfl⟩
  exact hspring

/-- A lost position in DEAD locks the bay out (R72). -/
theorem silenced_lost (hpos : (s.status (bayRec b)).position ≠ .unknown) (hdead : (s.rcl b).state = .dead)
    (hruns : s.runs b = true) : (silenced s (bayRec b)).rcl b = lockedOut (s.rcl b) .statusLost := by
  have hstore := (storePosition_unknown hpos).trans (if_pos (by rw [hruns, hdead]; rfl))
  have hlock : ((unplaced s (bayRec b)).lock b .statusLost).rcl b = lockedOut (s.rcl b) .statusLost :=
    lock_rcl (s := unplaced s (bayRec b)) hruns (fun c => by rw [show (unplaced s (bayRec b)).rcl b = s.rcl b from rfl, hdead]; nofun) _
  rw [← hlock, ← hstore]
  exact congrArg (fun v => Vector.look v b) (silenced_slots s _).1

theorem silenced_quiet (h : (s.status (bayRec b)).position = .unknown ∨ (s.rcl b).state ≠ .dead ∨ s.runs b = false) :
    (silenced s (bayRec b)).rcc = s.rcc ∧ (silenced s (bayRec b)).bcu.slots = s.bcu.slots := by
  obtain ⟨hrcc, hslots⟩ := silenced_slots s (bayRec b)
  rw [hrcc, hslots]
  by_cases hpos : (s.status (bayRec b)).position = .unknown
  · rw [← hpos, storePosition_held]
    exact ⟨rfl, rfl⟩
  · rw [storePosition_unknown hpos, if_neg]
    · exact ⟨rfl, rfl⟩
    · rcases h.resolve_left hpos with hdead | hruns
      · simp [hdead]
      · simp [hruns]

end baystat

/-- Settles O43: IN's silence by its occurrence alone, a source's by the consumers of its role, a record's by the position that
is lost with it. -/
theorem silenceExpiries : Obligations.SilenceExpiries := by
  refine ⟨fun s hfree => ⟨fun hup htimer => ?inSilent, fun hnot => ?inRunning⟩,
    fun s e hfree => ⟨fun hvalid hdue => ?sourceSilent, fun hnot => ?sourceRunning⟩,
    fun s n hfree => ⟨fun hdue => ?baystatSilent, fun hnot => ?baystatRunning⟩⟩
  case inSilent =>
    refine ⟨s.inSilent, (State.live_of_free hfree _).trans (congrArg _ (if_pos (inDue_iff.mpr ⟨hup, htimer⟩))),
      onlyEvents_of_mask (State.occur_maskE _ _ _ _), fun hpart => ?_⟩
    exact occur_of_bypass (s := { s with riu := { s.riu with inUp := false, inTimer := none } }) hpart _ _ _
  case inRunning =>
    refine (State.live_of_free hfree _).trans (congrArg _ (if_neg ?_))
    rw [inDue_iff, not_and_or, Bool.not_eq_true]
    exact hnot
  case sourceRunning =>
    refine (State.live_of_free hfree _).trans (congrArg _ (if_neg ?_))
    rw [sourceDue_iff, not_and_or]
    exact hnot
  case baystatRunning => exact (State.live_of_free hfree _).trans (congrArg _ (if_neg (mt due_iff.mp hnot)))
  case sourceSilent =>
    have hctx (f : SrcIx) := sourceSilent_ctx s e f
    refine ⟨_, sourceExpiry_due hfree (sourceDue_iff.mpr ⟨hvalid, hdue⟩), onlyMeasures_of_mask (State.sourceSilent_maskM _ _),
      (hctx e).trans (Vector.look_put_same _ _ _), fun f hf => (hctx f).trans ?_, fun b hrole => ?bay, fun hrole => ?bus⟩
    · exact (Vector.look_put _ _ _ _).trans (if_neg (Ne.symm hf))
    case bay =>
      have hmask := sourceSilent_bay hrole
      have hlost := bayLost_leaves (stale s e) b
      have hmeu := State.maskB_meu (State.maskB_of_maskH (State.maskH_of_maskS hmask))
      have hefu := State.maskB_efu (State.maskB_of_maskH (State.maskH_of_maskS hmask))
      have hpru := State.maskH_pru (State.maskH_of_maskS hmask)
      have hlatest := State.maskB_recd_latest (State.maskB_of_maskH (State.maskH_of_maskS hmask))
      unfold State.elem State.dir
      rw [hmeu, hefu, hpru, hlatest]
      exact hlost
    case bus =>
      obtain ⟨hapart, hmeu⟩ := sourceSilent_bus hrole
      obtain ⟨hkept, hblocks⟩ := apart_blocks hapart
      have hefu : (s.sourceSilent e).efu =
          if s.protecting then ((busMuted (stale s e)).setNvd nvdUnknown).efu else (busMuted (stale s e)).efu :=
        hkept.trans (nvdLost_efu _)
      have hsame : ∀ w, (busMuted (stale s e)).nvdLost = w → (s.sourceSilent e).hnc = w.hnc ∧ (s.sourceSilent e).fru = w.fru ∧
          (s.sourceSilent e).bcu = w.bcu ∧ (s.sourceSilent e).rcc = w.rcc ∧ (s.sourceSilent e).riu = w.riu := by
        rintro _ rfl
        exact hblocks
      have hdir : (s.sourceSilent e).efu.direction = (busMuted (stale s e)).efu.direction := by
        rw [hefu]
        split <;> rfl
      refine ⟨?_, fun b => ⟨?_, ?_⟩, fun hprotects => ?_, fun hidle => ?_⟩
      · rw [hmeu, flushed_latestBus, nvdLost_meu]
        rfl
      · exact (congrArg (fun v => Vector.look v b) hdir).trans (Vector.look_each _ _ _)
      · rw [hmeu]
        exact flushed_waiting (.inl (mem_allBays b))
      · rw [if_pos hprotects] at hefu
        obtain ⟨hstill, hearly, hended, haborts⟩ := nvdLost_hunt (s := busMuted (stale s e)) hprotects
        rw [hefu]
        exact ⟨rfl, fun h => hsame ((busMuted (stale s e)).setNvd nvdUnknown) (hstill h),
          fun hwaiting hold => hsame ((busMuted (stale s e)).setNvd nvdUnknown) (hearly hwaiting hold),
          fun hwaiting hold => hsame ((busMuted (stale s e)).setNvd nvdUnknown).huntToIdle (hended hwaiting hold), fun hidle hwaiting haborting hold b htest =>
            ⟨_, huntAborts_abortHuntWith (s := (busMuted (stale s e)).setNvd nvdUnknown) htest
              (HuntOps.running_of_ne hidle hwaiting) haborting .abortedStale, hsame _ (haborts hidle hwaiting haborting hold)⟩⟩
      · rw [hefu, if_neg (by rw [hidle]; exact Bool.false_ne_true)]
        rfl
  case baystatSilent =>
    have hstatus (m : Rec) : (s.baystatSilent n).status m =
        if n = m then { s.status n with position := .unknown, spring := false, reported := .unknown, silence := none,
                                        presence := (silenced s n).presentNow n } else s.status m := by
      rw [baystatSilent_eq, status_of_eq (judgePresence_status _ _), setStatus_status, status_of_eq (silenced_status s n),
        status_of_eq (silenced_status s n), setStatus_status, setStatus_status, if_pos rfl]
      split <;> rfl
    have hself := (hstatus n).trans (if_pos rfl)
    refine ⟨_, (State.live_of_free hfree _).trans (congrArg _ (if_pos (due_iff.mpr hdue))),
      onlyControl_of_mask (State.baystatSilent_maskB _ _), fun m hm => (hstatus m).trans (if_neg (Ne.symm hm)), ?_, fun hn => ?_,
      fun b hn => ⟨?_, fun hpos hdead hruns => ?_, fun hquiet hpend => ?_⟩⟩
    · rw [hself]
    · rw [hself, silenced_presence, hn]
      rfl
    · rw [hself, silenced_presence, hn, recBay_bayRec]
    · subst hn
      have hlost := silenced_lost hpos hdead hruns
      rw [baystatSilent_eq, judgePresence_rcl (by rw [hlost]; nofun), hlost]
      rfl
    · subst hn
      obtain ⟨hrcc, hslots⟩ := silenced_quiet hquiet
      have hpend : ((silenced s (bayRec b)).slot (bayRec b)).pend.reclose = none := by
        unfold State.slot
        rw [hslots]
        exact hpend
      exact congrArg (fun v => Vector.look v b) ((judgePresence_rcc hpend).trans hrcc)

end Sys2Proof.Proofs.Silences

/-! The elements at an evaluation: PHI (R28), the accumulators (R29 to R31), the SEF counter (R117) and the direction (R114). -/

namespace Sys2Proof.Proofs.ElementArithmetic
open Sys2Proof.Machine

section phi
variable {pickup i : Nat}

theorem phiStep_out (count : Nat) (h : pickup = 0 ∨ i < pickup) : phiStep pickup i count = (0, false) := by
  unfold phiStep
  split
  · rfl
  · exact if_pos (h.resolve_left ‹_›)

theorem phiStep_in (count : Nat) (h : 0 < pickup) (hi : pickup ≤ i) : phiStep pickup i count = (min 2 (count + 1), count == 1) :=
  (if_neg h.ne').trans (if_neg hi.not_gt)

end phi

section accumulator
variable {l : List (Nat × Nat)} {t d p i a : Nat}

theorem accStep_below (h : i < p) : accStep l t d p i a = (if d = 0 then 0 else a - d, false) := if_pos h

theorem accStep_above (h : p ≤ i) : accStep l t d p i a =
    (min Config.fullScale (a + max 1 (increment l (multiple i p) * 100 / t)),
      decide (a < Config.fullScale) &&
        min Config.fullScale (a + max 1 (increment l (multiple i p) * 100 / t)) == Config.fullScale) := if_neg h.not_gt

/-- An element operates where its accumulator reaches full scale, and not again while it stands there. -/
theorem accStep_operates (h : p ≤ i) : (accStep l t d p i a).2 = true ↔
    a < Config.fullScale ∧ Config.fullScale ≤ a + max 1 (increment l (multiple i p) * 100 / t) := by
  rw [accStep_above h, Bool.and_eq_true, decide_eq_true_eq, beq_iff_eq, min_eq_left_iff]

theorem accStep_bounded (h : a ≤ Config.fullScale) : (accStep l t d p i a).1 ≤ Config.fullScale := by
  rcases lt_or_ge i p with hlow | hhigh
  · rw [accStep_below hlow]
    dsimp only
    split <;> omega
  · rw [accStep_above hhigh]
    exact min_le_left _ _

theorem accStep_rises (h : (accStep l t d p i a).2 = true) : a < (accStep l t d p i a).1 := by
  rcases lt_or_ge i p with hlow | hhigh
  · rw [accStep_below hlow] at h
    cases h
  · obtain ⟨hfull, -⟩ := (accStep_operates hhigh).mp h
    rw [accStep_above hhigh]
    exact lt_min hfull (by omega)

end accumulator

section sef
variable {delay count : Nat}

theorem sefStep_counts (h : count + 1 < delay) : sefStep true delay count = (count + 1, false) := if_pos h

theorem sefStep_full (h : delay ≤ count + 1) : sefStep true delay count = (delay, count != delay) := if_neg h.not_gt

theorem sefStep_operates (h : delay ≤ count + 1) (hne : count ≠ delay) : sefStep true delay count = (delay, true) := by
  rw [sefStep_full h, bne_iff_ne.mpr hne]

theorem sefStep_stands : sefStep true delay delay = (delay, false) := by
  rw [sefStep_full (Nat.le_succ _), bne_self_eq_false]

end sef

section direction
variable {pickup threshold : Nat} {i v : Meas}

theorem directionOf_measured (h : pickup ≤ v.mag) : directionOf pickup threshold i v =
    if projection i v ≤ -(threshold : Int) then .forward
    else if (threshold : Int) ≤ projection i v then .reverse else .undecided := if_neg h.not_gt

end direction

end Sys2Proof.Proofs.ElementArithmetic

/-! What a change of the NVD element does to a running hunt: the find in DWELL (R137), the displacement in RETEST_DWELL (R140), and
re-arm (R128). -/

namespace Sys2Proof.Proofs.HuntFinds
open Sys2Proof.Machine Sys2Proof.Safety Sys2Proof.Proofs.Occurrences Sys2Proof.Proofs.HuntBays Sys2Proof.Proofs.HuntEnd
  Sys2Proof.Proofs.HuntSelection Sys2Proof.Proofs.HuntAbort Sys2Proof.Proofs.HuntTimes Sys2Proof.Proofs.NvdAtHunt
  Sys2Proof.Proofs.OccurrenceRules Sys2Proof.Proofs.SlotRules Sys2Proof.Proofs.BreakerFail

/-! ### The fault records through the end of a hunt (R145) -/

section ledger
variable {s t : State}

/-- The fault records but for their capture marks. -/
def ledger (s : State) : Recorder := s.maskS.recd

theorem ledger_of_maskS (h : t.maskS = s.maskS) : ledger t = ledger s := congrArg State.recd h

theorem ledger_top (h : ledger t = ledger s) :
    t.recd.top = s.recd.top ∧ t.recd.nextSeq = s.recd.nextSeq ∧ t.recd.count = s.recd.count :=
  ⟨(congrArg Recorder.top h :), (congrArg Recorder.nextSeq h :), (congrArg Recorder.count h :)⟩

/-- A record of the ring stands there later, with the capture marks it has by then. -/
theorem ledger_record (h : ledger t = ledger s) {i : Fin 16} {r : FaultRecord} (hr : s.recd.ring.look i = some r) :
    ∃ x, t.recd.ring.look i = some x ∧ x.bare = r.bare := by
  have hring : (t.recd.ring.each (Option.map FaultRecord.bare)).look i = (s.recd.ring.each (Option.map FaultRecord.bare)).look i :=
    congrArg (fun m : Recorder => m.ring.look i) h
  rw [Vector.look_each, Vector.look_each, hr] at hring
  exact Option.map_eq_some_iff.mp hring

theorem withdrawn_ledger (s : State) : ledger (withdrawn s) = ledger s := by
  have hput (u : State) (x : Vector RecloseRecord 8) : ledger { u with rcc := x } = ledger u := rfl
  have hremove (u : State) : ledger (u.removeHunt none) = ledger u :=
    (congrArg ledger (removeHunt_eq u none)).trans (hput u _)
  have hunstack (u : State) (l : List StackEntry) : ledger (u.setStack l) = ledger u := rfl
  have hunblocked : ledger (unblocked s) = ledger s := by
    unfold unblocked
    exact hremove (s.setHnc { s.hnc with timer := none })
  unfold withdrawn
  exact (ledger_of_maskS (changeStack_maskS _ _ _)).trans ((hunstack _ _).trans hunblocked)

theorem endHunt_ledger (r : HuntResult) (named under : Option Bay) (why : LockedBy) (s : State) :
    ledger (s.endHunt r named under why) = ledger s :=
  (ledger_of_maskS (State.maskS_of_maskE (endHunt_maskE r named under why s))).trans (withdrawn_ledger s)

theorem huntLock_ledger (s : State) (cause : LockoutCause) : ledger (s.huntLock cause) = ledger s := by
  unfold State.huntLock
  split
  · next b _ => exact ledger_of_maskS (t := s.lock b cause) (s.lock_maskS b cause)
  · rfl

end ledger

/-! ### Re-arm (R128) -/

section rearm
variable {s : State} {r : HuntResult} {b : Bay}

theorem endPending_rearm (u : State) : u.endPending.hnc.rearm = u.hnc.rearm := by
  unfold State.endPending
  split
  · rw [endHunt_hnc]
    rfl
  · rfl

theorem judged_rearm (u : State) : (judged u).hnc.rearm = u.hnc.rearm := by
  unfold judged
  split
  · split
    · unfold State.setCurOutcome
      split <;> rfl
    · rfl
  · rfl

theorem placeHuntClose_waiting_rearm (htest : s.underTest = some b) (v : Bool) :
    ((waiting s r v).placeHuntClose b).hnc.rearm = s.hnc.rearm := by
  cases hjudge : s.judgeReq (bayRec b) .hunt .closing with
  | none =>
    rw [placeHuntClose_accepted hjudge, State.maskS_hnc (withRequest_maskS _ _ _)]
    rfl
  | some code =>
    by_cases hcode : code = .standdown
    · rw [placeHuntClose_standdown (hcode ▸ hjudge)]
      rfl
    · rw [placeHuntClose_failed hjudge hcode, abortRestoreFailed_waiting htest, endPending_rearm, restoreLost_hnc]
      exact judged_rearm (waiting s r v)

/-- An abort between a command and its outcome leaves re-arm as it was. -/
theorem abortHuntWith_rearm
    (hstate : s.hnc.state = .opening ∨ s.hnc.state = .restoring ∨ s.hnc.state = .retestClosing) (r : HuntResult) :
    (s.abortHuntWith r).hnc.rearm = s.hnc.rearm := by
  have hends (u : State) (h : u.hnc = (cut s r).hnc) : u.endPending.hnc.rearm = s.hnc.rearm := by
    rw [endPending_rearm, h, cut_hnc]
  cases htest : s.underTest with
  | none => rw [abort_untested htest, hends _ rfl]
  | some b =>
    rcases hstate with hopening | hclosing
    · by_cases hpend : (s.slot (bayRec b)).pend.hunt = none
      · rw [abort_opening_issued htest hopening hpend]
        rfl
      · rw [abort_opening_pending htest hopening hpend]
        exact hends _ rfl
    · cases hmark : s.hnc.restoreOut with
      | false =>
        rw [abort_restoring htest hclosing hmark]
        rfl
      | true => rw [abort_restores htest (.inr (.inr ⟨hclosing, hmark⟩)), placeHuntClose_waiting_rearm htest]

theorem endFoundLocked_rearm (s : State) (cause : LockoutCause) (why : LockedBy) :
    (s.endFoundLocked cause why).hnc.rearm = s.hnc.rearm := by
  unfold State.endFoundLocked
  rw [endHunt_hnc, huntLock_hnc]
  rfl

end rearm

/-! ### The find in DWELL (R137) -/

section find
variable {s : State} {b : Bay} {k : Fin 8}

/-- The found candidate has its outcome and its record. -/
def found (s : State) (b : Bay) (k : Fin 8) : State :=
  ((s.setHnc { s.hnc with timer := none, cands := s.hnc.cands.modify k.val (fun c => { c with outcome := .found }) }).bayRecord b
    .huntFound)

theorem huntFind_eq (htest : s.underTest = some b) (hcur : s.hnc.current = some k) : s.huntFind =
    if (found s b k).atFireLimit then (found s b k).endFoundLocked .huntFound .fireLimit
    else (found s b k).huntTo .retestWait (some s.hnc.table.retestDelay) := by
  unfold State.huntFind
  rw [htest]
  dsimp only
  rw [setCurOutcome_eq (s := s.setHnc { s.hnc with timer := none }) hcur]
  rfl

theorem huntFind_untested (htest : s.underTest = none) : s.huntFind = s := by
  unfold State.huntFind
  rw [htest]

theorem huntFind_rearm (s : State) : s.huntFind.hnc.rearm = s.hnc.rearm := by
  cases htest : s.underTest with
  | none => rw [huntFind_untested htest]
  | some b =>
    obtain ⟨k, c, hcur, -, -⟩ := curCandidate_of_underTest htest
    rw [huntFind_eq htest hcur]
    exact ite_both (P := fun t : State => t.hnc.rearm = s.hnc.rearm) (endFoundLocked_rearm (found s b k) _ _) rfl

theorem found_underTest (htest : s.underTest = some b) (hcur : s.hnc.current = some k) : (found s b k).underTest = some b := by
  have hset := setCurOutcome_underTest (s.setHnc { s.hnc with timer := none }) .found
  rw [setCurOutcome_eq (s := s.setHnc { s.hnc with timer := none }) hcur] at hset
  exact (underTest_of_hnc (s := (s.setHnc { s.hnc with timer := none }).setOutcome k .found) rfl rfl).trans
    (hset.trans htest)

theorem found_maskH (s : State) (b : Bay) (k : Fin 8) : (found s b k).maskH = s.maskH :=
  (closedH_mask s).record _ _ (s.setHnc_maskH _ rfl)

/-- What the find leaves of the records (R149 to R151). -/
theorem found_record (s : State) (b : Bay) (k : Fin 8) : ∃ r, (found s b k).recd.ring.look (found s b k).recd.top = some r ∧
    r.seq = s.recd.nextSeq ∧ r.stamp = s.stamp ∧ r.bay = b ∧ r.cause = .huntFound ∧ r.shots = (s.rcl b).shots ∧
    r.group = s.activeNo ∧ r.level = s.fru.effective :=
  ⟨_, storeRecord_top _, rfl, rfl, rfl, rfl, rfl, rfl, rfl⟩

theorem atFireLimit_found : (found s b k).atFireLimit = s.atFireLimit := rfl

theorem endFoundLocked_hnc (s : State) (cause : LockoutCause) (why : LockedBy) : (s.endFoundLocked cause why).hnc =
    endedContext { s.hnc with bayOpen := none } .foundLocked s.underTest s.stamp := by
  unfold State.endFoundLocked
  rw [endHunt_hnc, huntLock_hnc, stamp_of_maskH (huntLock_maskH s cause)]

theorem endFoundLocked_ledger (s : State) (cause : LockoutCause) (why : LockedBy) :
    ledger (s.endFoundLocked cause why) = ledger s := by
  unfold State.endFoundLocked
  exact (endHunt_ledger _ _ _ _ _).trans (huntLock_ledger s cause)

/-- The bay under test is locked out for the cause where it was not. -/
theorem huntLock_state (htest : s.underTest = some b) (hruns : s.runs b = true) (hfree : ∀ c, (s.rcl b).state ≠ .lockout c)
    (cause : LockoutCause) : ((s.huntLock cause).rcl b).state = .lockout cause := by
  rw [huntLock_eq htest]
  exact lock_state hruns hfree

theorem endFoundLocked_state (htest : s.underTest = some b) (hruns : s.runs b = true)
    (hfree : ∀ c, (s.rcl b).state ≠ .lockout c) (cause : LockoutCause) (why : LockedBy) :
    ((s.endFoundLocked cause why).rcl b).state = .lockout cause := endHunt_locked (huntLock_state htest hruns hfree cause)

/-- HUNT_END at an end that names the bay under test. -/
theorem lock_unarmed (h : Unarmed s) (c : Bay) (cause : LockoutCause) : Unarmed (s.lock c cause) :=
  ((HuntFrames.huntBlind_fac (.inl rfl) (s.fac fHuntStart)).lock ⟨h, rfl⟩).1

theorem endFoundLocked_detail (htest : s.underTest = some b) (hunarmed : Unarmed s) (hpart : s.mgu.part ≠ .bypass)
    (cause : LockoutCause) (why : LockedBy) : ((s.endFoundLocked cause why).fac fHuntEnd).lastDetail =
      some (detail (endFields .foundLocked (some b) (some b) why s.hnc.started s.stamp)) := by
  have hstarted : (s.huntLock cause).hnc.started = s.hnc.started := by rw [huntLock_hnc]
  rw [← hstarted, ← stamp_of_maskH (huntLock_maskH s cause)]
  unfold State.endFoundLocked
  rw [htest]
  refine endHunt_detail _ _ _ _ ?_ (by rwa [State.maskH_mgu (huntLock_maskH s cause)])
  rw [huntLock_eq htest]
  exact lock_unarmed hunarmed b cause

end find

/-! ### The displacement in RETEST_DWELL (R140) -/

section persistent
variable {s : State} {b : Bay}

/-- The hunt's OPEN at the slot of the bay under test, where R51 accepts it. -/
def reopened (s : State) (b : Bay) : State :=
  match s.place (bayRec b) .hunt .opening with
  | .ok u => u
  | .error _ => s

theorem foundPersistent_eq (htest : s.underTest = some b) : s.foundPersistent =
    ((reopened s b).lock b .huntFound).endHunt .foundPersistent (some b) (some b) .none := by
  unfold State.foundPersistent
  rw [htest]
  rfl

theorem reopened_cases (s : State) (b : Bay) : reopened s b = s ∨ reopened s b = withRequest s (bayRec b) .opening := by
  unfold reopened
  cases hjudge : s.judgeReq (bayRec b) .hunt .opening with
  | none =>
    rw [place_accepted hjudge]
    exact .inr rfl
  | some code =>
    rw [place_refused hjudge]
    exact .inl rfl

theorem reopened_maskS (s : State) (b : Bay) : (reopened s b).maskS = s.maskS := by
  rcases reopened_cases s b with h | h
  · rw [h]
  · rw [h, withRequest_maskS]

theorem reopened_rcc (s : State) (b : Bay) : (reopened s b).rcc = s.rcc := by
  rcases reopened_cases s b with h | h
  · rw [h]
  · rw [h, withRequest_open_rcc]

theorem withRequest_unarmed (h : Unarmed s) (n : Rec) (cmd : Command) : Unarmed (withRequest s n cmd) :=
  have hput : Unarmed (s.setPend n .hunt (some cmd)) ∧ _ := ⟨h, rfl⟩
  ((HuntFrames.huntBlind_fac (.inl rfl) (s.fac fHuntStart)).issueNext hput).1

theorem reopened_unarmed (h : Unarmed s) (b : Bay) : Unarmed (reopened s b) := by
  rcases reopened_cases s b with e | e
  · rw [e]
    exact h
  · rw [e]
    exact withRequest_unarmed h _ _

end persistent

/-! ### A command in flight through the end of a hunt -/

section occupied
variable {n : Rec} {x : SlotState} {r : Option Command}

/-- The slot has its command in flight, and the HUNT request given waits there. -/
structure Occupied (n : Rec) (x : SlotState) (r : Option Command) (t : State) : Prop where
  state : (t.slot n).state = x
  hunt : (t.slot n).pend.hunt = r

theorem Occupied.of_slot {s t : State} (h : Occupied n x r s) (hslot : t.slot n = s.slot n) : Occupied n x r t :=
  ⟨hslot ▸ h.state, hslot ▸ h.hunt⟩

theorem Occupied.occur {s : State} (h : Occupied n x r s) (f : Factor) (m : BitVec 9) (d : List Byte) :
    Occupied n x r (s.occur f m d) := h.of_slot (congrArg (fun u : Bcu => u.slots.look n) (State.maskE_bcu (s.occur_maskE f m d)))

theorem Occupied.setPend {s : State} (h : Occupied n x r s) (m : Rec) {c : ReqClass} (hc : c ≠ .hunt) (v : Option Command) :
    Occupied n x r (s.setPend m c v) := by
  have hput : (((s.slot n).pend.set c v)).hunt = (s.slot n).pend.hunt := by cases c <;> simp_all [Pending.set]
  by_cases hm : m = n
  · subst hm
    constructor
    · rw [setPend_slot]
      exact h.state
    · rw [setPend_slot]
      exact hput.trans h.hunt
  · exact h.of_slot ((s.setPend_at m c v).slots n (Ne.symm hm))

theorem Occupied.lockPend {s : State} (h : Occupied n x r s) (c : Bay) (cause : LockoutCause) :
    Occupied n x r (s.lockPend c cause) := by
  have hcleared := h.setPend (bayRec c) (c := .reclose) (by decide) none
  have hset (u : State) (y : RecloseRecord) (hu : Occupied n x r u) : Occupied n x r (u.setRcl c y) := hu.of_slot rfl
  unfold State.lockPend State.pendLamp
  exact ite_both (P := Occupied n x r) (((hset _ _ hcleared).occur _ _ _).setPend _ (by decide) _) ((hset _ _ hcleared).occur _ _ _)

variable (hx : x ≠ .free)
include hx

theorem Occupied.issueNext {s : State} (h : Occupied n x r s) (m : Rec) : Occupied n x r (s.issueNext m) := by
  by_cases hm : m = n
  · subst hm
    have hkeeps : s.issueNext m = s := if_neg (by rw [isFree_iff_eq_free, h.state]; exact hx)
    rwa [hkeeps]
  · exact h.of_slot ((State.issueNext_at s m).slots n (Ne.symm hm))

theorem Occupied.lock {s : State} (h : Occupied n x r s) (c : Bay) (cause : LockoutCause) : Occupied n x r (s.lock c cause) := by
  unfold State.lock
  exact ite_both (P := Occupied n x r) ((h.lockPend c cause).issueNext hx _) h

theorem Occupied.changeStack {s : State} (h : Occupied n x r s) (l : List StackEntry) (c : GroupCause) :
    Occupied n x r (s.changeStack l c) := by
  have hset : Occupied n x r (s.setStack l) := h.of_slot rfl
  have hjudged : Occupied n x r (s.setStack l).rejudgeWaiting :=
    forEach_inv _ _ (fun b t ht => ite_both (P := Occupied n x r) (ht.lock hx b _) ht) _ _ hset
  unfold State.changeStack
  exact ite_both (P := Occupied n x r) hset (hjudged.occur _ _ _)

theorem Occupied.endHunt {s : State} (h : Occupied n x r s) (w : HuntResult) (named under : Option Bay) (why : LockedBy) :
    Occupied n x r (s.endHunt w named under why) := by
  have hremoved : Occupied n x r (unblocked s) := by
    refine h.of_slot ?_
    unfold unblocked State.slot
    rw [removeHunt_bcu]
    rfl
  have hout : Occupied n x r (withdrawn s) := by
    unfold withdrawn
    exact hremoved.changeStack hx _ _
  refine hout.of_slot ?_
  rw [State.slot, State.maskE_bcu (endHunt_maskE w named under why s)]
  rfl

end occupied

/-! ### The displacement in RETEST_DWELL, assembled -/

section persistent
variable {s : State} {b : Bay}

/-- The OPEN of R140 is accepted where the bay is in service and not in local mode. -/
theorem judgeReq_reopen (hserved : (s.cap (bayRec b)).inService = true) (hlocal : (s.status (bayRec b)).localMode = false) :
    s.judgeReq (bayRec b) .hunt .opening = none := State.judgeReq_none hserved nofun hlocal nofun nofun

theorem reopened_accepted (h : s.judgeReq (bayRec b) .hunt .opening = none) :
    reopened s b = withRequest s (bayRec b) .opening := by
  unfold reopened
  rw [place_accepted h]

theorem foundPersistent_occupied (htest : s.underTest = some b) {x : SlotState} {r : Option Command} (hx : x ≠ .free)
    (h : Occupied (bayRec b) x r (reopened s b)) : Occupied (bayRec b) x r s.foundPersistent := by
  rw [foundPersistent_eq htest]
  exact (h.lock hx b _).endHunt hx _ _ _ _

theorem foundPersistent_hnc (htest : s.underTest = some b) :
    s.foundPersistent.hnc = endedContext s.hnc .foundPersistent (some b) s.stamp := by
  have hmask : ((reopened s b).lock b .huntFound).maskS = s.maskS := (State.lock_maskS _ _ _).trans (reopened_maskS s b)
  rw [foundPersistent_eq htest, endHunt_hnc, State.maskS_hnc hmask, stamp_of_maskH (State.maskH_of_maskS hmask)]

theorem foundPersistent_over (htest : s.underTest = some b) : HuntOver s s.foundPersistent .foundPersistent (some b) := by
  have hmask : ((reopened s b).lock b .huntFound).maskS = s.maskS := (State.lock_maskS _ _ _).trans (reopened_maskS s b)
  rw [foundPersistent_eq htest]
  exact huntOver_endHunt (congrArg Hnc.started (State.maskS_hnc hmask)) (State.maskH_of_maskS hmask) (State.maskS_fru hmask) _ _ _

theorem foundPersistent_locked (htest : s.underTest = some b) (hruns : s.runs b = true)
    (hfree : ∀ c, (s.rcl b).state ≠ .lockout c) : (s.foundPersistent.rcl b).state = .lockout .huntFound := by
  rw [foundPersistent_eq htest]
  have hsame : (reopened s b).rcl b = s.rcl b := congrArg (fun v => Vector.look v b) (reopened_rcc s b)
  exact endHunt_locked (lock_state ((runs_of_maskR (State.maskR_of_maskS (reopened_maskS s b)) b).trans hruns)
    (by rw [hsame]; exact hfree))

theorem foundPersistent_detail (htest : s.underTest = some b) (hunarmed : Unarmed s) (hpart : s.mgu.part ≠ .bypass) :
    (s.foundPersistent.fac fHuntEnd).lastDetail =
      some (detail (endFields .foundPersistent (some b) (some b) .none s.hnc.started s.stamp)) := by
  have hmask : ((reopened s b).lock b .huntFound).maskS = s.maskS := (State.lock_maskS _ _ _).trans (reopened_maskS s b)
  have hend := endHunt_detail .foundPersistent (some b) (some b) .none
    (lock_unarmed (reopened_unarmed hunarmed b) b .huntFound)
    (by rw [State.maskH_mgu (State.maskH_of_maskS hmask)]; exact hpart)
  rw [State.maskS_hnc hmask, stamp_of_maskH (State.maskH_of_maskS hmask), ← foundPersistent_eq htest] at hend
  exact hend

theorem foundPersistent_maskH (s : State) : s.foundPersistent.maskH = s.maskH := (closedH_mask s).foundPersistent rfl

end persistent

end Sys2Proof.Proofs.HuntFinds

/-! One bus evaluation of the NVD element (R119 to R121, R123, R129). -/

namespace Sys2Proof.Proofs.NvdEvaluation
open Sys2Proof.Machine Sys2Proof.Safety Sys2Proof.Proofs.Occurrences Sys2Proof.Proofs.NvdAtHunt Sys2Proof.Proofs.Silences

section evaluation
variable {s t : State} {e : BusEval} {x : Nvd}

/-- The element goes to DISPLACED, and the hunt is told before NVD_DISPLACED occurs (R120, R123). -/
def displacedNow (s : State) (e : BusEval) (count : Nat) : State :=
  ((s.setNvd { state := .displaced, timing := count, confirm := 0 }).hncNvd .timing .displaced).occur fNvdDisplaced 0
    (nvdDetail e.tag e.vn.mag count s.activeNo)

/-- The element returns to NORMAL from DISPLACED, and the hunt is told before NVD_NORMAL occurs (R121, R123). -/
def clearedNow (s : State) (e : BusEval) (count : Nat) : State :=
  ((s.setNvd Nvd.cold).hncNvd .displaced .normal).occur fNvdNormal 0 (nvdDetail e.tag e.vn.mag count s.activeNo)

/-- The evaluation is judged (R119). -/
def Judged (s : State) : Prop := s.protecting = true ∧ s.groupValid s.activeNo = true

theorem hncNvd_starts_timing (s : State) : s.hncNvd .normal .timing = s := by
  have hkeeps : rearmed s .timing = s := rearmed_other (by decide)
  have hno : (rearmed s .timing).mayWait .normal .timing = false := by
    rw [Bool.eq_false_iff, ne_eq, mayWait_iff]
    exact fun ⟨hold, _⟩ => nomatch hold
  generalize hstate : s.hnc.state = st
  rw [hncNvd_state hstate hno, hkeeps]
  cases st <;> rfl

/-- TIMING with a count, from the confirm count it stands with. -/
theorem nvdTiming_eq {confirm : Nat} (count : Nat)
    (h : (s.efu.nvd.state = .normal ∧ confirm = 0) ∨ (s.efu.nvd.state = .timing ∧ confirm = s.efu.nvd.confirm)) :
    s.nvdTiming e count = if s.activeGroup.nvdDelay ≤ count then displacedNow s e count
      else s.setNvd { state := .timing, timing := count, confirm := confirm } := by
  have hdisplaces (u : Nvd) (hu : u.state = .timing) :
      (s.setNvd u).changeNvd { state := .displaced, timing := count, confirm := 0 } =
        (s.setNvd { state := .displaced, timing := count, confirm := 0 }).hncNvd .timing .displaced := by
    have hchanges : (s.setNvd u).efu.nvd.state ≠ NvdState.displaced := fun hdisplaced => nomatch hu.symm.trans hdisplaced
    rw [changeNvd_changed (s := s.setNvd u) hchanges, show (s.setNvd u).efu.nvd.state = .timing from hu]
    rfl
  have hstart : ∃ y : Nvd, y.state = .timing ∧ y.confirm = confirm ∧ (if s.efu.nvd.state == .timing then s
      else s.changeNvd { state := .timing, timing := count, confirm := 0 }) = s.setNvd y := by
    rcases h with ⟨hnormal, rfl⟩ | ⟨htiming, rfl⟩
    · refine ⟨{ state := .timing, timing := count, confirm := 0 }, rfl, rfl, (if_neg (by rw [hnormal]; decide)).trans ?_⟩
      have hchanges : s.efu.nvd.state ≠ NvdState.timing := fun htiming => nomatch hnormal.symm.trans htiming
      rw [changeNvd_changed hchanges, hnormal]
      exact hncNvd_starts_timing _
    · exact ⟨s.efu.nvd, htiming, rfl, if_pos (beq_iff_eq.mpr htiming)⟩
  obtain ⟨y, hstate, rfl, hy⟩ := hstart
  unfold State.nvdTiming displacedNow
  dsimp only
  rw [hy, ← hdisplaces { y with timing := count } hstate, ← hstate]
  rfl

theorem nvdEvaluate_unjudged (h : ¬ Judged s) : s.nvdEvaluate e = s := by
  unfold State.nvdEvaluate
  exact if_neg (by rw [Bool.and_eq_true]; exact h)

/-- A judged evaluation, by the state of the element. -/
theorem nvdEvaluate_judged (h : Judged s) : s.nvdEvaluate e =
    match s.efu.nvd.state with
    | .normal => if e.vn.mag < s.activeGroup.nvdPickup then s else s.nvdTiming e 1
    | .timing => if e.vn.mag < s.activeGroup.nvdPickup then s.changeNvd Nvd.cold
        else s.nvdTiming e (min 2000 (s.efu.nvd.timing + 1))
    | .displaced =>
      if e.vn.mag < s.activeGroup.nvdDropout then
        if s.activeGroup.nvdConfirm ≤ min 200 (s.efu.nvd.confirm + 1) then
          (s.changeNvd Nvd.cold).occur fNvdNormal 0 (nvdDetail e.tag e.vn.mag (min 200 (s.efu.nvd.confirm + 1)) s.activeNo)
        else s.setNvd { s.efu.nvd with confirm := min 200 (s.efu.nvd.confirm + 1) }
      else s.setNvd { s.efu.nvd with confirm := 0 }
    | .unknown => s := by
  unfold State.nvdEvaluate
  rw [if_pos (by rw [Bool.and_eq_true]; exact h)]
  dsimp only
  cases s.efu.nvd.state <;> rfl

theorem changeNvd_cold {st : NvdState} (h : s.efu.nvd.state = st) (hne : st ≠ .normal) :
    s.changeNvd Nvd.cold = (s.setNvd Nvd.cold).hncNvd st .normal := by
  rw [← h]
  exact changeNvd_changed (v := Nvd.cold) (fun hnormal => hne (h.symm.trans hnormal))

section state
variable (h : Judged s)
include h

theorem nvdEvaluate_normal (hstate : s.efu.nvd.state = .normal) :
    s.nvdEvaluate e = if e.vn.mag < s.activeGroup.nvdPickup then s else s.nvdTiming e 1 := by
  rw [nvdEvaluate_judged h, hstate]

theorem nvdEvaluate_timing (hstate : s.efu.nvd.state = .timing) :
    s.nvdEvaluate e = if e.vn.mag < s.activeGroup.nvdPickup then (s.setNvd Nvd.cold).hncNvd .timing .normal
      else s.nvdTiming e (min 2000 (s.efu.nvd.timing + 1)) := by
  rw [nvdEvaluate_judged h, hstate, ← changeNvd_cold hstate (by decide)]

theorem nvdEvaluate_displaced (hstate : s.efu.nvd.state = .displaced) :
    s.nvdEvaluate e = if e.vn.mag < s.activeGroup.nvdDropout then
        if s.activeGroup.nvdConfirm ≤ min 200 (s.efu.nvd.confirm + 1) then clearedNow s e (min 200 (s.efu.nvd.confirm + 1))
        else s.setNvd { s.efu.nvd with confirm := min 200 (s.efu.nvd.confirm + 1) }
      else s.setNvd { s.efu.nvd with confirm := 0 } := by
  unfold clearedNow
  rw [← changeNvd_cold hstate (by decide), nvdEvaluate_judged h]
  cases hstate' : s.efu.nvd.state with
  | displaced => rfl
  | normal => cases hstate.symm.trans hstate'
  | timing => cases hstate.symm.trans hstate'
  | unknown => cases hstate.symm.trans hstate'

end state

theorem nvdEvaluate_unknown (hstate : s.efu.nvd.state = .unknown) : s.nvdEvaluate e = s := by
  by_cases h : Judged s
  · rw [nvdEvaluate_judged h, hstate]
  · exact nvdEvaluate_unjudged h

/-- What a judged evaluation comes to: the element stays or takes up its timing, and the hunt is told nothing; or it changes, and
the hunt is told of it (R123). -/
inductive Moves (s : State) (e : BusEval) : State → Prop
  | stays {x : Nvd} (h : x.state = s.efu.nvd.state ∨ (s.efu.nvd.state = .normal ∧ x.state = .timing)) : Moves s e (s.setNvd x)
  | falls (h : s.efu.nvd.state = .timing) : Moves s e ((s.setNvd Nvd.cold).hncNvd .timing .normal)
  | displaces (count : Nat) (h : s.efu.nvd.state = .normal ∨ s.efu.nvd.state = .timing) : Moves s e (displacedNow s e count)
  | clears (h : s.efu.nvd.state = .displaced) : Moves s e (clearedNow s e (min 200 (s.efu.nvd.confirm + 1)))

theorem nvdTiming_moves (count : Nat) (h : s.efu.nvd.state = .normal ∨ s.efu.nvd.state = .timing) :
    Moves s e (s.nvdTiming e count) := by
  have hmoves {confirm : Nat} (heq : s.nvdTiming e count = if s.activeGroup.nvdDelay ≤ count then displacedNow s e count
      else s.setNvd { state := .timing, timing := count, confirm := confirm }) : Moves s e (s.nvdTiming e count) := by
    rw [heq]
    exact ite_both (P := Moves s e) (.displaces count h)
      (.stays (h.elim (fun hnormal => .inr ⟨hnormal, rfl⟩) (fun htiming => .inl htiming.symm)))
  rcases h with hnormal | htiming
  · exact hmoves (nvdTiming_eq count (.inl ⟨hnormal, rfl⟩))
  · exact hmoves (nvdTiming_eq count (.inr ⟨htiming, rfl⟩))

theorem nvdEvaluate_moves (s : State) (e : BusEval) : Moves s e (s.nvdEvaluate e) := by
  have hsame : Moves s e s := .stays (x := s.efu.nvd) (.inl rfl)
  by_cases hjudged : Judged s
  · cases hstate : s.efu.nvd.state with
    | normal =>
      rw [nvdEvaluate_normal hjudged hstate]
      exact ite_both (P := Moves s e) hsame (nvdTiming_moves 1 (.inl hstate))
    | timing =>
      rw [nvdEvaluate_timing hjudged hstate]
      exact ite_both (P := Moves s e) (.falls hstate) (nvdTiming_moves _ (.inr hstate))
    | displaced =>
      rw [nvdEvaluate_displaced hjudged hstate]
      exact ite_both (P := Moves s e) (ite_both (P := Moves s e) (.clears hstate) (.stays (.inl rfl))) (.stays (.inl rfl))
    | unknown =>
      rw [nvdEvaluate_unknown hstate]
      exact hsame
  · rw [nvdEvaluate_unjudged hjudged]
    exact hsame

/-- Only the element and what the hunt answers change. -/
theorem Moves.frame (h : Moves s e t) : ∃ x, t.maskH = (s.setNvd x).maskH := by
  have hoccur (u : State) (f : Factor) (d : List Byte) : (u.occur f 0 d).maskH = u.maskH :=
    State.maskH_of_maskS (State.maskS_of_maskE (u.occur_maskE f 0 d))
  cases h with
  | stays => exact ⟨_, rfl⟩
  | falls => exact ⟨_, State.hncNvd_maskH _ _ _⟩
  | displaces count => exact ⟨_, (hoccur _ _ _).trans (State.hncNvd_maskH _ _ _)⟩
  | clears => exact ⟨_, (hoccur _ _ _).trans (State.hncNvd_maskH _ _ _)⟩

theorem nvd_of_maskH (h : t.maskH = (s.setNvd x).maskH) : t.efu.nvd = x := congrArg Efu.nvd (State.maskB_efu (State.maskB_of_maskH h))

theorem displacedNow_nvd (s : State) (e : BusEval) (count : Nat) :
    (displacedNow s e count).efu.nvd = { state := .displaced, timing := count, confirm := 0 } :=
  nvd_of_maskH ((State.maskH_of_maskS (State.maskS_of_maskE (State.occur_maskE _ _ _ _))).trans (State.hncNvd_maskH _ _ _))

theorem clearedNow_nvd (s : State) (e : BusEval) (count : Nat) : (clearedNow s e count).efu.nvd = Nvd.cold :=
  nvd_of_maskH ((State.maskH_of_maskS (State.maskS_of_maskE (State.occur_maskE _ _ _ _))).trans (State.hncNvd_maskH _ _ _))

theorem hncNvd_nvd (s : State) (x : Nvd) (old new : NvdState) : ((s.setNvd x).hncNvd old new).efu.nvd = x :=
  nvd_of_maskH (State.hncNvd_maskH _ _ _)

/-- The timing count is judged against the NVD delay (R120). -/
theorem nvdTiming_nvd {confirm : Nat} (count : Nat)
    (h : (s.efu.nvd.state = .normal ∧ confirm = 0) ∨ (s.efu.nvd.state = .timing ∧ confirm = s.efu.nvd.confirm)) :
    (s.activeGroup.nvdDelay ≤ count →
      (s.nvdTiming e count).efu.nvd = { state := .displaced, timing := count, confirm := 0 }) ∧
    (count < s.activeGroup.nvdDelay →
      (s.nvdTiming e count).efu.nvd = { state := .timing, timing := count, confirm := confirm }) := by
  rw [nvdTiming_eq count h]
  refine ⟨fun hdelay => ?_, fun hdelay => ?_⟩
  · rw [if_pos hdelay, displacedNow_nvd]
  · rw [if_neg hdelay.not_ge]
    rfl

/-! ### What the hunt is told of a change -/

theorem Moves.displaced (h : Moves s e t) (hold : s.efu.nvd.state = .normal ∨ s.efu.nvd.state = .timing)
    (hnew : t.efu.nvd.state = .displaced) : t = ((s.setNvd t.efu.nvd).hncNvd .timing .displaced).occur fNvdDisplaced 0
      (nvdDetail e.tag e.vn.mag t.efu.nvd.timing s.activeNo) := by
  cases h with
  | @stays x h =>
    have hx : x.state = .displaced := hnew
    rw [hx] at h
    rcases h with h | ⟨-, h⟩
    · rcases hold with hold | hold <;> exact nomatch h.trans hold
    · exact nomatch h
  | falls h =>
    rw [hncNvd_nvd] at hnew
    cases hnew
  | displaces count h =>
    rw [displacedNow_nvd]
    rfl
  | clears h => rcases hold with hold | hold <;> exact nomatch hold.symm.trans h

theorem Moves.cleared (h : Moves s e t) (hold : s.efu.nvd.state = .displaced) (hnew : t.efu.nvd.state = .normal) :
    t = ((s.setNvd t.efu.nvd).hncNvd .displaced .normal).occur fNvdNormal 0
      (nvdDetail e.tag e.vn.mag (min 200 (s.efu.nvd.confirm + 1)) s.activeNo) := by
  cases h with
  | @stays x h =>
    have hx : x.state = .normal := hnew
    rw [hx, hold] at h
    rcases h with h | ⟨-, h⟩ <;> cases h
  | falls h => exact nomatch hold.symm.trans h
  | displaces count h => rcases h with h | h <;> exact nomatch hold.symm.trans h
  | clears h =>
    rw [clearedNow_nvd]
    rfl

theorem Moves.fallen (h : Moves s e t) (hold : s.efu.nvd.state = .timing) (hnew : t.efu.nvd.state = .normal) :
    t = (s.setNvd t.efu.nvd).hncNvd .timing .normal := by
  cases h with
  | @stays x h =>
    have hx : x.state = .normal := hnew
    rw [hx, hold] at h
    rcases h with h | ⟨-, h⟩ <;> cases h
  | falls h => rw [hncNvd_nvd]
  | displaces count h =>
    rw [displacedNow_nvd] at hnew
    cases hnew
  | clears h => exact nomatch hold.symm.trans h

/-! ### The answers of a hunt that has not started -/

section early
variable (hearly : s.hnc.state = .idle ∨ s.hnc.state = .waiting)
include hearly

/-- The start delay starts where the hunt may (R129). -/
theorem hncNvd_displaced_early : s.hncNvd .timing .displaced =
    if s.mayWait .timing .displaced then s.setHnc { s.hnc with state := .waiting, timer := some s.hnc.table.startDelay } else s := by
  have hkeeps : rearmed s .displaced = s := rearmed_other (by decide)
  split
  · next hmay => exact hncNvd_waits hmay
  · next hmay =>
    rcases hearly with hidle | hwaiting
    · exact (hncNvd_state hidle (by rw [hkeeps]; exact Bool.eq_false_iff.mpr hmay)).trans hkeeps
    · exact (hncNvd_waiting hwaiting).trans ((if_neg (by decide)).trans hkeeps)

theorem hncNvd_fallen_early : s.hncNvd .timing .normal = s.setHnc { s.hnc with rearm := true } := by
  rw [← rearmed_normal]
  rcases hearly with hidle | hwaiting
  · exact hncNvd_state hidle (by rw [Bool.eq_false_iff, ne_eq, mayWait_iff]; exact fun ⟨_, h, _⟩ => nomatch h)
  · exact (hncNvd_waiting hwaiting).trans (if_neg (by decide))

end early

theorem hncNvd_cleared_idle (h : s.hnc.state = .idle) : s.hncNvd .displaced .normal = s.setHnc { s.hnc with rearm := true } := by
  rw [← rearmed_normal]
  exact hncNvd_state h (by rw [Bool.eq_false_iff, ne_eq, mayWait_iff]; exact fun ⟨_, h, _⟩ => nomatch h)

theorem hncNvd_cleared_waiting (h : s.hnc.state = .waiting) :
    s.hncNvd .displaced .normal = s.setHnc { s.hnc with state := .idle, timer := none, rearm := true } := by
  refine (hncNvd_waiting h).trans ((if_pos rfl).trans ?_)
  rw [rearmed_normal]
  rfl

/-- An occurrence on a state that has the factors and the channels of another. -/
theorem occurred_of_setHnc {u : State} {x : Hnc} (hu : u = s.setHnc x) (hunarmed : Unarmed s) (hpart : s.mgu.part ≠ .bypass)
    (f : Factor) (d : List Byte) :
    (u.occur f 0 d).fac f = { s.fac f with
      flag := true, count := min 255 ((s.fac f).count + 1),
      firstTime := if (s.fac f).flag then (s.fac f).firstTime else some s.stamp,
      lastDetail := some (detail d) } ∧ ∀ k, k ≠ f → (u.occur f 0 d).fac k = s.fac k := by
  subst hu
  have hclear : Unarmed (s.setHnc x) := hunarmed
  refine ⟨(occur_fac_same hclear hpart f 0 d).trans ?_, fun k hk => occur_fac_other hclear (Ne.symm hk) 0 d⟩
  have hmask : (s.fac f).mask ||| 0 = (s.fac f).mask := BitVec.or_zero
  show (s.fac f).take 0 (detail d) s.stamp = _
  rw [FactorRecord.take, hmask]
  rfl

end evaluation

end Sys2Proof.Proofs.NvdEvaluation

/-! Settling O49: the elements, the NVD element at a bus evaluation, and its change in a running hunt. -/

namespace Sys2Proof.Proofs.ElementSteps
open Sys2Proof.Machine Sys2Proof.Safety Sys2Proof.Proofs.Occurrences Sys2Proof.Proofs.HuntBays Sys2Proof.Proofs.HuntEnd
  Sys2Proof.Proofs.HuntAbort Sys2Proof.Proofs.HuntTimes Sys2Proof.Proofs.NvdAtHunt Sys2Proof.Proofs.HuntFinds
  Sys2Proof.Proofs.NvdEvaluation Sys2Proof.Proofs.ElementArithmetic Sys2Proof.Proofs.Silences

/-! ### A change of the element in a running hunt -/

section hunt
variable {s : State} {old new : NvdState} {b : Bay} {k : Fin 8}

/-- A change into NORMAL leaves re-arm set, whatever else it does (R128). -/
theorem hncNvd_rearm (s : State) (old : NvdState) : (s.hncNvd old .normal).hnc.rearm = true := by
  have harmed : (rearmed s .normal).hnc.rearm = true := by rw [rearmed_normal]; rfl
  have hstays {c : Bool} {u : State} (h : u.hnc.rearm = (rearmed s .normal).hnc.rearm) :
      (if c then u else rearmed s .normal).hnc.rearm = true :=
    ite_both (P := fun t : State => t.hnc.rearm = true) (h.trans harmed) harmed
  have hnew : NvdState.normal ≠ .unknown := by decide
  have hbetween (h : s.hnc.state = .opening ∨ s.hnc.state = .restoring ∨ s.hnc.state = .retestClosing) :
      (s.hncNvd old .normal).hnc.rearm = true := by
    rw [hncNvd_between hnew h]
    exact hstays (abortHuntWith_rearm (by rw [rearmed_state]; exact h) _)
  cases hstate : s.hnc.state with
  | idle =>
    rw [hncNvd_state hstate (by rw [Bool.eq_false_iff, ne_eq, mayWait_iff]; exact fun ⟨_, h, _⟩ => nomatch h)]
    exact harmed
  | waiting =>
    rw [hncNvd_waiting hstate]
    exact hstays rfl
  | aborting =>
    rw [hncNvd_aborting hstate]
    exact harmed
  | dwell =>
    rw [hncNvd_dwell hnew hstate]
    exact hstays (huntFind_rearm _)
  | retestWait =>
    rw [hncNvd_retestWait hnew hstate]
    exact harmed
  | retestDwell =>
    rw [hncNvd_retestDwell hnew hstate]
    exact harmed
  | opening => exact hbetween (.inl hstate)
  | restoring => exact hbetween (.inr (.inl hstate))
  | retestClosing => exact hbetween (.inr (.inr hstate))

/-- A hunt that has ended, and HUNT_END with the bay it names and its reason (R145). -/
def EndedAt (s t : State) (w : HuntResult) (b : Bay) (reason : Byte) : Prop :=
  t.hnc.state = .idle ∧ t.hnc.current = none ∧ t.hnc.timer = none ∧
  t.hnc.last = some { result := w, bay := some b, started := s.hnc.started, ended := s.stamp } ∧
  t.fru.stack = s.fru.stack.filter (fun e => e.origin != .hunt) ∧ (∀ c, (t.rcl c).block.hunt = false) ∧
  (s.mgu.part ≠ .bypass → Unarmed s → (t.fac fHuntEnd).lastDetail =
    some (detail ([byte w.code, byte b.val, byte b.val, reason] ++ bytes32 s.hnc.started ++ bytes32 s.stamp)))

theorem endedAt_of_over {u t : State} {w : HuntResult} {why : LockedBy} (h : HuntOver u t w (some b))
    (hdetail : Unarmed u → u.mgu.part ≠ .bypass → (t.fac fHuntEnd).lastDetail =
      some (detail (endFields w (some b) (some b) why u.hnc.started u.stamp))) : EndedAt u t w b (byte why.code) := by
  obtain ⟨hstate, hlast, hcurrent, htimer, hstack, hhunt⟩ := h
  exact ⟨hstate, hcurrent, htimer, hlast, hstack, hhunt, fun hpart hunarmed => hdetail hunarmed hpart⟩

/-- R137: what the find in DWELL leaves. -/
structure Finds (s : State) (b : Bay) (k : Fin 8) (t : State) : Prop where
  outcome : (t.hnc.cands[k.val]?).map (fun y => y.outcome) = some .found
  counts : t.recd.top = s.recd.top + 1 ∧ t.recd.nextSeq = s.recd.nextSeq + 1 ∧ t.recd.count = min 16 (s.recd.count + 1)
  record : ∃ x, t.recd.ring.look t.recd.top = some x ∧ x.seq = s.recd.nextSeq ∧ x.stamp = s.stamp ∧ x.bay = b ∧
    x.cause = .huntFound ∧ x.shots = (s.rcl b).shots ∧ x.group = s.activeNo ∧ x.level = s.fru.effective
  waits : s.fru.effective.val < s.hnc.table.fireLimit →
    t.hnc = { s.hnc with state := .retestWait, timer := some s.hnc.table.retestDelay,
                         cands := s.hnc.cands.modify k.val (fun c => { c with outcome := .found }) } ∧
    t.bcu = s.bcu ∧ t.rcc = s.rcc ∧ t.fru = s.fru ∧ t.evu = s.evu
  locked : s.hnc.table.fireLimit ≤ s.fru.effective.val → EndedAt s t .foundLocked b 1 ∧ t.hnc.bayOpen = none ∧
    (s.runs b = true → (∀ c, (s.rcl b).state ≠ .lockout c) → (t.rcl b).state = .lockout .huntFound)

theorem finds_huntFind (htest : s.underTest = some b) (hcur : s.hnc.current = some k) : Finds s b k s.huntFind := by
  have hfind := huntFind_eq htest hcur
  have htested := found_underTest htest hcur
  have hlimit : (found s b k).atFireLimit = true ↔ s.hnc.table.fireLimit ≤ s.fru.effective.val := atFireLimit_iff (s := s)
  have hledger : ledger s.huntFind = ledger (found s b k) := by
    rw [hfind]
    exact ite_both (P := fun t : State => ledger t = ledger (found s b k)) (endFoundLocked_ledger _ _ _) rfl
  have hcands : s.huntFind.hnc.cands = s.hnc.cands.modify k.val (fun c => { c with outcome := .found }) := by
    rw [hfind]
    refine ite_both (P := fun t : State => t.hnc.cands = _) ?_ rfl
    rw [endFoundLocked_hnc]
    rfl
  obtain ⟨k', c, hcur', hcand, -⟩ := curCandidate_of_underTest htest
  obtain rfl : k = k' := Option.some.inj (hcur.symm.trans hcur')
  obtain ⟨htop, hseq, hcount⟩ := ledger_top hledger
  obtain ⟨r, hr, hrseq, hrstamp, hrbay, hrcause, hrshots, hrgroup, hrlevel⟩ := found_record s b k
  refine { outcome := ?outcome, counts := ⟨htop, hseq, hcount⟩, record := ?record, waits := fun h => ?waits,
           locked := fun h => ?locked }
  case outcome =>
    have hat : s.hnc.cands[k.val]? = some c := hcand
    rw [hcands, List.getElem?_modify, hat]
    simp
  case record =>
    obtain ⟨x, hx, hbare⟩ := ledger_record hledger hr
    refine ⟨x, (congrArg _ htop).trans hx, (congrArg FaultRecord.seq hbare).trans hrseq,
      (congrArg FaultRecord.stamp hbare).trans hrstamp, (congrArg FaultRecord.bay hbare).trans hrbay,
      (congrArg FaultRecord.cause hbare).trans hrcause, (congrArg FaultRecord.shots hbare).trans hrshots,
      (congrArg FaultRecord.group hbare).trans hrgroup, (congrArg FaultRecord.level hbare).trans hrlevel⟩
  case waits =>
    rw [hfind, if_neg (mt hlimit.mp h.not_ge)]
    exact ⟨rfl, rfl, rfl, rfl, rfl⟩
  case locked =>
    rw [hfind, if_pos (hlimit.mpr h)]
    refine ⟨endedAt_of_over (u := found s b k) (why := .fireLimit) (endFoundLocked_over htested _ _) fun hun hpart =>
      endFoundLocked_detail htested hun hpart _ _, ?_, fun hruns hfree => endFoundLocked_state htested hruns hfree _ _⟩
    rw [endFoundLocked_hnc]
    rfl

/-- R140: what a displacement in RETEST_DWELL leaves. -/
structure Persists (s : State) (b : Bay) (k : Fin 8) (t : State) : Prop where
  ended : EndedAt s t .foundPersistent b 0
  locked : s.runs b = true → (∀ c, (s.rcl b).state ≠ .lockout c) → (t.rcl b).state = .lockout .huntFound
  outcome : (t.hnc.cands[k.val]?).map (fun y => y.outcome) = (s.hnc.cands[k.val]?).map (fun y => y.outcome)
  opens : (s.cap (bayRec b)).inService = true → (s.status (bayRec b)).localMode = false →
    ((s.slot (bayRec b)).state = .free → (s.slot (bayRec b)).pend = Pending.none →
      (t.slot (bayRec b)).state = .inFlight
        { cmd := .opening, tag := nextTag (s.slot (bayRec b)).lastTag, cls := .hunt, issued := s.mono, tripAttached := false,
          timer := 120 }) ∧
    ((s.slot (bayRec b)).state ≠ .free →
      (t.slot (bayRec b)).state = (s.slot (bayRec b)).state ∧ (t.slot (bayRec b)).pend.hunt = some .opening)

theorem persists_foundPersistent (htest : s.underTest = some b) : Persists s b k s.foundPersistent where
  ended := endedAt_of_over (why := .none) (foundPersistent_over htest) fun hun hpart => foundPersistent_detail htest hun hpart
  locked := foundPersistent_locked htest
  outcome := by rw [foundPersistent_hnc htest]; rfl
  opens hserved hlocal := by
    have hjudge := judgeReq_reopen hserved hlocal
    have hreopened := reopened_accepted hjudge
    refine ⟨fun hfree hpend => ?_, fun hbusy => ?_⟩
    · have hissued := State.issueCmd_slot s (bayRec b) .hunt .opening
      rw [← withRequest_of_free hjudge nofun hfree hpend, ← hreopened] at hissued
      exact (foundPersistent_occupied htest (by rw [hissued]; exact nofun) ⟨rfl, rfl⟩).state.trans (congrArg Slot.state hissued)
    · have hwaits : (reopened s b).slot (bayRec b) = _ :=
        (congrArg (fun u : State => u.slot (bayRec b)) (hreopened.trans (withRequest_of_busy hbusy))).trans
          (SlotRules.setPend_slot s (bayRec b) .hunt (some .opening))
      have hocc := foundPersistent_occupied htest hbusy ⟨(congrArg Slot.state hwaits :),
        (congrArg (fun x : Slot => x.pend.hunt) hwaits :)⟩
      exact ⟨hocc.state, hocc.hunt⟩

end hunt

/-! ### One bus evaluation -/

section evaluation
variable {s : State} {e : BusEval}

/-- The latest bus evaluation is stored before the element runs (R11). -/
def taken (s : State) (e : BusEval) : State := { s with meu := { s.meu with latestBus := some e } }

theorem taken_moves (s : State) (e : BusEval) : Moves (taken s e) e (s.takeBusEval e) := nvdEvaluate_moves _ _

theorem occur_hnc (u : State) (f : Factor) (d : List Byte) : (u.occur f 0 d).hnc = u.hnc :=
  State.maskE_hnc (u.occur_maskE f 0 d)

/-- What an occurrence at the evaluation enters in its factor record. -/
def Occurred (s t : State) (f : Factor) (fields : List Byte) : Prop :=
  t.fac f = { s.fac f with
    flag := true, count := min 255 ((s.fac f).count + 1),
    firstTime := if (s.fac f).flag then (s.fac f).firstTime else some s.stamp, lastDetail := some (detail fields) } ∧
  ∀ k, k ≠ f → t.fac k = s.fac k

theorem part_of_judged (hjudged : Judged s) : s.mgu.part ≠ .bypass := by
  rcases (TableWrites.protecting_iff (s := s)).mp hjudged.1 with h | h <;> rw [h] <;> decide

section early
variable (hearly : s.hnc.state = .idle ∨ s.hnc.state = .waiting)
include hearly

theorem takeBusEval_fallen (hold : s.efu.nvd.state = .timing) (hnew : (s.takeBusEval e).efu.nvd.state = .normal) :
    (s.takeBusEval e).hnc = { s.hnc with rearm := true } := by
  have heq := (taken_moves s e).fallen hold hnew
  generalize (s.takeBusEval e).efu.nvd = x at heq
  rw [heq, hncNvd_fallen_early (s := (taken s e).setNvd x) hearly]
  rfl

section judged
variable (hjudged : Judged s)
include hjudged

/-- The element has gone to DISPLACED at a hunt that has not started. -/
theorem takeBusEval_displaced (hold : s.efu.nvd.state = .normal ∨ s.efu.nvd.state = .timing)
    (hnew : (s.takeBusEval e).efu.nvd.state = .displaced) :
    (Unarmed s → Occurred s (s.takeBusEval e) fNvdDisplaced
      (nvdDetail e.tag e.vn.mag (s.takeBusEval e).efu.nvd.timing s.activeNo)) ∧
    (s.takeBusEval e).hnc = if s.mayWait .timing .displaced
      then { s.hnc with state := .waiting, timer := some s.hnc.table.startDelay } else s.hnc := by
  have heq := (taken_moves s e).displaced hold hnew
  generalize (s.takeBusEval e).efu.nvd = x at heq ⊢
  have htold := hncNvd_displaced_early (s := (taken s e).setNvd x) hearly
  have hset : ∃ y, ((taken s e).setNvd x).hncNvd .timing .displaced = ((taken s e).setNvd x).setHnc y ∧
      y = if s.mayWait .timing .displaced then { s.hnc with state := .waiting, timer := some s.hnc.table.startDelay }
        else s.hnc := by
    have hmay : ((taken s e).setNvd x).mayWait .timing .displaced = s.mayWait .timing .displaced := rfl
    rw [htold, hmay]
    cases s.mayWait .timing .displaced with
    | true => exact ⟨_, rfl, rfl⟩
    | false => exact ⟨s.hnc, rfl, rfl⟩
  obtain ⟨y, hy, hval⟩ := hset
  rw [heq, occur_hnc, hy]
  exact ⟨fun hunarmed => occurred_of_setHnc (s := (taken s e).setNvd x) rfl hunarmed (part_of_judged hjudged) _ _, hval⟩

/-- The element has returned to NORMAL from DISPLACED at a hunt that has not started. -/
theorem takeBusEval_cleared (hold : s.efu.nvd.state = .displaced) (hnew : (s.takeBusEval e).efu.nvd.state = .normal) :
    (Unarmed s → Occurred s (s.takeBusEval e) fNvdNormal
      (nvdDetail e.tag e.vn.mag (min 200 (s.efu.nvd.confirm + 1)) s.activeNo)) ∧
    (s.hnc.state = .idle → (s.takeBusEval e).hnc = { s.hnc with rearm := true }) ∧
    (s.hnc.state = .waiting → (s.takeBusEval e).hnc = { s.hnc with state := .idle, timer := none, rearm := true }) := by
  have heq := (taken_moves s e).cleared hold hnew
  generalize (s.takeBusEval e).efu.nvd = x at heq
  have hoccurs {y : Hnc} (hy : ((taken s e).setNvd x).hncNvd .displaced .normal = ((taken s e).setNvd x).setHnc y)
      (hunarmed : Unarmed s) : Occurred s (s.takeBusEval e) fNvdNormal
        (nvdDetail e.tag e.vn.mag (min 200 (s.efu.nvd.confirm + 1)) s.activeNo) := by
    rw [heq]
    exact occurred_of_setHnc (s := (taken s e).setNvd x) hy hunarmed (part_of_judged hjudged) _ _
  refine ⟨fun hunarmed => ?_, fun hidle => ?_, fun hwaiting => ?_⟩
  · rcases hearly with hidle | hwaiting
    · exact hoccurs (hncNvd_cleared_idle (s := (taken s e).setNvd x) hidle) hunarmed
    · exact hoccurs (hncNvd_cleared_waiting (s := (taken s e).setNvd x) hwaiting) hunarmed
  · rw [heq, occur_hnc, hncNvd_cleared_idle (s := (taken s e).setNvd x) hidle]
    rfl
  · rw [heq, occur_hnc, hncNvd_cleared_waiting (s := (taken s e).setNvd x) hwaiting]
    rfl

end judged

end early

end evaluation

/-- Settles O49: each element by its own step, the NVD element by what an evaluation comes to, and its change by the state of the
hunt. -/
theorem elementsStep : Obligations.ElementsStep := by
  refine ⟨fun pickup i count => ⟨fun hout => phiStep_out count hout, fun hpos hin => ?phi⟩,
    fun l t d p i a => ?acc, fun delay count => ⟨rfl, fun hlow hdelay => ?sef, fun hlow => sefStep_counts hlow,
      fun hfull => hfull ▸ sefStep_stands, fun hover => sefStep_operates (by omega) (by omega)⟩,
    fun pickup threshold i v => ?direction, fun s e => ?bus, fun s old new => ?hunt⟩
  case phi =>
    rw [phiStep_in count hpos hin]
    exact ⟨rfl, beq_iff_eq⟩
  case acc =>
    refine ⟨fun hlow hd => (accStep_below hlow).trans (by rw [if_pos hd]),
      fun hlow hd => (accStep_below hlow).trans (by rw [if_neg hd.ne']),
      fun hhigh => ⟨congrArg Prod.fst (accStep_above hhigh), accStep_operates hhigh⟩, accStep_bounded, accStep_rises⟩
  case sef => rw [sefStep_operates hdelay.ge (by omega)]
  case direction =>
    refine ⟨fun hlow => if_pos hlow, fun hhigh hforward => ?_, fun hhigh hnot hreverse => ?_, fun hhigh hnot hsmall => ?_⟩
    all_goals rw [directionOf_measured hhigh]
    · exact if_pos hforward
    · exact (if_neg hnot.not_ge).trans (if_pos hreverse)
    · exact (if_neg hnot.not_ge).trans (if_neg hsmall.not_ge)
  case bus =>
    obtain ⟨x, hmask⟩ := (taken_moves s e).frame
    have hx : (s.takeBusEval e).efu.nvd = x := nvd_of_maskH hmask
    have honly : OnlyHunt ((taken s e).setNvd (s.takeBusEval e).efu.nvd) (s.takeBusEval e) :=
      onlyHunt_of_mask (by rw [hx]; exact hmask)
    refine ⟨honly, ?plain, fun hj => ?judged⟩
    case plain =>
      rintro (hidle | hunknown)
      · exact nvdEvaluate_unjudged (s := taken s e) hidle
      · exact nvdEvaluate_unknown (s := taken s e) hunknown
    case judged =>
      have hjudged : Judged (taken s e) := hj
      refine ⟨fun hn => ?normal, fun ht => ?timing, fun hd => ?displaced, fun hearly => ⟨fun hold hnew => ?rises,
        fun hold hnew => takeBusEval_cleared hearly hj hold hnew, fun hold hnew => takeBusEval_fallen hearly hold hnew⟩,
        (taken_moves s e).displaced, (taken_moves s e).cleared, (taken_moves s e).fallen⟩
      case normal =>
        have heq : s.takeBusEval e = _ := nvdEvaluate_normal hjudged hn
        refine ⟨fun hlow => heq.trans (if_pos hlow), fun hhigh => ?_⟩
        rw [heq.trans (if_neg hhigh.not_gt)]
        exact nvdTiming_nvd (s := taken s e) 1 (.inl ⟨hn, rfl⟩)
      case timing =>
        have heq : s.takeBusEval e = _ := nvdEvaluate_timing hjudged ht
        refine ⟨fun hlow => ?_, fun hhigh => ?_⟩
        · rw [heq.trans (if_pos hlow), hncNvd_nvd]
          rfl
        · rw [heq.trans (if_neg hhigh.not_gt)]
          exact nvdTiming_nvd (s := taken s e) _ (.inr ⟨ht, rfl⟩)
      case displaced =>
        have heq : s.takeBusEval e = _ := nvdEvaluate_displaced hjudged hd
        refine ⟨fun hhigh => ?_, fun hlow hshort => ?_, fun hlow hlong => ?_⟩
        · rw [heq.trans (if_neg hhigh.not_gt)]
          rfl
        · rw [heq.trans ((if_pos hlow).trans (if_neg hshort.not_ge))]
          rfl
        · rw [heq.trans ((if_pos hlow).trans (if_pos hlong)), clearedNow_nvd]
          rfl
      case rises =>
        obtain ⟨hoccurred, hhnc⟩ := takeBusEval_displaced hearly hj hold hnew
        refine ⟨hoccurred, fun hstarts => ?_, fun hnot => ?_⟩
        · exact hhnc.trans (if_pos (mayWait_iff.mpr ⟨rfl, rfl, hstarts⟩))
        · exact hhnc.trans (if_neg fun hmay => hnot (by obtain ⟨-, -, hstarts⟩ := mayWait_iff.mp hmay; exact hstarts))
  case hunt =>
    have hu : rearmed s new = s.setHnc (if new = .normal then { s.hnc with rearm := true } else s.hnc) := rearmed_hnc s new
    have hstate : (if new = .normal then { s.hnc with rearm := true } else s.hnc).state = s.hnc.state := by split <;> rfl
    have hcleared : ¬ (old = .displaced ∧ new = .normal) → (old == .displaced && new == .normal) = false := by simp
    dsimp only
    rw [hstate]
    refine ⟨fun h => h ▸ hncNvd_rearm s old, fun h => (hncNvd_aborting h).trans hu, fun h hnot hnew => ?still,
      fun h hnew => (hncNvd_retestWait hnew h).trans hu,
      fun h hnew hnot => (hncNvd_retestDwell hnew h).trans ((if_neg (by simpa using hnot)).trans hu), fun b k htest hcur => ?tested⟩
    case still =>
      rcases h with hbetween | hdwell
      · exact (hncNvd_between hnew hbetween).trans ((if_neg (by rw [hcleared hnot]; decide)).trans hu)
      · exact (hncNvd_dwell hnew hdwell).trans ((if_neg (by rw [hcleared hnot]; decide)).trans hu)
    case tested =>
      have hnormal : NvdState.normal ≠ .unknown := by decide
      refine ⟨fun h hlost => ?lost, fun h hcleared => ?between, fun h hcleared => ?dwell, fun h hnew => ?persistent⟩
      case lost =>
        subst hlost
        have hfirst : s.hnc.state ≠ .aborting := fun e => by rcases h with (h | h | h) | h | h | h <;> exact nomatch h.symm.trans e
        have hrunning : s.hnc.state.running = true := by rcases h with (h | h | h) | h | h | h <;> rw [h] <;> rfl
        rw [hncNvd_lost hrunning hfirst]
        exact huntAborts_abortHuntWith htest hrunning hfirst _
      case between =>
        obtain ⟨rfl, rfl⟩ := hcleared
        have hfirst : s.hnc.state ≠ .aborting := fun e => by rcases h with h | h | h <;> exact nomatch h.symm.trans e
        have hrunning : s.hnc.state.running = true := by rcases h with h | h | h <;> rw [h] <;> rfl
        have haborts := huntAborts_abortHuntWith (s := s.setHnc { s.hnc with rearm := true }) (b := b) htest hrunning hfirst
          .clearedUnattributed
        rw [hncNvd_between hnormal h, rearmed_normal]
        exact haborts
      case dwell =>
        obtain ⟨rfl, rfl⟩ := hcleared
        have hfinds := finds_huntFind (s := s.setHnc { s.hnc with rearm := true }) (b := b) (k := k) htest hcur
        rw [hncNvd_dwell hnormal h]
        have heq : (if NvdState.displaced == .displaced && NvdState.normal == .normal then (rearmed s .normal).huntFind
            else rearmed s .normal) = (s.setHnc { s.hnc with rearm := true }).huntFind := by rw [rearmed_normal]; rfl
        rw [heq]
        have honly : (s.setHnc { s.hnc with rearm := true }).huntFind.maskH = s.maskH :=
          (closedH_mask s).huntFind (s.setHnc_maskH _ rfl)
        obtain ⟨htop, hseq, hcount⟩ := hfinds.counts
        exact ⟨onlyHunt_of_mask honly, hfinds.outcome, htop, hseq, hcount, hfinds.record, hfinds.waits, hfinds.locked⟩
      case persistent =>
        subst hnew
        have hpersists := persists_foundPersistent (k := k) htest
        have heq : s.hncNvd old .displaced = s.foundPersistent :=
          (hncNvd_retestDwell (by decide) h).trans ((if_pos rfl).trans (by rw [rearmed_other (by decide)]))
        rw [heq]
        exact ⟨onlyHunt_of_mask (foundPersistent_maskH s), hpersists.ended, hpersists.locked, hpersists.outcome, hpersists.opens⟩

end Sys2Proof.Proofs.ElementSteps

/-! What the ends of a hunt, the hunt's answers at the slot under test, and the entry to STANDDOWN keep: a property kept by each of the
few operations they are made of. -/

namespace Sys2Proof.Proofs.ControlSteps
open Sys2Proof.Machine Sys2Proof.Safety Sys2Proof.Proofs.HuntBays Sys2Proof.Proofs.HuntEnd Sys2Proof.Proofs.HuntAbort

/-! ### The end of a hunt (R145) -/

/-- Kept by what the end of a hunt is made of. -/
structure EndSteps (P : State → Prop) : Prop where
  hnc (s : State) (h : Hnc) : P s → P (s.setHnc h)
  lock (s : State) (b : Bay) (c : LockoutCause) : P s → P (s.lock b c)
  stack (s : State) (l : List StackEntry) : P s → P (s.setStack l)
  unhunt (s : State) (b : Bay) : P s → P (s.removeReason b .hunt)
  occur (s : State) (f : Factor) (m : BitVec 9) (d : List Byte) : f ≠ fTrip → P s → P (s.occur f m d)

section ending
variable {P : State → Prop} (hP : EndSteps P) {s : State}
include hP

theorem EndSteps.changeStack {l : List StackEntry} {c : GroupCause} (hs : P s) : P (s.changeStack l c) := by
  have hset := hP.stack s l hs
  have hjudged : P (s.setStack l).rejudgeWaiting := forEach_inv P _ (fun b t ht => ite_both (hP.lock t b _ ht) ht) _ _ hset
  unfold State.changeStack
  exact ite_both hset (hP.occur _ _ _ _ (by decide) hjudged)

theorem EndSteps.removeHunt {keep : Option Bay} (hs : P s) : P (s.removeHunt keep) :=
  forEach_inv P _ (fun b t ht => ite_both ht (hP.unhunt t b ht)) _ _ hs

theorem EndSteps.endHunt {r : HuntResult} {named under : Option Bay} {why : LockedBy} (hs : P s) :
    P (s.endHunt r named under why) := by
  have hremoved : P ((s.setHnc { s.hnc with timer := none }).removeHunt none) := hP.removeHunt (hP.hnc s _ hs)
  unfold State.endHunt
  generalize (s.setHnc { s.hnc with timer := none }).removeHunt none = t at hremoved
  exact hP.occur _ _ _ _ (by decide) (hP.hnc _ _ (hP.changeStack hremoved))

theorem EndSteps.endPending (hs : P s) : P s.endPending := by
  unfold State.endPending
  split
  · exact hP.endHunt hs
  · exact hs

theorem EndSteps.huntLock {c : LockoutCause} (hs : P s) : P (s.huntLock c) := by
  unfold State.huntLock
  split
  · exact hP.hnc _ _ (hP.lock s _ c hs)
  · exact hP.hnc s _ hs

theorem EndSteps.endFoundLocked {c : LockoutCause} {w : LockedBy} (hs : P s) : P (s.endFoundLocked c w) :=
  hP.endHunt (hP.huntLock hs)

theorem EndSteps.setCurOutcome {o : CandOutcome} (hs : P s) : P (s.setCurOutcome o) := by
  unfold State.setCurOutcome
  split
  · exact hP.hnc s _ hs
  · exact hs

theorem EndSteps.abortRestoreFailed (hs : P s) : P s.abortRestoreFailed := by
  rw [abortRestoreFailed_judged]
  refine hP.endPending (hP.huntLock ?_)
  unfold judged
  split
  · exact ite_both (hP.setCurOutcome hs) hs
  · exact hs

end ending

/-! ### The hunt's answers at the slot under test (R133) -/

/-- Kept by a HUNT request that R51 accepts too. -/
structure HuntSteps (P : State → Prop) : Prop extends EndSteps P where
  request (s : State) (n : Rec) (cmd : Command) : cmd = .opening ∨ cmd = .closing → s.judgeReq n .hunt cmd = none → P s →
    P (withRequest s n cmd)

section told
variable {P : State → Prop} (hP : HuntSteps P) {s : State}
include hP

theorem HuntSteps.selectFrom (ks : List (Fin 8)) (hs : P s) : P (State.selectFrom ks s) := by
  induction ks generalizing s with
  | nil => exact hP.endHunt hs
  | cons k ks ih =>
    unfold State.selectFrom
    split
    · exact ih hs
    · split
      · next b _ _ =>
        have htests : P ((s.setHnc { s.hnc with current := some k }).huntTo .opening none) := hP.hnc _ _ (hP.hnc s _ hs)
        dsimp only
        generalize (s.setHnc { s.hnc with current := some k }).huntTo .opening none = t at htests
        cases hjudge : t.judgeReq (bayRec b) .hunt .opening with
        | none =>
          rw [place_accepted hjudge]
          exact hP.request t _ _ (.inl rfl) hjudge htests
        | some code =>
          rw [place_refused hjudge]
          exact ih (hP.hnc _ _ htests)
      · exact ih (hP.hnc s _ hs)
      · exact ih (hP.hnc s _ hs)

theorem HuntSteps.selectNext (hs : P s) : P s.selectNext := hP.selectFrom _ hs

theorem HuntSteps.foundPersistent (hs : P s) : P s.foundPersistent := by
  unfold State.foundPersistent
  split
  · next b _ =>
    refine hP.endHunt (hP.lock _ b _ ?_)
    cases hjudge : s.judgeReq (bayRec b) .hunt .opening with
    | none =>
      rw [place_accepted hjudge]
      exact hP.request s _ _ (.inl rfl) hjudge hs
    | some code =>
      rw [place_refused hjudge]
      exact hs
  · exact hs

theorem HuntSteps.toRetestDwell (hs : P s) : P s.toRetestDwell := by
  have hdwell : P ((s.setBayOpen none).huntTo .retestDwell (some s.curDwell)) := hP.hnc _ _ (hP.hnc s _ hs)
  unfold State.toRetestDwell
  exact ite_both (hP.foundPersistent hdwell) hdwell

theorem HuntSteps.huntCloseTold {o : HuntTold} (hs : P s) : P (s.huntCloseTold o) := by
  unfold State.huntCloseTold
  split
  · exact hP.selectNext (hP.hnc s _ hs)
  · exact hP.selectNext (hP.huntLock (hP.setCurOutcome hs))
  · exact hP.hnc s _ hs
  · exact hP.toRetestDwell hs
  · exact hP.endFoundLocked hs
  · exact hP.hnc s _ hs
  · exact hP.endPending (hP.hnc s _ hs)
  · exact hP.abortRestoreFailed hs
  · exact hP.abortRestoreFailed hs
  · exact hs

theorem HuntSteps.placeHuntClose {b : Bay} (hs : P s) : P (s.placeHuntClose b) := by
  unfold State.placeHuntClose
  cases hjudge : s.judgeReq (bayRec b) .hunt .closing with
  | none =>
    rw [place_accepted hjudge]
    exact hP.request s _ _ (.inr rfl) hjudge hs
  | some code =>
    rw [place_refused hjudge]
    exact hP.huntCloseTold hs

theorem HuntSteps.huntOpenTold {b : Bay} {o : HuntTold} (hs : P s) : P (s.huntOpenTold b o) := by
  unfold State.huntOpenTold
  split
  · exact hP.hnc _ _ (hP.hnc s _ hs)
  · exact hP.selectNext (hP.setCurOutcome hs)
  · exact hP.placeHuntClose (hP.hnc s _ hs)
  · exact hP.endPending (hP.setCurOutcome hs)
  · exact hs

theorem HuntSteps.hncTold {n : Rec} {cmd : Command} {o : HuntTold} {f : Bool} (hs : P s) : P (s.hncTold n cmd o f) := by
  unfold State.hncTold
  split
  · exact ite_both (ite_both (hP.huntCloseTold hs) (hP.huntOpenTold hs)) hs
  · exact hs

end told

/-! ### The entry to STANDDOWN (R62) -/

/-- The hunt does nothing where its CLOSE is turned away with STANDDOWN: the notice of R144 follows. -/
theorem hncTold_standdown (s : State) (n : Rec) (f : Bool) : s.hncTold n .closing .standdown f = s := by
  have hnothing : s.huntCloseTold .standdown = s := by
    unfold State.huntCloseTold
    cases s.hnc.state <;> rfl
  unfold State.hncTold
  split
  · split
    · exact hnothing
    · rfl
  · rfl

theorem isClose_iff {cmd : Command} : cmd.isClose = true ↔ cmd = .closing := by cases cmd <;> simp [Command.isClose]

/-- Kept by what the entry to STANDDOWN is made of. -/
structure StanddownSteps (P : State → Prop) : Prop extends EndSteps P where
  unpend (s : State) (n : Rec) (c : ReqClass) : P s → P (s.setPend n c none)
  result (s : State) (n : Rec) (r : LastResult) : P s → P (s.setResult n r)
  part (s : State) : s.mgu.part = .active → P s → P (s.setPart .standdown)

section standdown
variable {P : State → Prop} (hP : StanddownSteps P) {s : State}
include hP

theorem StanddownSteps.tellRefused {n : Rec} {c : ReqClass} {code : ResultCode} (hcode : code = .standdown) (hs : P s) :
    P (s.tellRefused n c .closing code) := by
  subst hcode
  unfold State.tellRefused
  split
  · exact (hncTold_standdown s n false).symm ▸ hs
  · exact ite_both (P := P) (hP.lock s _ _ hs) hs
  · exact hP.result s n _ hs
  · exact hs

theorem StanddownSteps.withdrawCloses {n : Rec} (hs : P s) : P (s.withdrawCloses n .standdown) := by
  unfold State.withdrawCloses State.withdraw
  generalize otherClasses = cs
  induction cs generalizing s with
  | nil => exact hs
  | cons c cs ih =>
    rw [List.foldl_cons]
    refine ih ?_
    split
    · next cmd _ =>
      split
      · next hclose =>
        obtain rfl := isClose_iff.mp hclose
        exact hP.tellRefused rfl (hP.unpend s n c hs)
      · exact hs
    · exact hs

theorem StanddownSteps.hncStanddown (hs : P s) : P s.hncStanddown := by
  unfold State.hncStanddown
  refine ite_both (P := P) (hP.hnc s _ hs) (ite_both (P := P) (hP.endHunt (hP.hnc _ _ ?_)) hs)
  split
  · exact ite_both (P := P) (hP.unpend s _ _ hs) hs
  · exact hs

/-- Once the part is in STANDDOWN, the rest of the entry. -/
theorem StanddownSteps.enterStanddown_of_set {c : StanddownCause} {n : Rec} (hactive : s.mgu.part = .active)
    (hset : P (s.setPart .standdown)) : P (s.enterStanddown c n) := by
  have hwithdrawn : P (forEach allRecs (fun k u => u.withdrawCloses k .standdown) (s.setPart .standdown)) :=
    forEach_inv P _ (fun k u hu => hP.withdrawCloses hu) _ _ hset
  have hlocked := forEach_inv P (fun b t => if (t.rcl b).state == .dead then t.lock b .standdown else t)
    (fun b t ht => ite_both (hP.lock t b _ ht) ht) allBays _ hwithdrawn
  unfold State.enterStanddown
  rw [if_pos (beq_iff_eq.mpr hactive)]
  exact hP.occur _ _ _ _ (by decide) (hP.hncStanddown hlocked)

theorem StanddownSteps.enterStanddown {c : StanddownCause} {n : Rec} (hs : P s) : P (s.enterStanddown c n) := by
  by_cases hactive : s.mgu.part = .active
  · exact hP.enterStanddown_of_set hactive (hP.part s hactive hs)
  · have hkeeps : s.enterStanddown c n = s := if_neg (mt beq_iff_eq.mp hactive)
    rwa [hkeeps]

end standdown

/-! ### A bay that no LOCKOUT can reach -/

section bay
variable {b : Bay} {st : RecloseState} {sh : Nat}

/-- The reclose state and the shot count of a bay that the RCC does not run, or that is locked out. -/
structure Stays (b : Bay) (st : RecloseState) (sh : Nat) (t : State) : Prop where
  state : (t.rcl b).state = st
  shots : (t.rcl b).shots = sh
  out : t.runs b = false ∨ ∃ c, st = .lockout c

theorem Stays.canLock {t : State} (h : Stays b st sh t) : t.canLock b = false := by
  unfold State.canLock
  rcases h.out with hruns | ⟨c, rfl⟩
  · rw [hruns]
    rfl
  · rw [h.state]
    exact Bool.and_false _

theorem Stays.of_same {s t : State} (h : Stays b st sh s) (hstate : (t.rcl b).state = (s.rcl b).state)
    (hshots : (t.rcl b).shots = (s.rcl b).shots) (hruns : t.runs b = s.runs b) : Stays b st sh t :=
  ⟨hstate.trans h.state, hshots.trans h.shots, h.out.imp_left hruns.trans⟩

theorem unhunt_rcl (s : State) (b d : Bay) : ((s.removeReason d .hunt).rcl b).state = (s.rcl b).state ∧
    ((s.removeReason d .hunt).rcl b).shots = (s.rcl b).shots := by
  unfold State.removeReason State.putReason
  split
  · rw [FireInvariant.rcl_setRcl]
    split
    · next e => subst e; exact ⟨rfl, rfl⟩
    · exact ⟨rfl, rfl⟩
  · exact ⟨rfl, rfl⟩

theorem endSteps_stays (b : Bay) (st : RecloseState) (sh : Nat) : EndSteps (Stays b st sh) where
  hnc _ _ hs := hs.of_same rfl rfl rfl
  lock s d cause hs := by
    by_cases hd : b = d
    · subst hd
      have hkeeps : s.lock b cause = s := if_neg (by rw [hs.canLock]; exact Bool.false_ne_true)
      rwa [hkeeps]
    · have hsame := (s.lock_at d cause).reclose b fun e => hd (SlotRules.bayRec_inj e)
      exact hs.of_same (by rw [hsame]) (by rw [hsame]) (runs_of_maskR (lock_maskR s d cause) b)
  stack _ _ hs := hs.of_same rfl rfl rfl
  unhunt s d hs := hs.of_same (unhunt_rcl s b d).1 (unhunt_rcl s b d).2 (runs_of_maskR (s.removeReason_maskR d .hunt) b)
  occur s f m d _ hs :=
    have hsame := (sameBay_of_maskE (b := b) (s.occur_maskE f m d)).rcl
    hs.of_same (by rw [hsame]) (by rw [hsame]) (runs_of_maskR (State.maskR_of_maskS (State.maskS_of_maskE (s.occur_maskE f m d))) b)

theorem standdownSteps_stays (b : Bay) (st : RecloseState) (sh : Nat) : StanddownSteps (Stays b st sh) where
  toEndSteps := endSteps_stays b st sh
  unpend _ _ _ hs := hs.of_same rfl rfl rfl
  result _ _ _ hs := hs.of_same rfl rfl rfl
  part s hactive hs := hs.of_same rfl rfl (congrArg (· && (s.cap (bayRec b)).inService) (by simp [State.protecting, State.setPart, hactive]))

/-- A bay locked out by the hunt stays so while the hunt goes on. -/
theorem huntSteps_lockout (b : Bay) (c : LockoutCause) : HuntSteps (fun t => (t.rcl b).state = .lockout c) where
  hnc _ _ hs := hs
  lock s d cause hs := ((endSteps_stays b (.lockout c) _).lock s d cause ⟨hs, rfl, .inr ⟨c, rfl⟩⟩).state
  stack _ _ hs := hs
  unhunt s d hs := (unhunt_rcl s b d).1.trans hs
  occur s f m d _ hs := by rwa [(sameBay_of_maskE (s.occur_maskE f m d)).rcl]
  request s n cmd _ _ hs := by
    have hsame : (withRequest s n cmd).rcl b = s.rcl b :=
      SlotRules.issueNext_rcl (s := s.setPend n .hunt (some cmd)) n fun hwaits => nomatch hs.symm.trans hwaits
    rwa [hsame]

end bay

/-! ### Blocks that the end of a hunt leaves as they were -/

section blocks
variable {α : Type} {g : State → α}

/-- A value read from what an entry to LOCKOUT and an occurrence keep, and from neither the hunt, the stack nor the reclose records. -/
theorem endSteps_value (hlock : ∀ s b c, g (s.lock b c) = g s) (hoccur : ∀ s f m d, g (s.occur f m d) = g s)
    (hhnc : ∀ s h, g (s.setHnc h) = g s) (hstack : ∀ s l, g (s.setStack l) = g s) (hrcl : ∀ s b x, g (s.setRcl b x) = g s) (x : α) :
    EndSteps (fun t => g t = x) where
  hnc s h hs := (hhnc s h).trans hs
  lock s b c hs := (hlock s b c).trans hs
  stack s l hs := (hstack s l).trans hs
  unhunt s b hs := ite_both (P := fun t => g t = x) ((hrcl s b _).trans hs) hs
  occur s f m d _ hs := (hoccur s f m d).trans hs

/-- The fault records but for their capture marks. -/
theorem endSteps_ledger (l : Recorder) : EndSteps (fun t => HuntFinds.ledger t = l) :=
  endSteps_value (fun s b c => HuntFinds.ledger_of_maskS (s.lock_maskS b c))
    (fun s f m d => HuntFinds.ledger_of_maskS (State.maskS_of_maskE (s.occur_maskE f m d))) (fun _ _ => rfl) (fun _ _ => rfl)
    (fun _ _ _ => rfl) l

theorem standdownSteps_ledger (l : Recorder) : StanddownSteps (fun t => HuntFinds.ledger t = l) where
  toEndSteps := endSteps_ledger l
  unpend _ _ _ hs := hs
  result _ _ _ hs := hs
  part _ _ hs := hs

/-- The element state with the trip latches, and the backup flag. -/
theorem standdownSteps_protection (p : Pru × Bool) : StanddownSteps (fun t => (t.pru, t.bcu.backupFlag) = p) where
  toEndSteps := endSteps_value (g := fun t => (t.pru, t.bcu.backupFlag))
    (fun s b c => by
      have hmask := State.maskH_of_maskS (s.lock_maskS b c)
      rw [State.maskH_pru hmask, State.maskH_bcu_backupFlag hmask])
    (fun s f m d => by rw [State.maskE_pru (s.occur_maskE f m d), State.maskE_bcu (s.occur_maskE f m d)])
    (fun _ _ => rfl) (fun _ _ => rfl) (fun _ _ _ => rfl) p
  unpend _ _ _ hs := hs
  result _ _ _ hs := hs
  part _ _ hs := hs

theorem standdownSteps_part : StanddownSteps (fun t => t.mgu.part = .standdown) where
  toEndSteps := endSteps_value (g := fun t => t.mgu.part)
    (fun s b c => by rw [State.maskH_mgu (State.maskH_of_maskS (s.lock_maskS b c))])
    (fun s f m d => by rw [State.maskH_mgu (State.maskH_of_maskS (State.maskS_of_maskE (s.occur_maskE f m d)))])
    (fun _ _ => rfl) (fun _ _ => rfl) (fun _ _ _ => rfl) .standdown
  unpend _ _ _ hs := hs
  result _ _ _ hs := hs
  part _ _ _ := rfl

/-- What the entry to STANDDOWN leaves of the element state and the backup flag, and that it takes an ACTIVE part there (R62). -/
theorem enterStanddown_leaves (s : State) (c : StanddownCause) (n : Rec) : (s.enterStanddown c n).pru = s.pru ∧
    (s.enterStanddown c n).bcu.backupFlag = s.bcu.backupFlag ∧
    (s.mgu.part = .active → (s.enterStanddown c n).mgu.part = .standdown) := by
  have hkeeps := (standdownSteps_protection (s.pru, s.bcu.backupFlag)).enterStanddown (s := s) (c := c) (n := n) rfl
  exact ⟨congrArg Prod.fst hkeeps, congrArg Prod.snd hkeeps, fun h => standdownSteps_part.enterStanddown_of_set h rfl⟩

end blocks

/-! ### A slot with a command in flight -/

section slot
variable {s : State} {n : Rec}

/-- What an entry to LOCKOUT can do to a slot with a command in flight: a reclose request leaves it, and the lamp request waits. -/
structure LampMove (x y : Slot) : Prop where
  state : y.state = x.state
  lastTag : y.lastTag = x.lastTag
  lastResult : y.lastResult = x.lastResult
  trip : y.pend.trip = x.pend.trip
  hunt : y.pend.hunt = x.pend.hunt
  management : y.pend.management = x.pend.management
  reclose : x.pend.reclose = none → y.pend.reclose = none
  lamp : y.pend.annunciate = x.pend.annunciate ∨ y.pend.annunciate = some (.indicate .blink)

theorem LampMove.refl (x : Slot) : LampMove x x := ⟨rfl, rfl, rfl, rfl, rfl, rfl, id, .inl rfl⟩

theorem LampMove.trans {x y z : Slot} (h : LampMove x y) (k : LampMove y z) : LampMove x z where
  state := k.state.trans h.state
  lastTag := k.lastTag.trans h.lastTag
  lastResult := k.lastResult.trans h.lastResult
  trip := k.trip.trans h.trip
  hunt := k.hunt.trans h.hunt
  management := k.management.trans h.management
  reclose hx := k.reclose (h.reclose hx)
  lamp := k.lamp.elim (fun e => h.lamp.imp e.trans e.trans) .inr

theorem lockPend_lampMove (s : State) (n : Rec) (b : Bay) (cause : LockoutCause) :
    LampMove (s.slot n) ((s.lockPend b cause).slot n) := by
  by_cases hn : n = bayRec b
  · subst hn
    have hcleared : LampMove (s.slot (bayRec b)) ((s.setPend (bayRec b) .reclose none).slot (bayRec b)) := by
      rw [SlotRules.setPend_slot]
      exact ⟨rfl, rfl, rfl, rfl, rfl, rfl, fun _ => rfl, .inl rfl⟩
    have hlamp (t : State) : LampMove (t.slot (bayRec b)) ((t.pendLamp (bayRec b) .blink).slot (bayRec b)) := by
      unfold State.pendLamp
      split
      · rw [SlotRules.setPend_slot]
        exact ⟨rfl, rfl, rfl, rfl, rfl, rfl, id, .inr rfl⟩
      · exact .refl _
    have hoccur (t : State) (f : Factor) (m : BitVec 9) (d : List Byte) :
        LampMove (t.slot (bayRec b)) ((t.occur f m d).slot (bayRec b)) := by
      rw [(sameBay_of_maskE (t.occur_maskE f m d)).slot]
      exact .refl _
    have hset (x : RecloseRecord) :
        LampMove (s.slot (bayRec b)) (((s.setPend (bayRec b) .reclose none).setRcl b x).slot (bayRec b)) := hcleared
    unfold State.lockPend
    exact ((hset _).trans (hoccur _ _ _ _)).trans (hlamp _)
  · rw [(s.lockPend_at b cause).slots n hn]
    exact .refl _

theorem lock_lampMove (h : (s.slot n).state ≠ .free) (b : Bay) (cause : LockoutCause) :
    LampMove (s.slot n) ((s.lock b cause).slot n) := by
  have hmove := lockPend_lampMove s n b cause
  unfold State.lock
  split
  · by_cases hn : n = bayRec b
    · subst hn
      have hkeeps : (s.lockPend b cause).issueNext (bayRec b) = s.lockPend b cause :=
        if_neg (by rw [BreakerFail.isFree_iff_eq_free, hmove.state]; exact h)
      rw [hkeeps]
      exact hmove
    · rw [(State.issueNext_at _ (bayRec b)).slots n hn]
      exact hmove
  · exact .refl _

/-- The slot has its command in flight, and nothing waits there but a lamp request. -/
structure Quiet (n : Rec) (x : SlotState) (t : State) : Prop where
  state : (t.slot n).state = x
  trip : (t.slot n).pend.trip = none
  hunt : (t.slot n).pend.hunt = none
  reclose : (t.slot n).pend.reclose = none
  management : (t.slot n).pend.management = none
  lamp : (t.slot n).pend.annunciate = none ∨ (t.slot n).pend.annunciate = some (.indicate .blink)

theorem Quiet.of_slot {x : SlotState} {t : State} (h : Quiet n x s) (hslot : t.slot n = s.slot n) : Quiet n x t :=
  ⟨hslot ▸ h.state, hslot ▸ h.trip, hslot ▸ h.hunt, hslot ▸ h.reclose, hslot ▸ h.management, hslot ▸ h.lamp⟩

theorem Quiet.of_move {x : SlotState} {t : State} (h : Quiet n x s) (k : LampMove (s.slot n) (t.slot n)) : Quiet n x t where
  state := k.state.trans h.state
  trip := k.trip.trans h.trip
  hunt := k.hunt.trans h.hunt
  reclose := k.reclose h.reclose
  management := k.management.trans h.management
  lamp := k.lamp.elim (fun e => h.lamp.imp e.trans e.trans) .inr

theorem quiet_of_nothing {x : SlotState} (hstate : (s.slot n).state = x) (hpend : (s.slot n).pend = Pending.none) :
    Quiet n x s where
  state := hstate
  trip := by rw [hpend]; rfl
  hunt := by rw [hpend]; rfl
  reclose := by rw [hpend]; rfl
  management := by rw [hpend]; rfl
  lamp := .inl (by rw [hpend]; rfl)

theorem occur_slot (s : State) (n : Rec) (f : Factor) (m : BitVec 9) (d : List Byte) : (s.occur f m d).slot n = s.slot n :=
  congrArg (fun u : Bcu => u.slots.look n) (State.maskE_bcu (s.occur_maskE f m d))

theorem unhunt_slot (s : State) (n : Rec) (b : Bay) : (s.removeReason b .hunt).slot n = s.slot n := by
  unfold State.removeReason
  split <;> rfl

theorem endSteps_quiet {x : SlotState} (hx : x ≠ .free) : EndSteps (Quiet n x) where
  hnc _ _ hs := hs.of_slot rfl
  lock s b c hs := hs.of_move (lock_lampMove (by rw [hs.state]; exact hx) b c)
  stack _ _ hs := hs.of_slot rfl
  unhunt s b hs := hs.of_slot (unhunt_slot s n b)
  occur s f m d _ hs := hs.of_slot (occur_slot s n f m d)

theorem standdownSteps_quiet {x : SlotState} (hx : x ≠ .free) : StanddownSteps (Quiet n x) where
  toEndSteps := endSteps_quiet hx
  unpend s k c hs := by
    by_cases hk : k = n
    · subst hk
      have hput := SlotRules.setPend_slot s k c none
      obtain ⟨hstate, htrip, hhunt, hreclose, hmanagement, hlamp⟩ := hs
      constructor
      case lamp =>
        rw [hput]
        cases c with
        | annunciate => exact .inl rfl
        | _ => exact hlamp
      all_goals rw [hput]
      · exact hstate
      all_goals cases c <;> first | rfl | assumption
    · exact hs.of_slot ((s.setPend_at k c none).slots n (Ne.symm hk))
  result s k r hs := by
    by_cases hk : k = n
    · subst hk
      have hput : (s.setResult k r).slot k = { s.slot k with lastResult := some r } := State.setSlot_slot _ _ _
      exact ⟨hput ▸ hs.state, hput ▸ hs.trip, hput ▸ hs.hunt, hput ▸ hs.reclose, hput ▸ hs.management, hput ▸ hs.lamp⟩
    · exact hs.of_slot ((s.setResult_at k r).slots n (Ne.symm hk))
  part _ _ hs := hs.of_slot rfl

/-- The slot has its command in flight, and nothing waits there but a lamp request and a HUNT request that can be issued. -/
structure Rests (n : Rec) (x : SlotState) (t : State) : Prop where
  state : (t.slot n).state = x
  trip : (t.slot n).pend.trip = none
  hunt : (t.slot n).pend.hunt = none ∨ (t.slot n).pend.hunt = some .opening ∨
    ((t.slot n).pend.hunt = some .closing ∧ t.closeBlocked n = none)
  reclose : (t.slot n).pend.reclose = none
  management : (t.slot n).pend.management = none
  lamp : (t.slot n).pend.annunciate = none ∨ (t.slot n).pend.annunciate = some (.indicate .blink)

theorem Quiet.rests {x : SlotState} (h : Quiet n x s) : Rests n x s :=
  ⟨h.state, h.trip, .inl h.hunt, h.reclose, h.management, h.lamp⟩

theorem Rests.of_move {x : SlotState} {t : State} (h : Rests n x s) (k : LampMove (s.slot n) (t.slot n))
    (hblocked : t.closeBlocked n = s.closeBlocked n) : Rests n x t where
  state := k.state.trans h.state
  trip := k.trip.trans h.trip
  hunt := by
    rw [k.hunt, hblocked]
    exact h.hunt
  reclose := k.reclose h.reclose
  management := k.management.trans h.management
  lamp := k.lamp.elim (fun e => h.lamp.imp e.trans e.trans) .inr

theorem Rests.of_slot {x : SlotState} {t : State} (h : Rests n x s) (hslot : t.slot n = s.slot n)
    (hblocked : t.closeBlocked n = s.closeBlocked n) : Rests n x t := h.of_move (hslot ▸ .refl _) hblocked

theorem closeBlocked_of_maskH {t : State} (h : t.maskH = s.maskH) (n : Rec) : t.closeBlocked n = s.closeBlocked n := by
  unfold State.closeBlocked State.status
  rw [State.maskH_mgu h, State.maskH_bcu_status h]

theorem closeBlocked_of_judged {c : ReqClass} (h : s.judgeReq n c .closing = none) : s.closeBlocked n = none := by
  unfold State.judgeReq at h
  unfold State.closeBlocked
  split at h
  · cases h
  · by_cases hpart : s.mgu.part = .standdown
    · simp [hpart] at h
    · by_cases hlocal : (s.status n).localMode = true
      · simp [hpart, hlocal] at h
      · by_cases hinterlock : (s.status n).interlock = true
        · simp [hpart, hlocal, hinterlock] at h
        · simp [hpart, hlocal, hinterlock]

theorem huntSteps_rests {x : SlotState} (hx : x ≠ .free) : HuntSteps (Rests n x) where
  hnc _ _ hs := hs.of_slot rfl rfl
  lock s b c hs := hs.of_move (lock_lampMove (by rw [hs.state]; exact hx) b c)
    (closeBlocked_of_maskH (State.maskH_of_maskS (s.lock_maskS b c)) n)
  stack _ _ hs := hs.of_slot rfl rfl
  unhunt s b hs := hs.of_slot (unhunt_slot s n b) (by unfold State.removeReason; split <;> rfl)
  occur s f m d _ hs := hs.of_slot (occur_slot s n f m d)
    (closeBlocked_of_maskH (State.maskH_of_maskS (State.maskS_of_maskE (s.occur_maskE f m d))) n)
  request s k cmd hcmd hjudge hs := by
    have hblocked := closeBlocked_of_maskH (State.maskH_of_maskS (withRequest_maskS s k cmd)) n
    by_cases hk : k = n
    · subst hk
      have hslot : (withRequest s k cmd).slot k = { s.slot k with pend := (s.slot k).pend.set .hunt (some cmd) } := by
        rw [withRequest_of_busy (by rw [hs.state]; exact hx)]
        exact SlotRules.setPend_slot s k _ _
      refine { state := hslot ▸ hs.state, trip := hslot ▸ hs.trip, hunt := ?_, reclose := hslot ▸ hs.reclose,
               management := hslot ▸ hs.management, lamp := hslot ▸ hs.lamp }
      rw [hslot, hblocked]
      rcases hcmd with rfl | rfl
      · exact .inr (.inl rfl)
      · exact .inr (.inr ⟨rfl, closeBlocked_of_judged hjudge⟩)
    · exact hs.of_slot ((withRequest_at s k cmd).slots n (Ne.symm hk)) hblocked

end slot

end Sys2Proof.Proofs.ControlSteps

/-! The end of a command at a slot where nothing else waits (R57): the slot released, a gateway's and the RCC's command, and a trip
confirmed (R37, R69, R74). -/

namespace Sys2Proof.Proofs.CommandEnds
open Sys2Proof.Machine Sys2Proof.Safety Sys2Proof.Proofs.HuntBays Sys2Proof.Proofs.HuntEnd Sys2Proof.Proofs.ControlSteps
  Sys2Proof.Proofs.RecloseTimers

/-! ### The slot released (R57, step 5) -/

section release
variable {s : State} {n : Rec} {x : SlotState}

/-- A slot that rests issues the HUNT request or the lamp request that waits there, if any, and withdraws nothing. -/
theorem issueFrom_rests (h : Rests n x s) : State.issueFrom classOrder n s = (s, none) ∨
    ∃ c cmd, c ≠ .reclose ∧ State.issueFrom classOrder n s = (s.issueCmd n c cmd, none) := by
  have htrip : (s.slot n).pend.get .trip = none := h.trip
  have hreclose : (s.slot n).pend.get .reclose = none := h.reclose
  have hmanagement : (s.slot n).pend.get .management = none := h.management
  unfold classOrder
  rw [State.issueFrom, htrip]
  dsimp only
  rw [State.issueFrom]
  rcases h.hunt with hnone | hopen | ⟨hclose, hblocked⟩
  · rw [show (s.slot n).pend.get .hunt = none from hnone]
    dsimp only
    rw [State.issueFrom, hreclose]
    dsimp only
    rw [State.issueFrom, hmanagement]
    dsimp only
    rw [State.issueFrom]
    rcases h.lamp with hdark | hblink
    · rw [show (s.slot n).pend.get .annunciate = none from hdark]
      exact .inl rfl
    · rw [show (s.slot n).pend.get .annunciate = some (.indicate .blink) from hblink]
      exact .inr ⟨.annunciate, .indicate .blink, by decide, rfl⟩
  · rw [show (s.slot n).pend.get .hunt = some .opening from hopen]
    exact .inr ⟨.hunt, .opening, by decide, rfl⟩
  · rw [show (s.slot n).pend.get .hunt = some .closing from hclose]
    dsimp only
    rw [show (Command.closing == Command.closing) = true from rfl, if_pos rfl, hblocked]
    exact .inr ⟨.hunt, .closing, by decide, rfl⟩

/-- What the release of a slot leaves as it was. -/
structure Released (n : Rec) (s t : State) : Prop where
  mask : t.maskS = s.maskS
  rcc : t.rcc = s.rcc
  only : OnlyAt n s t
  lastResult : (t.slot n).lastResult = (s.slot n).lastResult

/-- The slot with its command ended. -/
def freed (s : State) (n : Rec) : State := s.setSlot n { s.slot n with state := .free }

theorem freed_slot (s : State) (n : Rec) : (freed s n).slot n = { s.slot n with state := .free } := State.setSlot_slot _ _ _

theorem freed_rests (h : Rests n x s) : Rests n .free (freed s n) := by
  have hslot := freed_slot s n
  obtain ⟨hstate, htrip, hhunt, hreclose, hmanagement, hlamp⟩ := h
  constructor <;> rw [hslot]
  case hunt => exact hhunt
  all_goals assumption

theorem issueCmd_released {c : ReqClass} (cmd : Command) (hc : c ≠ .reclose) : Released n s (s.issueCmd n c cmd) where
  mask := by
    have hnothing : ∀ b, (c, recBay n) ≠ (.reclose, some b) := fun b e => hc (congrArg Prod.fst e)
    unfold State.issueCmd
    dsimp only
    split
    · exact absurd rfl hc
    · rfl
  rcc := s.issueCmd_rcc n c cmd hc
  only := s.issueCmd_at n c cmd
  lastResult := by rw [State.issueCmd_slot]; rfl

theorem freeSlot_released (h : Rests n x s) : Released n s (s.freeSlot n) := by
  have hset : Released n s (freed s n) := ⟨rfl, rfl, s.setSlot_at n _, by rw [freed_slot]⟩
  unfold State.freeSlot
  rw [show s.setSlot n { s.slot n with state := .free } = freed s n from rfl]
  rcases issueFrom_rests (freed_rests h) with heq | ⟨c, cmd, hc, heq⟩
  · rw [heq]
    exact hset
  · rw [heq]
    have hissued := issueCmd_released (s := freed s n) (n := n) cmd hc
    exact ⟨hissued.mask.trans hset.mask, hissued.rcc.trans hset.rcc, hset.only.trans hissued.only,
      hissued.lastResult.trans hset.lastResult⟩

theorem freeSlot_nothing (h : (s.slot n).pend = Pending.none) : s.freeSlot n = freed s n := by
  have hpend : ((freed s n).slot n).pend = Pending.none := by rw [freed_slot]; exact h
  unfold State.freeSlot
  rw [show s.setSlot n { s.slot n with state := .free } = freed s n from rfl, State.issueFrom_nothing hpend]

/-- The last result that the end of a command leaves. -/
def resultOf (f : Flight) (o : Told) (now : Word32) : LastResult :=
  { cls := f.cls, cmd := f.cmd, tag := some f.tag, outcome := o.outcome, time := now }

/-- The state whose slot is released: steps 3 and 4 of R57 are done. -/
def resulted (s : State) (n : Rec) (f : Flight) (o : Told) : State := (s.endOccurrence n f o).setResult n (resultOf f o s.stamp)

/-- Steps 3 to 5 of R57. -/
def finished (s : State) (n : Rec) (f : Flight) (o : Told) : State := (resulted s n f o).freeSlot n

theorem endOccurrence_maskE (s : State) (n : Rec) (f : Flight) (o : Told) : (s.endOccurrence n f o).maskE = s.maskE := by
  unfold State.endOccurrence
  cases o with
  | timeout => exact s.occur_maskE _ _ _
  | refused => exact s.occur_maskE _ _ _
  | _ => rfl

theorem stamp_of_maskE {t : State} (h : t.maskE = s.maskE) : t.stamp = s.stamp :=
  stamp_of_maskH (State.maskH_of_maskS (State.maskS_of_maskE h))

theorem commandEnd_eq (s : State) (n : Rec) (f : Flight) (o : Told) :
    s.commandEnd n f o = finished (((s.setOutPlace n none).tellEnd n f o).endTripMark n f o) n f o := by
  unfold State.commandEnd finished resulted resultOf
  dsimp only
  rw [stamp_of_maskE (endOccurrence_maskE _ n f o)]

theorem resulted_slot (s : State) (n : Rec) (f : Flight) (o : Told) :
    (resulted s n f o).slot n = { s.slot n with lastResult := some (resultOf f o s.stamp) } := by
  have hocc : (s.endOccurrence n f o).slot n = s.slot n :=
    congrArg (fun u : Bcu => u.slots.look n) (State.maskE_bcu (endOccurrence_maskE s n f o))
  rw [← hocc]
  exact State.setSlot_slot _ _ _

theorem resulted_released (s : State) (n : Rec) (f : Flight) (o : Told) :
    (resulted s n f o).maskS = s.maskS ∧ (resulted s n f o).rcc = s.rcc ∧ OnlyAt n s (resulted s n f o) ∧
    (resulted s n f o).riu = s.riu := by
  have hocc := endOccurrence_maskE s n f o
  exact ⟨(rfl : _ = (s.endOccurrence n f o).maskS).trans (State.maskS_of_maskE hocc), State.maskE_rcc (t := s.endOccurrence n f o) hocc, (onlyAt_of_maskE hocc).trans (State.setResult_at _ n _),
    State.maskE_riu (t := s.endOccurrence n f o) hocc⟩

theorem resulted_rests (h : Rests n x s) (f : Flight) (o : Told) : Rests n x (resulted s n f o) := by
  have hslot := resulted_slot s n f o
  have hblocked := closeBlocked_of_maskH (State.maskH_of_maskS (resulted_released s n f o).1) n
  obtain ⟨hstate, htrip, hhunt, hreclose, hmanagement, hlamp⟩ := h
  constructor <;> rw [hslot]
  case hunt =>
    rw [hblocked]
    exact hhunt
  all_goals assumption

/-- What the last steps of a command's end leave as they were, at a slot that rests. -/
structure Finished (n : Rec) (r : LastResult) (s t : State) : Prop where
  mask : t.maskS = s.maskS
  rcc : t.rcc = s.rcc
  only : OnlyAt n s t
  lastResult : (t.slot n).lastResult = some r

theorem finished_rests (h : Rests n x s) (f : Flight) (o : Told) : Finished n (resultOf f o s.stamp) s (finished s n f o) := by
  obtain ⟨hmask, hrcc, hat, -⟩ := resulted_released s n f o
  have hreleased := freeSlot_released (resulted_rests h f o)
  refine ⟨hreleased.mask.trans hmask, hreleased.rcc.trans hrcc, hat.trans hreleased.only, hreleased.lastResult.trans ?_⟩
  rw [resulted_slot]

/-- Where nothing waits, the slot is FREE after it. -/
theorem finished_nothing (h : (s.slot n).pend = Pending.none) (f : Flight) (o : Told) :
    (finished s n f o).slot n = { s.slot n with state := .free, lastResult := some (resultOf f o s.stamp) } ∧
    (finished s n f o).riu = s.riu := by
  have hpend : ((resulted s n f o).slot n).pend = Pending.none := by rw [resulted_slot]; exact h
  unfold finished
  rw [freeSlot_nothing hpend]
  refine ⟨?_, (resulted_released s n f o).2.2.2⟩
  rw [freed_slot, resulted_slot]

end release

/-! ### A command with no trip: a gateway's, a lamp's and the RCC's (R57, R74) -/

section untripped
variable {s : State} {n : Rec} {f : Flight} {o : Told}

/-- The command's frame withdrawn (R183). -/
def unsent (s : State) (n : Rec) : State := s.setOutPlace n none

theorem unsent_out (s : State) (n : Rec) : (unsent s n).riu.outPlaces.look n = none := Vector.look_put_same _ _ _

theorem endTripMark_untripped (u : State) (h : f.tripAttached = false) : u.endTripMark n f o = u :=
  if_neg (by rw [h]; exact Bool.false_ne_true)

theorem commandEnd_untripped (h : f.tripAttached = false) :
    s.commandEnd n f o = finished ((unsent s n).tellEnd n f o) n f o := by
  rw [commandEnd_eq, endTripMark_untripped _ h, unsent]

/-- The slot FREE with the result of its command, its out-place empty. -/
def Freed (s t : State) (n : Rec) (r : LastResult) : Prop :=
  t.slot n = { s.slot n with state := .free, lastResult := some r } ∧ t.riu.outPlaces.look n = none

variable (hpend : (s.slot n).pend = Pending.none)
include hpend

/-- The release of a slot whose waiting requests, frame and stamp are those of `s`. -/
theorem freed_of_told {u : State} (hslot : u.slot n = s.slot n) (hout : u.riu.outPlaces.look n = none)
    (hstamp : u.stamp = s.stamp) : Freed s (finished u n f o) n (resultOf f o s.stamp) := by
  obtain ⟨hfree, hriu⟩ := finished_nothing (s := u) (hslot ▸ hpend) f o
  refine ⟨?_, by rw [hriu]; exact hout⟩
  rw [hfree, hslot, hstamp]

/-- The end of a command whose requester is told nothing, or by its last result alone. -/
theorem commandEnd_silent {x : SlotState} (hstate : (s.slot n).state = x) (htrip : f.tripAttached = false)
    (hcls : f.cls = .management ∨ f.cls = .annunciate) :
    Freed s (s.commandEnd n f o) n (resultOf f o s.stamp) ∧ (s.commandEnd n f o).maskS = s.maskS ∧
    OnlyAt n s (s.commandEnd n f o) ∧ (s.commandEnd n f o).rcc = s.rcc := by
  have htold : (unsent s n).tellEnd n f o = unsent s n := by
    unfold State.tellEnd
    rcases hcls with h | h <;> rw [h]
  have hend := finished_rests (s := unsent s n) (quiet_of_nothing (s := unsent s n) hstate hpend).rests f o
  rw [commandEnd_untripped htrip, htold]
  exact ⟨freed_of_told hpend rfl (unsent_out s n) rfl, hend.mask, (s.setOutPlace_at n none).trans hend.only, hend.rcc⟩

end untripped

section reclose
variable {s : State} {b : Bay} {f : Flight} {o : Told}

theorem tellEnd_reclose (u : State) (hcls : f.cls = .reclose) : u.tellEnd (bayRec b) f o = u.rccTold b o := by
  unfold State.tellEnd
  rw [hcls, recBay_bayRec]

/-- What the RCC is told of its CLOSE (R74). -/
theorem rccTold_done (h : (s.rcl b).state = .closing .issued) : s.rccTold b .done = s.startReclaim b (s.rcl b).shots := by
  unfold State.rccTold
  dsimp only
  rw [h]

theorem rccTold_failed (h : (s.rcl b).state = .closing .issued) (ho : o = .refused ∨ o = .timeout) :
    s.rccTold b o = s.lock b .closeFailed := by
  unfold State.rccTold
  dsimp only
  rw [h]
  rcases ho with rfl | rfl <;> rfl

theorem rccTold_other (h : (s.rcl b).state ≠ .closing .issued) (ho : o ≠ .superseded) : s.rccTold b o = s := by
  unfold State.rccTold
  dsimp only
  split
  · exact absurd ‹_› h
  · exact absurd ‹_› h
  · exact absurd ‹_› h
  · exact absurd rfl ho
  · rfl

theorem startReclaim_rcl (s : State) (b : Bay) (k : Nat) : (s.startReclaim b k).rcl b = { s.rcl b with
    state := .reclaim, shots := k, deadTimer := none, springTimer := none, reclaimTimer := .running (s.setting b fReclaim) } :=
  State.setRcl_rcl s b _

/-- The ends of the RCC's CLOSE at a slot where nothing else waits (R74). -/
structure CloseEnds (s : State) (b : Bay) (f : Flight) (o : Told) (t : State) : Prop where
  mask : t.maskS = s.maskS
  only : OnlyAt (bayRec b) s t
  done : o = .done → (s.rcl b).state = .closing .issued → Freed s t (bayRec b) (resultOf f o s.stamp) ∧
    t.rcl b = { s.rcl b with state := .reclaim, deadTimer := none, springTimer := none,
                             reclaimTimer := .running (s.setting b fReclaim) }
  failed : o = .refused ∨ o = .timeout → (s.rcl b).state = .closing .issued → s.runs b = true →
    t.rcl b = lockedOut (s.rcl b) .closeFailed
  other : (s.rcl b).state ≠ .closing .issued → Freed s t (bayRec b) (resultOf f o s.stamp) ∧ t.rcl b = s.rcl b

theorem rcl_of_rcc {t : State} (h : t.rcc = s.rcc) : t.rcl b = s.rcl b := congrArg (fun v => Vector.look v b) h

theorem commandEnd_reclose {x : SlotState} (hx : x ≠ .free) (hstate : (s.slot (bayRec b)).state = x)
    (hpend : (s.slot (bayRec b)).pend = Pending.none) (hcls : f.cls = .reclose) (htrip : f.tripAttached = false)
    (ho : o ≠ .superseded) : CloseEnds s b f o (s.commandEnd (bayRec b) f o) := by
  have hquiet : Quiet (bayRec b) x (unsent s (bayRec b)) := quiet_of_nothing (s := unsent s (bayRec b)) hstate hpend
  have hunsent : OnlyAt (bayRec b) s (unsent s (bayRec b)) := s.setOutPlace_at _ none
  have hends {u : State} (htold : (unsent s (bayRec b)).rccTold b o = u) (hu : Quiet (bayRec b) x u)
      (hmask : u.maskS = (unsent s (bayRec b)).maskS) (hat : OnlyAt (bayRec b) (unsent s (bayRec b)) u) :
      s.commandEnd (bayRec b) f o = finished u (bayRec b) f o ∧
      Finished (bayRec b) (resultOf f o u.stamp) u (finished u (bayRec b) f o) ∧ u.maskS = s.maskS ∧ OnlyAt (bayRec b) s u := by
    refine ⟨?_, finished_rests hu.rests f o, hmask, hunsent.trans hat⟩
    rw [commandEnd_untripped htrip, tellEnd_reclose _ hcls, htold]
  by_cases hissued : (s.rcl b).state = .closing .issued
  · by_cases hdone : o = .done
    · subst hdone
      have hset : OnlyAt (bayRec b) (unsent s (bayRec b)) ((unsent s (bayRec b)).startReclaim b (s.rcl b).shots) :=
        State.setRcl_at _ b _
      have htold := rccTold_done (s := unsent s (bayRec b)) hissued
      have hmask := State.rccTold_maskS (unsent s (bayRec b)) b .done
      rw [htold] at hmask
      obtain ⟨heq, hfin, hmasked, hat⟩ := hends htold (hquiet.of_slot rfl) hmask hset
      rw [heq]
      refine ⟨hfin.mask.trans hmasked, hat.trans hfin.only, fun _ _ => ⟨freed_of_told hpend rfl (unsent_out s _) rfl, ?_⟩,
        fun h => (by rcases h with h | h <;> cases h), fun h => absurd hissued h⟩
      rw [rcl_of_rcc hfin.rcc, startReclaim_rcl]
      rfl
    · have hfails : o = .refused ∨ o = .timeout := by cases o <;> simp_all
      have htold := rccTold_failed (s := unsent s (bayRec b)) hissued hfails
      obtain ⟨heq, hfin, hmasked, hat⟩ := hends htold ((endSteps_quiet hx).lock _ b _ hquiet) (State.lock_maskS _ b _)
        (State.lock_at _ b _)
      rw [heq]
      refine ⟨hfin.mask.trans hmasked, hat.trans hfin.only, fun h => absurd h hdone, fun _ _ hruns => ?_, fun h => absurd hissued h⟩
      rw [rcl_of_rcc hfin.rcc]
      exact lock_rcl (s := unsent s (bayRec b)) hruns (fun c e => nomatch hissued.symm.trans e) _
  · have htold := rccTold_other (s := unsent s (bayRec b)) hissued ho
    obtain ⟨heq, hfin, hmasked, hat⟩ := hends htold hquiet rfl (.refl _ _)
    rw [heq]
    refine ⟨hfin.mask.trans hmasked, hat.trans hfin.only, fun _ h => absurd h hissued, fun _ h => absurd h hissued,
      fun _ => ⟨freed_of_told hpend rfl (unsent_out s _) rfl, ?_⟩⟩
    rw [rcl_of_rcc hfin.rcc]
    rfl

end reclose

/-! ### A trip confirmed (R37, R69) -/

section confirm
variable {s : State} {b : Bay} {cause : TripCause}

/-- The reclose record with its timers stopped and no request at the slot: the start of the decision of R69. -/
def decided (s : State) (b : Bay) : State :=
  (s.setPend (bayRec b) .reclose none).setRcl b (s.rcl b).stopTimers

theorem decided_rcl (s : State) (b : Bay) : (decided s b).rcl b = (s.rcl b).stopTimers := State.setRcl_rcl _ b _

theorem decided_at (s : State) (b : Bay) : OnlyAt (bayRec b) s (decided s b) := (s.setPend_at _ _ _).trans (State.setRcl_at _ b _)

/-- The bay is blocked, or trips by SEF with no reclose for it (R69). -/
def Blocked (s : State) (b : Bay) (cause : TripCause) : Prop :=
  (s.rcl b).block.code ≠ 0 ∨ (cause = .sef ∧ s.setting b fSefReclose = 0)

theorem blockCode_ne_zero {x : BlockSet} : x.code ≠ 0 ↔ x.isEmpty = false := by
  obtain ⟨f, h, m, l, i, c⟩ := x
  cases f <;> cases h <;> cases m <;> cases l <;> cases i <;> cases c <;> decide

theorem protectionOpening_locked (h : s.canLock b = false) : s.protectionOpening b cause = s :=
  if_neg (by rw [h]; exact Bool.false_ne_true)

section decision
variable (h : s.canLock b = true)
include h

theorem protectionOpening_decides : s.protectionOpening b cause =
    if !(s.rcl b).block.isEmpty then (decided s b).lock b .protectionBlocked
    else if cause == .sef && s.setting b fSefReclose == 0 then (decided s b).lock b .protectionBlocked
    else if s.effShots b ≤ (s.rcl b).shots then (decided s b).lock b .shotsExhausted
    else if s.mgu.part == .standdown then (decided s b).lock b .standdown
    else (decided s b).setRcl b { (s.rcl b).stopTimers with
      state := .dead, deadTimer := some (s.setting b (fDead (s.rcl b).shots)) } := by
  unfold State.protectionOpening
  rw [if_pos h]
  dsimp only
  rw [show ((s.setPend (bayRec b) .reclose none).setRcl b ((s.setPend (bayRec b) .reclose none).rcl b).stopTimers) =
    decided s b from rfl, decided_rcl]
  rfl

theorem protectionOpening_blocked (hblocked : Blocked s b cause) :
    s.protectionOpening b cause = (decided s b).lock b .protectionBlocked := by
  rw [protectionOpening_decides h]
  by_cases hempty : (s.rcl b).block.isEmpty = true
  · have hsef := hblocked.resolve_left fun hcode => by rw [blockCode_ne_zero, hempty] at hcode; cases hcode
    exact (if_neg (by rw [hempty]; decide)).trans (if_pos (by simpa using hsef))
  · exact if_pos (by simpa using hempty)

variable (hfree : ¬ Blocked s b cause)
include hfree

theorem protectionOpening_goesOn : s.protectionOpening b cause =
    if s.effShots b ≤ (s.rcl b).shots then (decided s b).lock b .shotsExhausted
    else if s.mgu.part == .standdown then (decided s b).lock b .standdown
    else (decided s b).setRcl b { (s.rcl b).stopTimers with
      state := .dead, deadTimer := some (s.setting b (fDead (s.rcl b).shots)) } := by
  obtain ⟨hcode, hsef⟩ := not_or.mp hfree
  have hempty : (s.rcl b).block.isEmpty = true := by simpa using mt blockCode_ne_zero.mpr hcode
  rw [protectionOpening_decides h]
  exact (if_neg (by rw [hempty]; decide)).trans (if_neg (by simpa using hsef))

theorem protectionOpening_exhausted (hshots : s.effShots b ≤ (s.rcl b).shots) :
    s.protectionOpening b cause = (decided s b).lock b .shotsExhausted := by
  rw [protectionOpening_goesOn h hfree, if_pos hshots]

variable (hshots : (s.rcl b).shots < s.effShots b)
include hshots

theorem protectionOpening_standdown (hpart : s.mgu.part = .standdown) :
    s.protectionOpening b cause = (decided s b).lock b .standdown := by
  rw [protectionOpening_goesOn h hfree, if_neg hshots.not_ge, if_pos (beq_iff_eq.mpr hpart)]

theorem protectionOpening_dead (hpart : s.mgu.part ≠ .standdown) :
    s.protectionOpening b cause = (decided s b).setRcl b { (s.rcl b).stopTimers with
      state := .dead, deadTimer := some (s.setting b (fDead (s.rcl b).shots)) } := by
  rw [protectionOpening_goesOn h hfree, if_neg hshots.not_ge, if_neg (mt beq_iff_eq.mp hpart)]

end decision

/-- What every outcome of the decision has, an entry to LOCKOUT or the entry to DEAD. -/
theorem protectionOpening_keeps {P : State → Prop} (hs : P s) (hlock : ∀ c, P ((decided s b).lock b c))
    (hdead : P ((decided s b).setRcl b { (s.rcl b).stopTimers with
      state := .dead, deadTimer := some (s.setting b (fDead (s.rcl b).shots)) })) : P (s.protectionOpening b cause) := by
  cases h : s.canLock b with
  | false => rwa [protectionOpening_locked h]
  | true =>
    rw [protectionOpening_decides h]
    exact ite_both (P := P) (hlock _) (ite_both (P := P) (hlock _) (ite_both (P := P) (hlock _) (ite_both (P := P) (hlock _) hdead)))

theorem decided_locked (h : s.canLock b = true) (c : LockoutCause) : ((decided s b).lock b c).rcl b = lockedOut (s.rcl b) c := by
  have hlock : (decided s b).canLock b = true := by
    have hstate : ((decided s b).rcl b).state = (s.rcl b).state := by rw [decided_rcl]; rfl
    unfold State.canLock
    rw [hstate]
    exact h
  rw [State.lock_rcl hlock, decided_rcl]
  rfl

/-- A confirmed trip at a slot where nothing else waits: the latch clears, and the reclose decision follows. -/
structure TripConfirmed (s : State) (b : Bay) (cause : TripCause) (r : LastResult) (t : State) : Prop where
  latch : t.elem b = { s.elem b with latch := none }
  others : ∀ c, c ≠ b → t.elem c = s.elem c
  only : OnlyAt (bayRec b) s t
  hnc : t.hnc = s.hnc
  fru : t.fru = s.fru
  lastResult : (t.slot (bayRec b)).lastResult = some r
  out : s.canLock b = false → t.rcl b = s.rcl b
  blocked : s.canLock b = true → Blocked s b cause → t.rcl b = lockedOut (s.rcl b) .protectionBlocked
  exhausted : s.canLock b = true → ¬ Blocked s b cause → s.effShots b ≤ (s.rcl b).shots →
    t.rcl b = lockedOut (s.rcl b) .shotsExhausted
  standdown : s.canLock b = true → ¬ Blocked s b cause → (s.rcl b).shots < s.effShots b → s.mgu.part = .standdown →
    t.rcl b = lockedOut (s.rcl b) .standdown
  dead : s.canLock b = true → ¬ Blocked s b cause → (s.rcl b).shots < s.effShots b → s.mgu.part ≠ .standdown →
    Freed s t (bayRec b) r ∧ t.rcl b = { s.rcl b with state := .dead, deadTimer := some (s.setting b (fDead (s.rcl b).shots)),
                                                       springTimer := none, reclaimTimer := .stopped }

variable {f : Flight}

theorem tellEnd_silent (u : State) (hcls : f.cls = .trip ∨ f.cls = .management) (n : Rec) (o : Told) : u.tellEnd n f o = u := by
  unfold State.tellEnd
  rcases hcls with h | h <;> rw [h]

theorem commandEnd_confirmed (hcls : f.cls = .trip ∨ f.cls = .management) (htrip : f.tripAttached = true)
    (hlatch : (s.elem b).latch = some cause) : s.commandEnd (bayRec b) f .done =
      finished (((unsent s (bayRec b)).protectionOpening b cause).clearLatch b) (bayRec b) f .done := by
  have hconfirm : (unsent s (bayRec b)).endTripMark (bayRec b) f .done = (unsent s (bayRec b)).confirmTrip b := by
    unfold State.endTripMark
    rw [if_pos htrip, recBay_bayRec]
  have hlatched : ((unsent s (bayRec b)).elem b).latch = some cause := hlatch
  rw [commandEnd_eq, tellEnd_silent _ hcls, ← unsent, hconfirm, State.confirmTrip, hlatched]

section outcome
variable {x : SlotState} (hx : x ≠ .free)
include hx

/-- What the decision leaves of the slot with its command still in place. -/
theorem protectionOpening_quiet (h : Quiet (bayRec b) x s) : Quiet (bayRec b) x (s.protectionOpening b cause) := by
  have hdecided : Quiet (bayRec b) x (decided s b) := ((standdownSteps_quiet hx).unpend _ (bayRec b) .reclose h).of_slot rfl
  exact protectionOpening_keeps h (fun c => (endSteps_quiet hx).lock _ b c hdecided) (hdecided.of_slot rfl)

end outcome

theorem protectionOpening_at (s : State) (b : Bay) (cause : TripCause) : OnlyAt (bayRec b) s (s.protectionOpening b cause) :=
  protectionOpening_keeps (.refl _ s) (fun c => (decided_at s b).trans (State.lock_at _ b c))
    ((decided_at s b).trans (State.setRcl_at _ b _))

theorem decided_slot (hpend : (s.slot (bayRec b)).pend = Pending.none) : (decided s b).slot (bayRec b) = s.slot (bayRec b) := by
  have hset : (decided s b).slot (bayRec b) = _ := SlotRules.setPend_slot s (bayRec b) .reclose none
  rw [hset, hpend, Pending.none_set, ← hpend]

/-- The latch cleared touches one bay's elements alone. -/
theorem clearLatch_elem (u : State) (b c : Bay) :
    (u.clearLatch b).elem c = if b = c then { u.elem b with latch := none } else u.elem c := State.setElem_elem_at u b _ c

theorem clearLatch_at (n : Rec) (u : State) (b : Bay) : OnlyAt n u (u.clearLatch b) :=
  ⟨fun _ _ => rfl, fun _ _ => rfl, fun _ _ => rfl⟩

theorem tripConfirmed_commandEnd {x : SlotState} (hx : x ≠ .free) (hstate : (s.slot (bayRec b)).state = x)
    (hpend : (s.slot (bayRec b)).pend = Pending.none) (hcls : f.cls = .trip ∨ f.cls = .management)
    (htrip : f.tripAttached = true) (hlatch : (s.elem b).latch = some cause) :
    TripConfirmed s b cause (resultOf f .done s.stamp) (s.commandEnd (bayRec b) f .done) := by
  rw [commandEnd_confirmed hcls htrip hlatch]
  have hquiet : Quiet (bayRec b) x (unsent s (bayRec b)) := quiet_of_nothing (s := unsent s (bayRec b)) hstate hpend
  have hmask : ((unsent s (bayRec b)).protectionOpening b cause).maskS = s.maskS := State.protectionOpening_maskS _ b cause
  have hat : OnlyAt (bayRec b) s (((unsent s (bayRec b)).protectionOpening b cause).clearLatch b) :=
    ((s.setOutPlace_at _ none).trans (protectionOpening_at (unsent s (bayRec b)) b cause)).trans (clearLatch_at _ _ b)
  have hrests := Quiet.rests (Quiet.of_slot (t := ((unsent s (bayRec b)).protectionOpening b cause).clearLatch b)
    (protectionOpening_quiet (cause := cause) hx hquiet) rfl)
  have hfin := finished_rests hrests f .done
  have hfreed {v : State} (hv : (unsent s (bayRec b)).protectionOpening b cause = v) (hslot : v.slot (bayRec b) = s.slot (bayRec b))
      (hout : v.riu.outPlaces.look (bayRec b) = none) (hstamp : v.stamp = s.stamp) :
      Freed s (finished (((unsent s (bayRec b)).protectionOpening b cause).clearLatch b) (bayRec b) f .done) (bayRec b)
        (resultOf f .done s.stamp) := by
    rw [hv]
    exact freed_of_told (u := v.clearLatch b) hpend hslot hout hstamp
  have hrcl : (finished (((unsent s (bayRec b)).protectionOpening b cause).clearLatch b) (bayRec b) f .done).rcl b =
      ((unsent s (bayRec b)).protectionOpening b cause).rcl b := rcl_of_rcc hfin.rcc
  have helem (c : Bay) : (finished (((unsent s (bayRec b)).protectionOpening b cause).clearLatch b) (bayRec b) f .done).elem c =
      if b = c then { s.elem b with latch := none } else s.elem c := by
    have hkeeps (d : Bay) : ((unsent s (bayRec b)).protectionOpening b cause).elem d = s.elem d :=
      congrArg (fun p : Pru => p.elem.look d) (State.maskH_pru (State.maskH_of_maskS hmask))
    rw [← hkeeps, ← hkeeps, ← clearLatch_elem]
    exact congrArg (fun p : Pru => p.elem.look c) (State.maskH_pru (State.maskH_of_maskS hfin.mask))
  have hstamp : ((unsent s (bayRec b)).protectionOpening b cause).stamp = s.stamp := stamp_of_maskH (State.maskH_of_maskS hmask)
  refine { latch := (helem b).trans (if_pos rfl), others := fun c hc => (helem c).trans (if_neg (Ne.symm hc)),
           only := hat.trans hfin.only, hnc := (State.maskS_hnc hfin.mask).trans (State.maskS_hnc hmask :),
           fru := (State.maskS_fru hfin.mask).trans (State.maskS_fru hmask :),
           lastResult := hfin.lastResult.trans (congrArg (fun now => some (resultOf f .done now)) hstamp),
           out := fun h => ?_, blocked := fun h hb => ?_, exhausted := fun h hb hs => ?_, standdown := fun h hb hs hp => ?_,
           dead := fun h hb hs hp => ⟨?_, ?_⟩ }
  · rw [hrcl, protectionOpening_locked (s := unsent s (bayRec b)) h]
    rfl
  · rw [hrcl, protectionOpening_blocked (s := unsent s (bayRec b)) h hb, decided_locked (s := unsent s (bayRec b)) h]
    rfl
  · rw [hrcl, protectionOpening_exhausted (s := unsent s (bayRec b)) h hb hs, decided_locked (s := unsent s (bayRec b)) h]
    rfl
  · rw [hrcl, protectionOpening_standdown (s := unsent s (bayRec b)) h hb hs hp, decided_locked (s := unsent s (bayRec b)) h]
    rfl
  · exact hfreed (protectionOpening_dead (s := unsent s (bayRec b)) h hb hs hp)
      (decided_slot (s := unsent s (bayRec b)) hpend) (unsent_out s _) rfl
  · rw [hrcl, protectionOpening_dead (s := unsent s (bayRec b)) h hb hs hp]
    exact State.setRcl_rcl _ b _

end confirm

end Sys2Proof.Proofs.CommandEnds

/-! A failed trip (R60, R61): the TRIP request at the incomer, the backup or STANDDOWN, and the record. -/

namespace Sys2Proof.Proofs.TripFailures
open Sys2Proof.Machine Sys2Proof.Safety Sys2Proof.Proofs.HuntBays Sys2Proof.Proofs.HuntEnd Sys2Proof.Proofs.ControlSteps
  Sys2Proof.Proofs.RecloseTimers Sys2Proof.Proofs.CommandEnds Sys2Proof.Proofs.HuntFinds

/-! ### A TRIP request at the incomer (R53, R60) -/

section incomer
variable {s : State}

theorem bayRec_ne_incomer (b : Bay) : bayRec b ≠ 8 := by
  revert b
  decide

theorem exists_bay {n : Rec} (h : n ≠ 8) : ∃ b, n = bayRec b :=
  let ⟨b, hb⟩ := Fin.exists_castSucc_eq.mpr h
  ⟨b, hb.symm⟩

theorem recBay_incomer : recBay 8 = none := rfl

/-- No hunt tests the incomer. -/
theorem hncTold_incomer (s : State) (cmd : Command) (o : HuntTold) (f : Bool) : s.hncTold 8 cmd o f = s := by
  unfold State.hncTold
  split
  · next b _ => exact if_neg (by simp [bayRec_ne_incomer b])
  · rfl

/-- What acts on the incomer's slot and out-place alone. -/
structure AtIncomer (s t : State) : Prop where
  mask : t.maskS = s.maskS
  only : OnlyAt 8 s t

theorem AtIncomer.refl (s : State) : AtIncomer s s := ⟨rfl, .refl _ s⟩

theorem AtIncomer.trans {t u : State} (h : AtIncomer s t) (k : AtIncomer t u) : AtIncomer s u :=
  ⟨k.mask.trans h.mask, h.only.trans k.only⟩

theorem setSlot_incomer (s : State) (x : Slot) : AtIncomer s (s.setSlot 8 x) := ⟨rfl, s.setSlot_at 8 x⟩

theorem supersede_incomer (s : State) : AtIncomer s (s.supersede 8) := by
  have hout : AtIncomer s ((s.setSlot 8 { s.slot 8 with state := .free }).setOutPlace 8 none) :=
    ⟨rfl, (s.setSlot_at 8 _).trans (State.setOutPlace_at _ 8 none)⟩
  have hissued := issueCmd_released (s := (s.setSlot 8 { s.slot 8 with state := .free }).setOutPlace 8 none) (n := 8) (c := .trip)
    .opening (by decide)
  exact hout.trans ⟨hissued.mask, hissued.only⟩

theorem tellFlightSuperseded_incomer (s : State) (f : Flight) : AtIncomer s (s.tellFlightSuperseded 8 f) := by
  unfold State.tellFlightSuperseded
  split
  · rw [hncTold_incomer]
    exact .refl s
  · next h => cases h
  · exact setSlot_incomer s _
  · split
    · exact .refl s
    · exact setSlot_incomer s _
  · exact .refl s

theorem takeTrip_incomer (s : State) : AtIncomer s (s.takeTrip 8) := by
  have hsupersedes (f : Flight) : AtIncomer s ((s.supersede 8).tellFlightSuperseded 8 f) :=
    (supersede_incomer s).trans (tellFlightSuperseded_incomer _ f)
  cases hstate : (s.slot 8).state with
  | free =>
    rw [State.takeTrip_free hstate]
    have hissued := issueCmd_released (s := s) (n := 8) (c := .trip) .opening (by decide)
    exact ⟨hissued.mask, hissued.only⟩
  | inFlight f =>
    unfold State.takeTrip
    dsimp only
    rw [hstate]
    exact ite_both (P := AtIncomer s) (setSlot_incomer s _) (hsupersedes f)
  | echoed f =>
    unfold State.takeTrip
    dsimp only
    rw [hstate]
    exact ite_both (P := AtIncomer s) (setSlot_incomer s _) (hsupersedes f)

theorem tellSuperseded_incomer (s : State) (c : ReqClass) (cmd : Command) : AtIncomer s (s.tellSuperseded 8 c cmd) := by
  unfold State.tellSuperseded
  split
  · rw [hncTold_incomer]
    exact .refl s
  · next h => cases h
  · exact setSlot_incomer s _
  · exact .refl s

/-- Withdrawals keep what leaving a slot and telling its requester keep. -/
theorem withdraw_keeps {P : State → Prop} {n : Rec} {which : Command → Bool} {tell : State → ReqClass → Command → State}
    (hpend : ∀ t (c : ReqClass), P t → P (t.setPend n c none)) (htell : ∀ t (c : ReqClass) cmd, which cmd = true → P t → P (tell t c cmd)) (hs : P s) :
    P (s.withdraw n which tell) := by
  unfold State.withdraw
  generalize otherClasses = cs
  induction cs generalizing s with
  | nil => exact hs
  | cons c cs ih =>
    rw [List.foldl_cons]
    refine ih ?_
    split
    · split
      · next h => exact htell _ _ _ h (hpend _ _ hs)
      · exact hs
    · exact hs

theorem withdraw_nothing {n : Rec} {which : Command → Bool} {tell : State → ReqClass → Command → State}
    (h : (s.slot n).pend = Pending.none) : s.withdraw n which tell = s := by
  unfold State.withdraw
  generalize otherClasses = cs
  induction cs with
  | nil => rfl
  | cons c cs ih =>
    rw [List.foldl_cons, h, Pending.none_get]
    exact ih

theorem tripRequest_incomer (s : State) : AtIncomer s (s.tripRequest 8) :=
  (takeTrip_incomer s).trans (withdraw_keeps (P := AtIncomer (s.takeTrip 8)) (fun t _ h => h.trans (setSlot_incomer t _))
    (fun t c cmd _ h => h.trans (tellSuperseded_incomer t c cmd)) (.refl _))

/-- At a FREE slot with nothing pending the trip is issued. -/
theorem tripRequest_issued {n : Rec} (hfree : (s.slot n).state = .free) (hpend : (s.slot n).pend = Pending.none) :
    (s.tripRequest n).slot n = (s.slot n).issued .trip .opening s.mono 120 := by
  have hslot : (s.issueCmd n .trip .opening).slot n = (s.slot n).issued .trip .opening s.mono 120 := s.issueCmd_slot n .trip .opening
  unfold State.tripRequest
  rw [State.takeTrip_free hfree, withdraw_nothing, hslot]
  rw [hslot, Slot.issued, hpend, Pending.none_set]

end incomer

/-! ### The backup or STANDDOWN (R60) -/

section backup
variable {s : State} {b : Bay}

theorem backupAction_issued (hflag : s.bcu.backupFlag = false) (hconfigured : s.backupConfigured = true) :
    s.backupAction = .issued := by
  unfold State.backupAction
  rw [hflag, hconfigured]
  rfl

theorem takeBackup_standdown (h : s.bcu.backupFlag = true ∨ s.backupConfigured = false) (t : State) :
    ∃ c, t.takeBackup b s.backupAction = t.enterStanddown c (bayRec b) := by
  unfold State.backupAction
  cases hflag : s.bcu.backupFlag with
  | true => exact ⟨_, rfl⟩
  | false =>
    rw [h.resolve_left (by rw [hflag]; decide)]
    exact ⟨_, rfl⟩

/-- The breaker fail up to its record: the latch cleared and the bay locked out. -/
def lockedFail (s : State) (b : Bay) : State := (s.clearLatch b).lock b .breakerFail

/-- The breaker fail with its record and its occurrence, before the backup. -/
def recorded (s : State) (b : Bay) (fl : Failure) (tag : Nat) : State :=
  ((lockedFail s b).bayRecord b .breakerFail).occurWithRecord fBreakerFail (bayMask b)
    [byte fl.code, byte tag, byte (lockedFail s b).backupAction.code, byte b.val]

theorem breakerFail_eq (s : State) (b : Bay) (fl : Failure) (tag : Nat) :
    s.breakerFail b fl tag = (recorded s b fl tag).takeBackup b (lockedFail s b).backupAction := rfl

theorem lockedFail_maskS (s : State) (b : Bay) : (lockedFail s b).maskS = (s.clearLatch b).maskS := State.lock_maskS _ _ _

theorem backupAction_of_maskS {t : State} (h : t.maskS = (s.clearLatch b).maskS) : t.backupAction = s.backupAction := by
  have hmask := State.maskH_of_maskS h
  unfold State.backupAction State.backupConfigured State.cap
  rw [State.maskH_bcu_backupFlag hmask, State.maskM_bcu_cap (State.maskM_of_maskB (State.maskB_of_maskH hmask))]
  rfl

theorem recorded_maskH (s : State) (b : Bay) (fl : Failure) (tag : Nat) :
    (recorded s b fl tag).maskH = (s.clearLatch b).maskH := by
  have hocc := State.occurWithRecord_maskE ((lockedFail s b).bayRecord b .breakerFail) fBreakerFail (bayMask b)
    [byte fl.code, byte tag, byte (lockedFail s b).backupAction.code, byte b.val]
  have hrecord : ((lockedFail s b).bayRecord b .breakerFail).maskH = (lockedFail s b).maskH := rfl
  exact (State.maskH_of_maskS (State.maskS_of_maskE hocc)).trans (hrecord.trans (State.maskH_of_maskS (lockedFail_maskS s b)))

/-- What a breaker fail does with the backup (R60). -/
theorem breakerFail_issued (hflag : s.bcu.backupFlag = false) (hconfigured : s.backupConfigured = true) (fl : Failure) (tag : Nat) :
    AtIncomer ((recorded s b fl tag).setBackup true) (s.breakerFail b fl tag) ∧
    s.breakerFail b fl tag = ((recorded s b fl tag).setBackup true).tripRequest 8 := by
  have heq : s.breakerFail b fl tag = ((recorded s b fl tag).setBackup true).tripRequest 8 := by
    rw [breakerFail_eq, backupAction_of_maskS (lockedFail_maskS s b), backupAction_issued hflag hconfigured]
    rfl
  rw [heq]
  exact ⟨tripRequest_incomer _, rfl⟩

theorem breakerFail_standdown (h : s.bcu.backupFlag = true ∨ s.backupConfigured = false) (fl : Failure) (tag : Nat) :
    ∃ c, s.breakerFail b fl tag = (recorded s b fl tag).enterStanddown c (bayRec b) := by
  rw [breakerFail_eq, backupAction_of_maskS (lockedFail_maskS s b)]
  exact takeBackup_standdown h _

/-- What a breaker fail keeps: all but an entry to STANDDOWN, and the TRIP request at the incomer. -/
theorem breakerFail_keeps {P : State → Prop} (hP : StanddownSteps P) (hbackup : ∀ t, P t → P (t.setBackup true))
    (hincomer : ∀ t u, AtIncomer t u → P t → P u) (fl : Failure) (tag : Nat) (hs : P (recorded s b fl tag)) :
    P (s.breakerFail b fl tag) := by
  rw [breakerFail_eq]
  unfold State.takeBackup
  split
  · exact hincomer _ _ (tripRequest_incomer _) (hbackup _ hs)
  · exact hP.enterStanddown hs
  · exact hP.enterStanddown hs
  · exact hs

/-- The backup flag and the part state after a breaker fail. -/
theorem breakerFail_backup (s : State) (b : Bay) (fl : Failure) (tag : Nat) :
    (s.bcu.backupFlag = false → s.backupConfigured = true →
      (s.breakerFail b fl tag).bcu.backupFlag = true ∧ (s.breakerFail b fl tag).mgu.part = s.mgu.part) ∧
    (s.bcu.backupFlag = true ∨ s.backupConfigured = false → (s.breakerFail b fl tag).bcu.backupFlag = s.bcu.backupFlag ∧
      (s.mgu.part = .active → (s.breakerFail b fl tag).mgu.part = .standdown)) := by
  have hmask := recorded_maskH s b fl tag
  have hpart : (recorded s b fl tag).mgu.part = s.mgu.part := congrArg Mgu.part (State.maskH_mgu (s := s.clearLatch b) hmask)
  refine ⟨fun hflag hconfigured => ?_, fun h => ?_⟩
  · have hat := State.maskH_of_maskS (breakerFail_issued (b := b) hflag hconfigured fl tag).1.mask
    exact ⟨State.maskH_bcu_backupFlag hat, (congrArg Mgu.part (State.maskH_mgu hat)).trans hpart⟩
  · obtain ⟨c, heq⟩ := breakerFail_standdown (b := b) h fl tag
    obtain ⟨-, hflag, hstands⟩ := enterStanddown_leaves (recorded s b fl tag) c (bayRec b)
    rw [heq]
    exact ⟨hflag.trans (State.maskH_bcu_backupFlag (s := s.clearLatch b) hmask), fun hactive => hstands (hpart.trans hactive)⟩

theorem backupFail_part (s : State) (fl : Failure) (tag : Nat) :
    (s.mgu.part = .active → (s.backupFail fl tag).mgu.part = .standdown) ∧
    (s.backupFail fl tag).bcu.backupFlag = s.bcu.backupFlag := by
  have hocc := s.occur_maskE fBreakerFail (recMask 8) [byte fl.code, byte tag, byte BackupAction.none.code, 8]
  obtain ⟨-, hflag, hstands⟩ := enterStanddown_leaves
    (s.occur fBreakerFail (recMask 8) [byte fl.code, byte tag, byte BackupAction.none.code, 8]) .backupFailed 8
  refine ⟨fun hactive => hstands ?_, hflag.trans (congrArg Bcu.backupFlag (State.maskE_bcu hocc))⟩
  rw [State.maskH_mgu (State.maskH_of_maskS (State.maskS_of_maskE hocc))]
  exact hactive

end backup

/-! ### The end of a tripping command that failed (R57, R60) -/

section failed
variable {s : State} {b : Bay} {f : Flight} {o : Told}

/-- The failure that the end of a command is. -/
def failureOf (o : Told) : Failure := if o = .refused then .refused else .timeout

theorem endTripMark_failed (u : State) (htrip : f.tripAttached = true) (ho : o = .refused ∨ o = .timeout) :
    u.endTripMark (bayRec b) f o = u.breakerFail b (failureOf o) f.tag := by
  unfold State.endTripMark
  rw [if_pos htrip, recBay_bayRec]
  rcases ho with rfl | rfl <;> rfl

theorem endTripMark_incomer (u : State) (htrip : f.tripAttached = true) (ho : o = .refused ∨ o = .timeout) :
    u.endTripMark 8 f o = u.backupFail (failureOf o) f.tag := by
  unfold State.endTripMark
  rw [if_pos htrip, recBay_incomer]
  rcases ho with rfl | rfl <;> rfl

/-- Whatever the release of the slot brings, the last steps keep what the hunt controller keeps. -/
theorem finished_maskH (u : State) (n : Rec) (f : Flight) (o : Told) : (finished u n f o).maskH = u.maskH := by
  have hresulted := State.maskH_of_maskS (resulted_released u n f o).1
  have hissued : (State.issueFrom classOrder n (freed (resulted u n f o) n)).1.maskS = (resulted u n f o).maskS :=
    (closedS_mask _).issueFrom classOrder rfl
  unfold finished State.freeSlot
  rw [← freed]
  dsimp only
  split
  · exact (State.hncTold_maskH _ _ _ _ _).trans ((State.maskH_of_maskS hissued).trans hresulted)
  · exact (State.maskH_of_maskS hissued).trans hresulted

theorem tellEnd_maskH (u : State) (n : Rec) (f : Flight) (o : Told) : (u.tellEnd n f o).maskH = u.maskH := by
  unfold State.tellEnd
  split
  · exact State.hncTold_maskH _ _ _ _ _
  · exact State.maskH_of_maskS (State.rccTold_maskS _ _ _)
  · rfl

theorem backupConfigured_of_maskH {t : State} (h : t.maskH = s.maskH) : t.backupConfigured = s.backupConfigured := by
  unfold State.backupConfigured State.cap
  rw [State.maskM_bcu_cap (State.maskM_of_maskB (State.maskB_of_maskH h))]

/-- The backup flag and the part after the end of a tripping command that failed, at any slot (R60, R61). -/
theorem commandEnd_backup (s : State) (n : Rec) (htrip : f.tripAttached = true) (ho : o = .refused ∨ o = .timeout) :
    (s.bcu.backupFlag = false → s.backupConfigured = true → n ≠ 8 → (s.commandEnd n f o).bcu.backupFlag = true ∧
      (s.commandEnd n f o).mgu.part = s.mgu.part) ∧
    ((s.bcu.backupFlag = true ∨ s.backupConfigured = false ∨ n = 8) →
      (s.commandEnd n f o).bcu.backupFlag = s.bcu.backupFlag ∧
      (s.mgu.part = .active → (s.commandEnd n f o).mgu.part = .standdown)) := by
  have htold : ((s.setOutPlace n none).tellEnd n f o).maskH = s.maskH := tellEnd_maskH _ n f o
  rw [commandEnd_eq]
  generalize (s.setOutPlace n none).tellEnd n f o = u at htold
  have hflag : u.bcu.backupFlag = s.bcu.backupFlag := State.maskH_bcu_backupFlag htold
  have hpart : u.mgu.part = s.mgu.part := congrArg Mgu.part (State.maskH_mgu htold)
  have hconfigured := backupConfigured_of_maskH htold
  have hend := finished_maskH (u.endTripMark n f o) n f o
  rw [State.maskH_bcu_backupFlag hend, State.maskH_mgu hend, ← hflag, ← hpart, ← hconfigured]
  by_cases hn : n = 8
  · subst hn
    obtain ⟨hstands, hkeeps⟩ := backupFail_part u (failureOf o) f.tag
    rw [endTripMark_incomer u htrip ho]
    exact ⟨fun _ _ h => absurd rfl h, fun _ => ⟨hkeeps, hstands⟩⟩
  · obtain ⟨b, rfl⟩ := exists_bay hn
    obtain ⟨hissued, hstands⟩ := breakerFail_backup u b (failureOf o) f.tag
    rw [endTripMark_failed u htrip ho]
    exact ⟨fun h k _ => hissued h k, fun h => hstands (by simpa [hn] using h)⟩

/-! ### A breaker fail at a slot where nothing else waits (R60) -/

/-- The bay once its trip has failed: locked out where the RCC runs it and it was not. -/
theorem lockedFail_stays (s : State) (b : Bay) :
    Stays b (if s.canLock b then .lockout .breakerFail else (s.rcl b).state) (s.rcl b).shots (lockedFail s b) := by
  cases h : s.canLock b with
  | true =>
    have hrcl : (lockedFail s b).rcl b = lockedOut (s.rcl b) .breakerFail := State.lock_rcl (s := s.clearLatch b) h
    rw [if_pos rfl]
    exact ⟨by rw [hrcl]; rfl, by rw [hrcl]; rfl, .inr ⟨_, rfl⟩⟩
  | false =>
    have hkeeps : lockedFail s b = s.clearLatch b :=
      if_neg (by rw [show (s.clearLatch b).canLock b = s.canLock b from rfl, h]; exact Bool.false_ne_true)
    rw [if_neg Bool.false_ne_true, hkeeps]
    refine ⟨rfl, rfl, ?_⟩
    have hout : (s.runs b && !(s.rcl b).state.isLockout) = false := h
    rcases Bool.and_eq_false_iff.mp hout with hruns | hlocked
    · exact .inl hruns
    · refine .inr ?_
      cases hstate : (s.rcl b).state with
      | lockout c => exact ⟨c, rfl⟩
      | _ => rw [hstate] at hlocked; cases hlocked

/-- What the record and its occurrence leave, as they leave the slots and the reclose records. -/
theorem recorded_same (s : State) (b : Bay) (fl : Failure) (tag : Nat) :
    (recorded s b fl tag).bcu = (lockedFail s b).bcu ∧ (recorded s b fl tag).rcc = (lockedFail s b).rcc ∧
    (recorded s b fl tag).riu = (lockedFail s b).riu ∧ (recorded s b fl tag).mgu = (lockedFail s b).mgu ∧
    (recorded s b fl tag).pru = (lockedFail s b).pru ∧
    ledger (recorded s b fl tag) = ledger ((lockedFail s b).bayRecord b .breakerFail) := by
  have hocc := State.occurWithRecord_maskE ((lockedFail s b).bayRecord b .breakerFail) fBreakerFail (bayMask b)
    [byte fl.code, byte tag, byte (lockedFail s b).backupAction.code, byte b.val]
  exact ⟨State.maskE_bcu (s := (lockedFail s b).bayRecord b .breakerFail) hocc,
    State.maskE_rcc (s := (lockedFail s b).bayRecord b .breakerFail) hocc,
    State.maskE_riu (s := (lockedFail s b).bayRecord b .breakerFail) hocc,
    State.maskH_mgu (s := (lockedFail s b).bayRecord b .breakerFail) (State.maskH_of_maskS (State.maskS_of_maskE hocc)),
    State.maskE_pru (s := (lockedFail s b).bayRecord b .breakerFail) hocc, ledger_of_maskS (State.maskS_of_maskE hocc)⟩

theorem recorded_at (s : State) (b : Bay) (fl : Failure) (tag : Nat) : OnlyAt (bayRec b) s (recorded s b fl tag) := by
  obtain ⟨hbcu, hrcc, hriu, -⟩ := recorded_same s b fl tag
  exact ((clearLatch_at (bayRec b) s b).trans (State.lock_at _ b .breakerFail)).trans
    (onlyAt_of_blocks (by rw [hbcu]; rfl) (by rw [hrcc]; rfl) (by rw [hriu]; rfl))

theorem recorded_stays (s : State) (b : Bay) (fl : Failure) (tag : Nat) :
    Stays b (if s.canLock b then .lockout .breakerFail else (s.rcl b).state) (s.rcl b).shots (recorded s b fl tag) := by
  obtain ⟨hbcu, hrcc, -, hmgu, -⟩ := recorded_same s b fl tag
  have hrcl : (recorded s b fl tag).rcl b = (lockedFail s b).rcl b := rcl_of_rcc hrcc
  refine (lockedFail_stays s b).of_same (by rw [hrcl]) (by rw [hrcl]) ?_
  unfold State.runs State.protecting State.cap
  rw [hbcu, hmgu]

theorem recorded_quiet {x : SlotState} (hx : x ≠ .free) (h : Quiet (bayRec b) x s) (fl : Failure) (tag : Nat) :
    Quiet (bayRec b) x (recorded s b fl tag) := by
  have hcleared : Quiet (bayRec b) x (s.clearLatch b) := h.of_slot rfl
  exact ((endSteps_quiet hx).lock _ b .breakerFail hcleared).of_slot
    (congrArg (fun u : Bcu => u.slots.look (bayRec b)) (recorded_same s b fl tag).1)

/-- The record of the breaker fail (R149 to R151). -/
structure FailRecord (s : State) (b : Bay) (t : State) : Prop where
  counts : t.recd.top = s.recd.top + 1 ∧ t.recd.nextSeq = s.recd.nextSeq + 1 ∧ t.recd.count = min 16 (s.recd.count + 1)
  record : ∃ x, t.recd.ring.look t.recd.top = some x ∧ x.seq = s.recd.nextSeq ∧ x.stamp = s.stamp ∧ x.bay = b ∧
    x.cause = .breakerFail ∧ x.shots = (s.rcl b).shots ∧ x.level = s.fru.effective ∧ x.reactance = none ∧ x.segLabel = none

theorem failRecord_of_ledger {t : State} (fl : Failure) (tag : Nat) (h : ledger t = ledger (recorded s b fl tag)) :
    FailRecord s b t := by
  obtain ⟨-, -, -, -, -, hrecorded⟩ := recorded_same s b fl tag
  have hmask := lockedFail_maskS s b
  obtain ⟨htop, hseq, hcount⟩ := ledger_top (h.trans hrecorded)
  obtain ⟨htop', hseq', hcount'⟩ := ledger_top (ledger_of_maskS hmask)
  have hstamp : (lockedFail s b).stamp = s.stamp := stamp_of_maskH (s := s.clearLatch b) (State.maskH_of_maskS hmask)
  have hfru : (lockedFail s b).fru = s.fru := State.maskS_fru (s := s.clearLatch b) hmask
  refine ⟨⟨htop.trans (congrArg (· + 1) htop'), hseq.trans (congrArg (· + 1) hseq'),
    hcount.trans (congrArg (fun k => min 16 (k + 1)) hcount')⟩, ?_⟩
  have hstored : ((lockedFail s b).bayRecord b .breakerFail).recd.ring.look
      ((lockedFail s b).bayRecord b .breakerFail).recd.top = _ := OccurrenceRules.storeRecord_top (s := lockedFail s b) _
  obtain ⟨x, hx, hbare⟩ := ledger_record (h.trans hrecorded) hstored
  refine ⟨x, (congrArg _ htop).trans hx, (congrArg FaultRecord.seq hbare :).trans hseq',
    (congrArg FaultRecord.stamp hbare :).trans hstamp, (congrArg FaultRecord.bay hbare :), (congrArg FaultRecord.cause hbare :),
    (congrArg FaultRecord.shots hbare :).trans (lockedFail_stays s b).shots,
    (congrArg FaultRecord.level hbare :).trans (congrArg Fru.effective hfru), (congrArg FaultRecord.reactance hbare :),
    (congrArg FaultRecord.segLabel hbare :)⟩

section leaves
variable (fl : Failure) (tag : Nat)

theorem breakerFail_quiet {x : SlotState} (hx : x ≠ .free) (h : Quiet (bayRec b) x s) :
    Quiet (bayRec b) x (s.breakerFail b fl tag) :=
  breakerFail_keeps (standdownSteps_quiet hx) (fun _ ht => ht.of_slot rfl)
    (fun _ _ hat ht => ht.of_slot (hat.only.slots _ (bayRec_ne_incomer b))) _ _ (recorded_quiet hx h fl tag)

theorem breakerFail_stays (s : State) (b : Bay) :
    Stays b (if s.canLock b then .lockout .breakerFail else (s.rcl b).state) (s.rcl b).shots (s.breakerFail b fl tag) := by
  refine breakerFail_keeps (standdownSteps_stays b _ _) (fun _ ht => ht.of_same rfl rfl rfl) (fun t u hat ht => ?_) _ _
    (recorded_stays s b fl tag)
  have hrcl := hat.only.reclose b (bayRec_ne_incomer b)
  exact ht.of_same (by rw [hrcl]) (by rw [hrcl]) (runs_of_maskR (State.maskR_of_maskS hat.mask) b)

theorem breakerFail_ledger (s : State) (b : Bay) : ledger (s.breakerFail b fl tag) = ledger (recorded s b fl tag) :=
  breakerFail_keeps (standdownSteps_ledger _) (fun _ ht => ht) (fun _ _ hat ht => (ledger_of_maskS hat.mask).trans ht) _ _ rfl

theorem breakerFail_pru (s : State) (b : Bay) : (s.breakerFail b fl tag).pru = (s.clearLatch b).pru := by
  have hrecorded : (recorded s b fl tag).pru = (s.clearLatch b).pru := State.maskH_pru (recorded_maskH s b fl tag)
  have hincomer (t u : State) (hat : AtIncomer t u) : u.pru = t.pru := State.maskH_pru (State.maskH_of_maskS hat.mask)
  rw [breakerFail_eq]
  unfold State.takeBackup
  split
  · exact (hincomer _ _ (tripRequest_incomer _)).trans hrecorded
  · exact (enterStanddown_leaves _ _ _).1.trans hrecorded
  · exact (enterStanddown_leaves _ _ _).1.trans hrecorded
  · exact hrecorded

/-- The backup trip is issued at a FREE slot of the incomer with nothing pending (R53, R60). -/
theorem breakerFail_backupIssued (hflag : s.bcu.backupFlag = false) (hconfigured : s.backupConfigured = true)
    (hfree : (s.slot 8).state = .free) (hpend : (s.slot 8).pend = Pending.none) :
    (s.breakerFail b fl tag).slot 8 = (s.slot 8).issued .trip .opening s.mono 120 := by
  have hslot : ((recorded s b fl tag).setBackup true).slot 8 = s.slot 8 :=
    (recorded_at s b fl tag).slots 8 (bayRec_ne_incomer b).symm
  have hmono : (recorded s b fl tag).mono = s.mono :=
    State.maskM_mono (s := s.clearLatch b) (State.maskM_of_maskB (State.maskB_of_maskH (recorded_maskH s b fl tag)))
  rw [(breakerFail_issued hflag hconfigured fl tag).2, tripRequest_issued (by rw [hslot]; exact hfree) (by rw [hslot]; exact hpend),
    hslot]
  exact congrArg (fun m => (s.slot 8).issued .trip .opening m 120) hmono

end leaves

/-- A breaker fail at a slot where nothing else waits. -/
structure TripFailed (s : State) (b : Bay) (t : State) : Prop where
  latch : (t.elem b).latch = none
  shots : (t.rcl b).shots = (s.rcl b).shots
  state : (t.rcl b).state = if s.canLock b then .lockout .breakerFail else (s.rcl b).state
  record : FailRecord s b t
  issued : s.bcu.backupFlag = false → s.backupConfigured = true → (s.slot 8).state = .free → (s.slot 8).pend = Pending.none →
    t.slot 8 = (s.slot 8).issued .trip .opening s.mono 120

theorem tripFailed_commandEnd {x : SlotState} (hx : x ≠ .free) (hstate : (s.slot (bayRec b)).state = x)
    (hpend : (s.slot (bayRec b)).pend = Pending.none) (hcls : f.cls = .trip ∨ f.cls = .management)
    (htrip : f.tripAttached = true) (ho : o = .refused ∨ o = .timeout) :
    TripFailed s b (s.commandEnd (bayRec b) f o) := by
  have hend : s.commandEnd (bayRec b) f o =
      finished ((unsent s (bayRec b)).breakerFail b (failureOf o) f.tag) (bayRec b) f o := by
    rw [commandEnd_eq, tellEnd_silent _ hcls, endTripMark_failed _ htrip ho, unsent]
  have hquiet := breakerFail_quiet (failureOf o) f.tag hx (quiet_of_nothing (s := unsent s (bayRec b)) hstate hpend)
  have hfin := finished_rests hquiet.rests f o
  have hmask := State.maskH_of_maskS hfin.mask
  have hstays := breakerFail_stays (failureOf o) f.tag (unsent s (bayRec b)) b
  have hrecord := failRecord_of_ledger (s := unsent s (bayRec b)) (failureOf o) f.tag
    ((ledger_of_maskS hfin.mask).trans (breakerFail_ledger (failureOf o) f.tag (unsent s (bayRec b)) b))
  have helem : (finished ((unsent s (bayRec b)).breakerFail b (failureOf o) f.tag) (bayRec b) f o).elem b =
      (s.clearLatch b).elem b :=
    congrArg (fun p : Pru => p.elem.look b) ((State.maskH_pru hmask).trans (breakerFail_pru _ _ (unsent s (bayRec b)) b))
  rw [hend]
  refine { latch := by rw [helem, clearLatch_elem, if_pos rfl], shots := by rw [rcl_of_rcc hfin.rcc]; exact hstays.shots,
           state := by rw [rcl_of_rcc hfin.rcc]; exact hstays.state, record := ⟨hrecord.counts, hrecord.record⟩,
           issued := fun hflag hconfigured hfree hnothing => ?_ }
  rw [hfin.only.slots 8 (bayRec_ne_incomer b).symm]
  exact breakerFail_backupIssued (s := unsent s (bayRec b)) _ _ hflag hconfigured hfree hnothing

end failed

end Sys2Proof.Proofs.TripFailures

/-! What the hunt is told of its command at the bay under test (R133, R136, R139, R140, R143), and what the end of the command leaves. -/

namespace Sys2Proof.Proofs.HuntAnswers
open Sys2Proof.Machine Sys2Proof.Safety Sys2Proof.Proofs.HuntBays Sys2Proof.Proofs.HuntEnd Sys2Proof.Proofs.HuntSelection
  Sys2Proof.Proofs.HuntStart Sys2Proof.Proofs.HuntAbort Sys2Proof.Proofs.HuntTimes Sys2Proof.Proofs.HuntFinds
  Sys2Proof.Proofs.ControlSteps Sys2Proof.Proofs.CommandEnds Sys2Proof.Proofs.TripFailures

/-! ### The next candidate (R132) -/

section select
variable {s : State} {ks : List (Fin 8)}

/-- A candidate is tested, or the list is exhausted and the hunt has ended. -/
def GoesOn (t : State) : Prop :=
  t.hnc.state = .opening ∨ (t.hnc.state = .idle ∧ t.hnc.last.map (fun l => l.result) = some .exhausted)

/-- What the selection of a candidate from the positions given leaves of the hunt context. -/
structure Selects (ks : List (Fin 8)) (s t : State) : Prop where
  goes : GoesOn t
  cands : ∀ j, j ∉ ks → t.hnc.cands[j.val]? = s.hnc.cands[j.val]?
  bayOpen : t.hnc.bayOpen = s.hnc.bayOpen

theorem Selects.cons {k : Fin 8} {u t : State} (h : Selects ks u t) (hcands : ∀ j, j ≠ k → u.hnc.cands[j.val]? = s.hnc.cands[j.val]?)
    (hopen : u.hnc.bayOpen = s.hnc.bayOpen) : Selects (k :: ks) s t where
  goes := h.goes
  cands j hj := (h.cands j fun hmem => hj (List.mem_cons_of_mem _ hmem)).trans (hcands j fun e => hj (by simp [e]))
  bayOpen := h.bayOpen.trans hopen

theorem setOutcome_cands (s : State) (k : Fin 8) (o : CandOutcome) {j : Fin 8} (hj : j ≠ k) :
    (s.setOutcome k o).hnc.cands[j.val]? = s.hnc.cands[j.val]? := by
  have h := setOutcome_candidate s k j o
  rw [if_neg (Ne.symm hj)] at h
  exact h

theorem selectFrom_selects (ks : List (Fin 8)) (s : State) : Selects ks s (State.selectFrom ks s) := by
  induction ks generalizing s with
  | nil =>
    have hend : (State.selectFrom [] s).hnc = endedContext s.hnc .exhausted none s.stamp := endHunt_hnc _ _ _ _ s
    refine ⟨.inr ⟨?_, ?_⟩, fun j _ => ?_, ?_⟩ <;> rw [hend] <;> rfl
  | cons k ks ih =>
    have hpassed (o : CandOutcome) : Selects (k :: ks) s (State.selectFrom ks (s.setOutcome k o)) :=
      (ih _).cons (fun j hj => setOutcome_cands s k o hj) rfl
    unfold State.selectFrom
    split
    · exact (ih s).cons (fun _ _ => rfl) rfl
    · split
      · next b _ _ =>
        dsimp only
        rw [← testing]
        cases hjudge : (testing s k).judgeReq (bayRec b) .hunt .opening with
        | none =>
          rw [place_accepted hjudge]
          have hhnc := tested_hnc s k (bayRec b)
          refine ⟨.inl ?_, fun j _ => ?_, ?_⟩ <;> rw [hhnc]
        | some code =>
          rw [place_refused hjudge]
          exact (ih _).cons (fun j hj => setOutcome_cands (testing s k) k .failedOpen hj) rfl
      · exact hpassed _
      · exact hpassed _

theorem current_notMem_nextPositions {k : Fin 8} (h : s.hnc.current = some k) : k ∉ s.nextPositions := by
  unfold State.nextPositions positionsAfter
  rw [h]
  simp

end select

/-! ### The end of an aborted hunt (R143) -/

section pending
variable {s u : State} {w : HuntResult}

theorem endPending_hnc (h : u.hnc.pendingResult = some w) : u.endPending.hnc = endedContext u.hnc w none u.stamp := by
  rw [endPending_eq h, endHunt_hnc]

theorem huntOver_endPending (h : u.hnc.pendingResult = some w) (hstarted : u.hnc.started = s.hnc.started)
    (hmask : u.maskH = s.maskH) (hfru : u.fru = s.fru) : HuntOver s u.endPending w none := by
  rw [endPending_eq h]
  exact huntOver_endHunt hstarted hmask hfru _ _ _

end pending

/-! ### The hunt's answer by its state -/

section told
variable {s : State} {b : Bay} {k : Fin 8} {c : Candidate} {w : HuntResult}

/-- The outcome of the current candidate. -/
def Outcome (s t : State) (o : CandOutcome) : Prop :=
  ∀ j, s.hnc.current = some j → (t.hnc.cands[j.val]?).map (fun y => y.outcome) = some o

theorem setCurOutcome_outcome (htest : s.underTest = some b) (o : CandOutcome) : Outcome s (s.setCurOutcome o) o := by
  obtain ⟨k, c, hcur, hcand, -⟩ := curCandidate_of_underTest htest
  intro j hj
  obtain rfl : k = j := Option.some.inj (hcur.symm.trans hj)
  have hset := setOutcome_candidate s k k o
  rw [if_pos rfl, hcand] at hset
  rw [setCurOutcome_eq hcur]
  exact congrArg (Option.map fun y => y.outcome) hset

theorem setCurOutcome_hnc (s : State) (o : CandOutcome) : (s.setCurOutcome o).hnc = { s.hnc with cands := (s.setCurOutcome o).hnc.cands } := by
  unfold State.setCurOutcome
  split <;> rfl

theorem setCurOutcome_same (s : State) (o : CandOutcome) : s.setCurOutcome o = s.setHnc (s.setCurOutcome o).hnc := by
  unfold State.setCurOutcome
  split <;> rfl

/-- The outcome stands through a selection from the positions after the current one. -/
theorem Outcome.selectNext {u : State} {o : CandOutcome} (h : Outcome s u o) (hcur : u.hnc.current = s.hnc.current) :
    Outcome s u.selectNext o := by
  intro j hj
  have hkeeps := (selectFrom_selects u.nextPositions u).cands j (current_notMem_nextPositions (hcur.trans hj))
  exact (congrArg (Option.map fun y => y.outcome) hkeeps).trans (h j hj)

theorem Outcome.endPending {u : State} {o : CandOutcome} (h : Outcome s u o) (hp : u.hnc.pendingResult = some w) :
    Outcome s u.endPending o := by
  intro j hj
  rw [endPending_hnc hp]
  exact h j hj

variable (htest : s.underTest = some b)
include htest

/-- A HUNT OPEN at the bay under test has failed in OPENING (R133). -/
theorem openFailed_leaves : Outcome s ((s.setCurOutcome .failedOpen).selectNext) .failedOpen ∧
    GoesOn ((s.setCurOutcome .failedOpen).selectNext) :=
  ⟨(setCurOutcome_outcome htest _).selectNext (by rw [setCurOutcome_hnc]), (selectFrom_selects _ _).goes⟩

/-- A restore has failed (R136). -/
theorem restoreFailed_leaves : Outcome s s.restoreFailed .failedRestore ∧ s.restoreFailed.hnc.bayOpen = none ∧
    (s.canLock b = true → (s.restoreFailed.rcl b).state = .lockout .closeFailed) ∧ GoesOn s.restoreFailed := by
  have hset := setCurOutcome_hnc s .failedRestore
  have hlocked : ((s.setCurOutcome .failedRestore).huntLock .closeFailed).hnc =
      { (s.setCurOutcome .failedRestore).hnc with bayOpen := none } := huntLock_hnc _ _
  have hselects := selectFrom_selects ((s.setCurOutcome .failedRestore).huntLock .closeFailed).nextPositions
    ((s.setCurOutcome .failedRestore).huntLock .closeFailed)
  refine ⟨?_, ?_, fun hlock => ?_, hselects.goes⟩
  · have houtcome : Outcome s ((s.setCurOutcome .failedRestore).huntLock .closeFailed) .failedRestore := by
      intro j hj
      rw [hlocked]
      exact setCurOutcome_outcome htest _ j hj
    exact houtcome.selectNext (by rw [hlocked, hset])
  · exact hselects.bayOpen.trans (by rw [hlocked])
  · refine (huntSteps_lockout b .closeFailed).selectNext ?_
    have htested := (setCurOutcome_underTest s .failedRestore).trans htest
    rw [huntLock_eq htested, setCurOutcome_same]
    have hrcl := State.lock_rcl (s := s.setHnc (s.setCurOutcome .failedRestore).hnc) (b := b) (cause := .closeFailed) hlock
    exact congrArg RecloseRecord.state hrcl

/-- The restore of an aborting hunt has failed (R143). -/
theorem abortRestoreFailed_leaves (hp : s.hnc.pendingResult = some w) : HuntOver s s.abortRestoreFailed w none ∧
    s.abortRestoreFailed.hnc.bayOpen = none ∧
    (s.canLock b = true → (s.abortRestoreFailed.rcl b).state = .lockout .closeFailed) ∧
    ∀ y, s.curCandidate = some y → Outcome s s.abortRestoreFailed (failedOutcome y.outcome) := by
  have hjudged : judged s = s.setHnc (judged s).hnc ∧ (judged s).hnc = { s.hnc with cands := (judged s).hnc.cands } := by
    unfold judged
    split
    · split
      · exact ⟨setCurOutcome_same _ _, setCurOutcome_hnc _ _⟩
      · exact ⟨rfl, rfl⟩
    · exact ⟨rfl, rfl⟩
  obtain ⟨hsame, hcontext⟩ := hjudged
  have htested : (judged s).underTest = some b := by
    unfold judged
    split
    · split
      · exact (setCurOutcome_underTest _ _).trans htest
      · exact htest
    · exact htest
  have hlocked : ((judged s).huntLock .closeFailed).hnc = { (judged s).hnc with bayOpen := none } := huntLock_hnc _ _
  have hpending : ((judged s).huntLock .closeFailed).hnc.pendingResult = some w := by rw [hlocked, hcontext]; exact hp
  have hmask : (judged s).maskH = s.maskH := by
    rw [hsame]
    exact s.setHnc_maskH _ (by rw [hcontext])
  rw [abortRestoreFailed_judged]
  refine ⟨huntOver_endPending hpending (by rw [hlocked, hcontext]) ((huntLock_maskH _ _).trans hmask)
    ((huntLock_fru _ _).trans (by rw [hsame]; rfl)), ?_, fun hlock => ?_, fun y hy => ?_⟩
  · rw [endPending_hnc hpending, hlocked]
    rfl
  · refine (huntSteps_lockout b .closeFailed).endPending ?_
    rw [huntLock_eq htested, hsame]
    have hrcl := State.lock_rcl (s := s.setHnc (judged s).hnc) (b := b) (cause := .closeFailed) hlock
    exact congrArg RecloseRecord.state hrcl
  · refine Outcome.endPending (fun j hj => ?_) hpending
    have hcur := judged_curCandidate hy
    rw [State.curCandidate, (judged_current s).trans hj] at hcur
    rw [hlocked]
    exact congrArg (Option.map fun y => y.outcome) hcur

end told

end Sys2Proof.Proofs.HuntAnswers

/-! The end of the HNC's command at the bay under test, at a slot where nothing else waits (R133, R136, R139, R140, R143). -/

namespace Sys2Proof.Proofs.HuntCommandEnds
open Sys2Proof.Machine Sys2Proof.Safety Sys2Proof.Proofs.HuntBays Sys2Proof.Proofs.HuntEnd Sys2Proof.Proofs.HuntSelection
  Sys2Proof.Proofs.HuntStart Sys2Proof.Proofs.HuntAbort Sys2Proof.Proofs.HuntTimes Sys2Proof.Proofs.HuntFinds
  Sys2Proof.Proofs.ControlSteps Sys2Proof.Proofs.CommandEnds Sys2Proof.Proofs.TripFailures Sys2Proof.Proofs.HuntAnswers
  Sys2Proof.Proofs.RecloseTimers

section answer
variable {s : State} {b : Bay} {f : Flight} {o : Told}

/-- The HNC has its answer, and its command's slot is not yet released. -/
def answered (s : State) (b : Bay) (f : Flight) (o : Told) : State :=
  (unsent s (bayRec b)).hncTold (bayRec b) f.cmd (HuntTold.ofTold o) true

/-- What the answer and the release of the slot leave at the end of the HNC's command. -/
structure HuntCommandEnd (s : State) (b : Bay) (f : Flight) (o : Told) : Prop where
  eq : s.commandEnd (bayRec b) f o = finished (answered s b f o) (bayRec b) f o
  told : (answered s b f o).maskH = s.maskH
  fin : Finished (bayRec b) (resultOf f o (answered s b f o).stamp) (answered s b f o) (s.commandEnd (bayRec b) f o)

theorem commandEnd_hunt {x : SlotState} (hx : x ≠ .free) (hstate : (s.slot (bayRec b)).state = x)
    (hpend : (s.slot (bayRec b)).pend = Pending.none) (hcls : f.cls = .hunt) (htrip : f.tripAttached = false) :
    HuntCommandEnd s b f o := by
  have htold : (unsent s (bayRec b)).tellEnd (bayRec b) f o = answered s b f o := by
    unfold State.tellEnd
    rw [hcls]
    rfl
  have hquiet : Quiet (bayRec b) x (unsent s (bayRec b)) := quiet_of_nothing (s := unsent s (bayRec b)) hstate hpend
  have hrests : Rests (bayRec b) x (answered s b f o) := (huntSteps_rests hx).hncTold hquiet.rests
  have heq : s.commandEnd (bayRec b) f o = finished (answered s b f o) (bayRec b) f o := by
    rw [commandEnd_untripped htrip, htold]
  exact ⟨heq, State.hncTold_maskH _ _ _ _ _, heq ▸ finished_rests hrests f o⟩

theorem HuntOver.of_same {u t : State} {w : HuntResult} {named : Option Bay} (h : HuntOver u t w named)
    (hstarted : u.hnc.started = s.hnc.started) (hstamp : u.stamp = s.stamp) (hfru : u.fru = s.fru) : HuntOver s t w named := by
  unfold HuntOver at h ⊢
  rwa [hstarted, hstamp, hfru] at h

section ended
variable (h : HuntCommandEnd s b f o)
include h

theorem HuntCommandEnd.hnc : (s.commandEnd (bayRec b) f o).hnc = (answered s b f o).hnc := State.maskS_hnc h.fin.mask

theorem HuntCommandEnd.lastResult : ((s.commandEnd (bayRec b) f o).slot (bayRec b)).lastResult = some (resultOf f o s.stamp) :=
  h.fin.lastResult.trans (congrArg (fun now => some (resultOf f o now)) (stamp_of_maskH h.told))

theorem HuntCommandEnd.over {w : HuntResult} {named : Option Bay} (hover : HuntOver s (answered s b f o) w named) :
    HuntOver s (s.commandEnd (bayRec b) f o) w named := by
  obtain ⟨hidle, hlast, hcurrent, htimer, hstack, hblocks⟩ := hover
  refine ⟨h.hnc ▸ hidle, h.hnc ▸ hlast, h.hnc ▸ hcurrent, h.hnc ▸ htimer, ?_, fun c => ?_⟩
  · rw [State.maskS_fru h.fin.mask]
    exact hstack
  · rw [rcl_of_rcc h.fin.rcc]
    exact hblocks c

theorem HuntCommandEnd.outcome {c : CandOutcome} (houtcome : Outcome s (answered s b f o) c) :
    Outcome s (s.commandEnd (bayRec b) f o) c := by
  intro j hj
  rw [h.hnc]
  exact houtcome j hj

theorem HuntCommandEnd.goesOn (hgoes : GoesOn (answered s b f o)) : GoesOn (s.commandEnd (bayRec b) f o) := by
  unfold GoesOn
  rw [h.hnc]
  exact hgoes

theorem HuntCommandEnd.locked {c : LockoutCause} (hlocked : ((answered s b f o).rcl b).state = .lockout c) :
    ((s.commandEnd (bayRec b) f o).rcl b).state = .lockout c := by
  rw [rcl_of_rcc h.fin.rcc]
  exact hlocked

theorem HuntCommandEnd.only : OnlyHunt s (s.commandEnd (bayRec b) f o) :=
  onlyHunt_of_mask ((State.maskH_of_maskS h.fin.mask).trans h.told)

theorem HuntCommandEnd.freed (hpend : (s.slot (bayRec b)).pend = Pending.none)
    (hslot : (answered s b f o).slot (bayRec b) = s.slot (bayRec b))
    (hout : (answered s b f o).riu.outPlaces.look (bayRec b) = none) :
    Freed s (s.commandEnd (bayRec b) f o) (bayRec b) (resultOf f o s.stamp) := by
  rw [h.eq]
  exact freed_of_told hpend hslot hout (stamp_of_maskH h.told)

end ended

/-! ### The HNC's answer -/

section told
variable (htest : s.underTest = some b) (hpend : (s.slot (bayRec b)).pend = Pending.none)
include htest hpend

theorem answered_eq (hawaits : s.hnc.state.awaits = true) : answered s b f o =
    if f.cmd == .closing then (unsent s (bayRec b)).huntCloseTold (HuntTold.ofTold o)
    else (unsent s (bayRec b)).huntOpenTold b (HuntTold.ofTold o) := by
  have htested : (unsent s (bayRec b)).underTest = some b := htest
  have hwaits : (unsent s (bayRec b)).hnc.state.awaits = true := hawaits
  have hnothing : ((unsent s (bayRec b)).slot (bayRec b)).pend.hunt.isSome = false := by
    rw [show (unsent s (bayRec b)).slot (bayRec b) = s.slot (bayRec b) from rfl, hpend]
    rfl
  unfold answered State.hncTold
  rw [htested]
  dsimp only
  rw [hwaits, hnothing, if_pos (by simp)]

theorem answered_close (hawaits : s.hnc.state.awaits = true) (hcmd : f.cmd = .closing) :
    answered s b f o = (unsent s (bayRec b)).huntCloseTold (HuntTold.ofTold o) := by
  rw [answered_eq htest hpend hawaits, if_pos (beq_iff_eq.mpr hcmd)]

theorem answered_open (hawaits : s.hnc.state.awaits = true) (hcmd : f.cmd = .opening) :
    answered s b f o = (unsent s (bayRec b)).huntOpenTold b (HuntTold.ofTold o) := by
  rw [answered_eq htest hpend hawaits, hcmd, if_neg (by decide)]

end told

theorem ofTold_failed (ho : o = .refused ∨ o = .timeout) : HuntTold.ofTold o = .failed := by
  rcases ho with rfl | rfl <;> rfl

/-! The HNC's answers by the state of the hunt. -/

section answers
variable {v : State}

theorem openTold_opening_done (h : v.hnc.state = .opening) :
    v.huntOpenTold b .done = (v.setBayOpen (some b)).huntTo .dwell (some v.curDwell) := by
  unfold State.huntOpenTold
  rw [h]

theorem openTold_opening_failed (h : v.hnc.state = .opening) :
    v.huntOpenTold b .failed = (v.setCurOutcome .failedOpen).selectNext := by
  unfold State.huntOpenTold
  rw [h]

theorem openTold_aborting_done (h : v.hnc.state = .aborting) :
    v.huntOpenTold b .done = (v.setBayOpen (some b)).placeHuntClose b := by
  unfold State.huntOpenTold
  rw [h]

theorem openTold_aborting_failed (h : v.hnc.state = .aborting) :
    v.huntOpenTold b .failed = (v.setCurOutcome .failedOpen).endPending := by
  unfold State.huntOpenTold
  rw [h]

theorem closeTold_restoring_done (h : v.hnc.state = .restoring) :
    v.huntCloseTold .done = (v.setBayOpen none).selectNext := by
  unfold State.huntCloseTold
  rw [h]

theorem closeTold_restoring_failed (h : v.hnc.state = .restoring) : v.huntCloseTold .failed = v.restoreFailed := by
  unfold State.huntCloseTold
  rw [h]

theorem closeTold_retest_done (h : v.hnc.state = .retestClosing) : v.huntCloseTold .done = v.toRetestDwell := by
  unfold State.huntCloseTold
  rw [h]

theorem closeTold_retest_failed (h : v.hnc.state = .retestClosing) :
    v.huntCloseTold .failed = v.endFoundLocked .closeFailed .closeFailed := by
  unfold State.huntCloseTold
  rw [h]

theorem closeTold_aborting_done (h : v.hnc.state = .aborting) :
    v.huntCloseTold .done = (v.setBayOpen none).endPending := by
  unfold State.huntCloseTold
  rw [h]

theorem closeTold_aborting_failed (h : v.hnc.state = .aborting) : v.huntCloseTold .failed = v.abortRestoreFailed := by
  unfold State.huntCloseTold
  rw [h]

end answers

end answer

/-! ### By the state of the hunt -/

section states
variable {s : State} {b : Bay} {f : Flight} {o : Told} {x : SlotState} (hx : x ≠ .free) (hstate : (s.slot (bayRec b)).state = x)
  (hpend : (s.slot (bayRec b)).pend = Pending.none) (hcls : f.cls = .hunt) (htrip : f.tripAttached = false)
  (htest : s.underTest = some b)
include hx hstate hpend hcls htrip htest

/-- In OPENING (R133). -/
theorem openingEnds (hhunt : s.hnc.state = .opening) (hcmd : f.cmd = .opening) :
    (o = .done → Freed s (s.commandEnd (bayRec b) f o) (bayRec b) (resultOf f o s.stamp) ∧
      (s.commandEnd (bayRec b) f o).hnc = { s.hnc with state := .dwell, timer := some s.curDwell, bayOpen := some b }) ∧
    (o = .refused ∨ o = .timeout → Outcome s (s.commandEnd (bayRec b) f o) .failedOpen ∧
      GoesOn (s.commandEnd (bayRec b) f o)) := by
  have hend := commandEnd_hunt (o := o) hx hstate hpend hcls htrip
  have htold := answered_open (o := o) htest hpend (by rw [hhunt]; rfl) hcmd
  refine ⟨fun hdone => ?_, fun hfailed => ?_⟩
  · subst hdone
    replace htold := htold.trans (openTold_opening_done (v := unsent s (bayRec b)) hhunt)
    refine ⟨hend.freed hpend (by rw [htold]; rfl) (by rw [htold]; exact unsent_out s _), ?_⟩
    rw [hend.hnc, htold]
    rfl
  · rw [ofTold_failed hfailed, openTold_opening_failed (v := unsent s (bayRec b)) hhunt] at htold
    obtain ⟨houtcome, hgoes⟩ := openFailed_leaves (s := unsent s (bayRec b)) htest
    exact ⟨hend.outcome (by rw [htold]; exact houtcome), hend.goesOn (by rw [htold]; exact hgoes)⟩

/-- In RESTORING (R135, R136). -/
theorem restoringEnds (hhunt : s.hnc.state = .restoring) (hcmd : f.cmd = .closing) :
    (o = .done → (s.commandEnd (bayRec b) f o).hnc.bayOpen = none ∧ GoesOn (s.commandEnd (bayRec b) f o)) ∧
    (o = .refused ∨ o = .timeout → Outcome s (s.commandEnd (bayRec b) f o) .failedRestore ∧
      (s.commandEnd (bayRec b) f o).hnc.bayOpen = none ∧
      (s.canLock b = true → ((s.commandEnd (bayRec b) f o).rcl b).state = .lockout .closeFailed) ∧
      GoesOn (s.commandEnd (bayRec b) f o)) := by
  have hend := commandEnd_hunt (o := o) hx hstate hpend hcls htrip
  have htold := answered_close (o := o) htest hpend (by rw [hhunt]; rfl) hcmd
  refine ⟨fun hdone => ?_, fun hfailed => ?_⟩
  · subst hdone
    replace htold := htold.trans (closeTold_restoring_done (v := unsent s (bayRec b)) hhunt)
    have hselects := selectFrom_selects ((unsent s (bayRec b)).setBayOpen none).nextPositions
      ((unsent s (bayRec b)).setBayOpen none)
    refine ⟨?_, hend.goesOn (by rw [htold]; exact hselects.goes)⟩
    rw [hend.hnc, htold]
    exact hselects.bayOpen
  · rw [ofTold_failed hfailed, closeTold_restoring_failed (v := unsent s (bayRec b)) hhunt] at htold
    obtain ⟨houtcome, hopen, hlocked, hgoes⟩ := restoreFailed_leaves (s := unsent s (bayRec b)) htest
    refine ⟨hend.outcome (by rw [htold]; exact houtcome), ?_, fun hlock => hend.locked (by rw [htold]; exact hlocked hlock),
      hend.goesOn (by rw [htold]; exact hgoes)⟩
    rw [hend.hnc, htold]
    exact hopen

/-- In RETEST_CLOSING (R138, R139, R140). -/
theorem retestEnds (hhunt : s.hnc.state = .retestClosing) (hcmd : f.cmd = .closing) :
    (o = .done → s.efu.nvd.state ≠ .displaced → Freed s (s.commandEnd (bayRec b) f o) (bayRec b) (resultOf f o s.stamp) ∧
      (s.commandEnd (bayRec b) f o).hnc = { s.hnc with state := .retestDwell, timer := some s.curDwell, bayOpen := none }) ∧
    (o = .done → s.efu.nvd.state = .displaced → HuntOver s (s.commandEnd (bayRec b) f o) .foundPersistent (some b) ∧
      (s.runs b = true → (∀ c, (s.rcl b).state ≠ .lockout c) →
        ((s.commandEnd (bayRec b) f o).rcl b).state = .lockout .huntFound)) ∧
    (o = .refused ∨ o = .timeout → HuntOver s (s.commandEnd (bayRec b) f o) .foundLocked (some b) ∧
      (s.runs b = true → (∀ c, (s.rcl b).state ≠ .lockout c) →
        ((s.commandEnd (bayRec b) f o).rcl b).state = .lockout .closeFailed)) := by
  have hend := commandEnd_hunt (o := o) hx hstate hpend hcls htrip
  have htold := answered_close (o := o) htest hpend (by rw [hhunt]; rfl) hcmd
  refine ⟨fun hdone hcalm => ?_, fun hdone hdisplaced => ?_, fun hfailed => ?_⟩
  · subst hdone
    have hdwells : answered s b f .done =
        ((unsent s (bayRec b)).setBayOpen none).huntTo .retestDwell (some (unsent s (bayRec b)).curDwell) :=
      (htold.trans (closeTold_retest_done (v := unsent s (bayRec b)) hhunt)).trans (if_neg (mt beq_iff_eq.mp hcalm))
    refine ⟨hend.freed hpend (by rw [hdwells]; rfl) (by rw [hdwells]; exact unsent_out s _), ?_⟩
    rw [hend.hnc, hdwells]
    rfl
  · subst hdone
    have hfound : answered s b f .done =
        (((unsent s (bayRec b)).setBayOpen none).huntTo .retestDwell (some (unsent s (bayRec b)).curDwell)).foundPersistent :=
      (htold.trans (closeTold_retest_done (v := unsent s (bayRec b)) hhunt)).trans (if_pos (beq_iff_eq.mpr hdisplaced))
    have htested : (((unsent s (bayRec b)).setBayOpen none).huntTo .retestDwell
        (some (unsent s (bayRec b)).curDwell)).underTest = some b := htest
    refine ⟨hend.over ?_, fun hruns hfree => hend.locked ?_⟩
    · rw [hfound]
      exact HuntOver.of_same (foundPersistent_over htested) rfl rfl rfl
    · rw [hfound]
      exact foundPersistent_locked htested hruns hfree
  · have hlocks := htold
    rw [ofTold_failed hfailed, closeTold_retest_failed (v := unsent s (bayRec b)) hhunt] at hlocks
    refine ⟨hend.over ?_, fun hruns hfree => hend.locked ?_⟩
    · rw [hlocks]
      exact endFoundLocked_over (s := unsent s (bayRec b)) htest _ _
    · rw [hlocks]
      exact endFoundLocked_state (s := unsent s (bayRec b)) htest hruns hfree _ _

section aborting
variable (hhunt : s.hnc.state = .aborting)
include hhunt

/-- The HUNT OPEN of an ABORTING hunt has failed (R143). -/
theorem abortingOpen_failed {w : HuntResult} (hp : s.hnc.pendingResult = some w) (hcmd : f.cmd = .opening)
    (ho : o = .refused ∨ o = .timeout) :
    Outcome s (s.commandEnd (bayRec b) f o) .failedOpen ∧ HuntOver s (s.commandEnd (bayRec b) f o) w none := by
  have hend := commandEnd_hunt (o := o) hx hstate hpend hcls htrip
  have htold := answered_open (o := o) htest hpend (by rw [hhunt]; rfl) hcmd
  rw [ofTold_failed ho, openTold_aborting_failed (v := unsent s (bayRec b)) hhunt] at htold
  have hset := setCurOutcome_hnc (unsent s (bayRec b)) .failedOpen
  have hsame := setCurOutcome_same (unsent s (bayRec b)) .failedOpen
  have hpending : ((unsent s (bayRec b)).setCurOutcome .failedOpen).hnc.pendingResult = some w := by rw [hset]; exact hp
  refine ⟨hend.outcome ?_, hend.over ?_⟩
  · rw [htold]
    exact Outcome.endPending (setCurOutcome_outcome (s := unsent s (bayRec b)) htest .failedOpen) hpending
  · rw [htold]
    refine huntOver_endPending hpending (by rw [hset]; rfl) ?_ (by rw [hsame]; rfl)
    rw [hsame]
    exact (unsent s (bayRec b)).setHnc_maskH _ (by rw [hset])

/-- The HUNT OPEN of an ABORTING hunt is done: the CLOSE of the restore is issued in its place (R143). -/
theorem abortingOpen_done (hcmd : f.cmd = .opening) (hjudge : s.judgeReq (bayRec b) .hunt .closing = none) :
    (s.commandEnd (bayRec b) f .done).hnc = { s.hnc with bayOpen := some b } ∧
    (s.commandEnd (bayRec b) f .done).slot (bayRec b) =
      { s.slot (bayRec b) with lastResult := some (resultOf f .done s.stamp) }.issued .hunt .closing s.mono 250 := by
  have hend := commandEnd_hunt (o := .done) hx hstate hpend hcls htrip
  have hbusy : (((unsent s (bayRec b)).setBayOpen (some b)).slot (bayRec b)).state ≠ .free :=
    fun e => hx (hstate.symm.trans e)
  have htold : answered s b f .done =
      ((unsent s (bayRec b)).setBayOpen (some b)).setPend (bayRec b) .hunt (some .closing) := by
    refine (answered_open (o := .done) htest hpend (by rw [hhunt]; rfl) hcmd).trans
      ((openTold_aborting_done (v := unsent s (bayRec b)) hhunt).trans ?_)
    have hjudged : ((unsent s (bayRec b)).setBayOpen (some b)).judgeReq (bayRec b) .hunt .closing = none := hjudge
    unfold State.placeHuntClose
    rw [place_accepted hjudged]
    exact withRequest_of_busy hbusy
  have hwaits : (answered s b f .done).slot (bayRec b) =
      { s.slot (bayRec b) with pend := Pending.none.set .hunt (some .closing) } := by
    rw [htold, SlotRules.setPend_slot, ← hpend]
    rfl
  have hslot : (freed (resulted (answered s b f .done) (bayRec b) f .done) (bayRec b)).slot (bayRec b) =
      { s.slot (bayRec b) with state := .free, pend := Pending.none.set .hunt (some .closing),
                               lastResult := some (resultOf f .done s.stamp) } := by
    rw [freed_slot, resulted_slot, hwaits, stamp_of_maskH hend.told]
  have hmask : (freed (resulted (answered s b f .done) (bayRec b) f .done) (bayRec b)).maskH = s.maskH :=
    (State.maskH_of_maskS (resulted_released (answered s b f .done) (bayRec b) f .done).1).trans hend.told
  have hmono := State.maskM_mono (State.maskM_of_maskB (State.maskB_of_maskH hmask))
  refine ⟨?_, ?_⟩
  · rw [hend.hnc, htold]
    rfl
  · rw [hend.eq]
    unfold finished State.freeSlot
    rw [← freed, State.issueFrom_one (c := .hunt) (cmd := .closing) (by rw [hslot]) (by decide)
      (fun _ => (closeBlocked_of_maskH hmask (bayRec b)).trans (closeBlocked_of_judged hjudge))]
    dsimp only
    rw [State.issueCmd_slot, hslot, hmono]
    unfold Slot.issued
    rw [hpend]
    rfl

/-- The HUNT CLOSE of an ABORTING hunt is done (R143). -/
theorem abortingClose_done {w : HuntResult} (hp : s.hnc.pendingResult = some w) (hcmd : f.cmd = .closing) :
    (s.commandEnd (bayRec b) f .done).hnc.bayOpen = none ∧ HuntOver s (s.commandEnd (bayRec b) f .done) w none := by
  have hend := commandEnd_hunt (o := .done) hx hstate hpend hcls htrip
  have htold : answered s b f .done = ((unsent s (bayRec b)).setBayOpen none).endPending :=
    (answered_close (o := .done) htest hpend (by rw [hhunt]; rfl) hcmd).trans
      (closeTold_aborting_done (v := unsent s (bayRec b)) hhunt)
  have hpending : ((unsent s (bayRec b)).setBayOpen none).hnc.pendingResult = some w := hp
  refine ⟨?_, hend.over ?_⟩
  · rw [hend.hnc, htold, endPending_hnc hpending]
    rfl
  · rw [htold]
    exact huntOver_endPending hpending rfl ((unsent s (bayRec b)).setHnc_maskH _ rfl) rfl

/-- The HUNT CLOSE of an ABORTING hunt has failed (R143). -/
theorem abortingClose_failed {w : HuntResult} (hp : s.hnc.pendingResult = some w) (hcmd : f.cmd = .closing)
    (ho : o = .refused ∨ o = .timeout) :
    (s.commandEnd (bayRec b) f o).hnc.bayOpen = none ∧ HuntOver s (s.commandEnd (bayRec b) f o) w none ∧
    (s.canLock b = true → ((s.commandEnd (bayRec b) f o).rcl b).state = .lockout .closeFailed) ∧
    ∀ y, s.curCandidate = some y → Outcome s (s.commandEnd (bayRec b) f o) (failedOutcome y.outcome) := by
  have hend := commandEnd_hunt (o := o) hx hstate hpend hcls htrip
  have htold := answered_close (o := o) htest hpend (by rw [hhunt]; rfl) hcmd
  rw [ofTold_failed ho, closeTold_aborting_failed (v := unsent s (bayRec b)) hhunt] at htold
  obtain ⟨hover, hopen, hlocked, houtcome⟩ := abortRestoreFailed_leaves (s := unsent s (bayRec b)) htest hp
  refine ⟨?_, hend.over (by rw [htold]; exact hover), fun hlock => hend.locked (by rw [htold]; exact hlocked hlock),
    fun y hy => hend.outcome (by rw [htold]; exact houtcome y hy)⟩
  rw [hend.hnc, htold]
  exact hopen

end aborting

end states

end Sys2Proof.Proofs.HuntCommandEnds

/-! The timeout of a command and the end of a command by its class (R56, R57, R60, R61, R74). -/

namespace Sys2Proof.Proofs.CommandTimeouts
open Sys2Proof.Machine Sys2Proof.Safety Sys2Proof.Proofs.HuntBays Sys2Proof.Proofs.HuntEnd Sys2Proof.Proofs.HuntAbort
  Sys2Proof.Proofs.HuntTimes Sys2Proof.Proofs.ControlSteps Sys2Proof.Proofs.CommandEnds Sys2Proof.Proofs.TripFailures
  Sys2Proof.Proofs.HuntAnswers Sys2Proof.Proofs.HuntCommandEnds Sys2Proof.Proofs.RecloseTimers

section bay
variable {s : State} {b : Bay}

/-- The RCC runs a sequence at the bay: a LOCKOUT can reach it. -/
theorem canLock_iff : s.canLock b = true ↔ s.runs b = true ∧ ∀ c, (s.rcl b).state ≠ .lockout c := by
  refine ⟨fun h => ?_, fun h => canLock_of h.1 h.2⟩
  obtain ⟨hruns, hout⟩ := Bool.and_eq_true_iff.mp (show (s.runs b && !(s.rcl b).state.isLockout) = true from h)
  refine ⟨hruns, fun c hc => ?_⟩
  rw [hc] at hout
  cases hout

theorem canLock_eq_false (h : ¬ (s.runs b = true ∧ ∀ c, (s.rcl b).state ≠ .lockout c)) : s.canLock b = false :=
  Bool.not_eq_true _ ▸ mt canLock_iff.mp h

theorem ne_free_of_flight {n : Rec} {f : Flight} (h : (s.slot n).state.flight = some f) : (s.slot n).state ≠ .free := by
  intro hfree
  rw [hfree] at h
  cases h

theorem commandEnd_status (s : State) (n : Rec) (f : Flight) (o : Told) :
    (s.commandEnd n f o).bcu.status = s.bcu.status :=
  (StatusRules.closedC_status s.bcu.status).commandEnd (fun _ _ h => h) rfl

theorem commandEnd_onlyControl (s : State) (n : Rec) (f : Flight) (o : Told) : OnlyControl s (s.commandEnd n f o) :=
  onlyControl_of_mask (State.commandEnd_maskB s n f o)

theorem sameReasons_of_rcc {t : State} (h : t.rcc = s.rcc) (l : List BlockReason) : SameReasons l s t :=
  fun b r _ => by rw [rcl_of_rcc h]

/-- The CLOSE of an aborted hunt's restore is accepted where nothing keeps the bay from it. -/
theorem judgeReq_close (hserved : (s.cap (bayRec b)).inService = true) (hpart : s.mgu.part ≠ .standdown)
    (hlocal : (s.status (bayRec b)).localMode = false) (hinterlock : (s.status (bayRec b)).interlock = false) :
    s.judgeReq (bayRec b) .hunt .closing = none :=
  judgeReq_close_accepted hserved hpart (by simp [hlocal, hinterlock])

end bay

/-- Settles O44, by how the command ends and by its class. -/
theorem commandTimesOut : Obligations.CommandTimesOut := by
  refine ⟨fun s n hlive => ⟨fun hrunning => ?running, fun f hflight htimer => ?due⟩, fun s n f o hflight hpend hsup => ?ends⟩
  case running =>
    have hnone : s.commandDue n = none := by
      refine Option.filter_eq_none_iff.mpr fun f hf hdue => hrunning f hf (beq_iff_eq.mp hdue)
    refine (State.live_of_free hlive _).trans ?_
    rw [hnone]
  case due =>
    have hdue : s.commandDue n = some f := Option.filter_eq_some_iff.mpr ⟨hflight, beq_iff_eq.mpr htimer⟩
    refine ⟨s.commandEnd n f .timeout, ?_, commandEnd_onlyControl s n f .timeout, commandEnd_status s n f .timeout,
      fun htrip hpend => ⟨fun hcls => ?silent, fun b hcls hn hruns hissued => ?reclose⟩, fun htrip hflag hset hn => ?backup,
      fun htrip hactive hnone => ?standdown, rfl⟩
    · refine (State.live_of_free hlive _).trans ?_
      rw [hdue]
      rfl
    case silent =>
      obtain ⟨⟨hslot, hout⟩, hmask, hat, hrcc⟩ := commandEnd_silent (o := .timeout) hpend rfl htrip hcls
      exact ⟨⟨hslot, hout, onlySlots_of_mask hmask, hat, sameReasons_of_rcc hrcc _⟩, hrcc⟩
    case reclose =>
      subst hn
      have hends := commandEnd_reclose (o := .timeout) (ne_free_of_flight hflight) rfl hpend hcls htrip (by decide)
      exact ⟨hends.failed (.inr rfl) hissued hruns, onlySlots_of_mask hends.mask, hends.only⟩
    case backup => exact ((commandEnd_backup s n htrip (.inr rfl)).1 hflag hset hn).1
    case standdown =>
      obtain ⟨hflag, hstands⟩ := (commandEnd_backup s n htrip (.inr rfl)).2 hnone
      exact ⟨hstands hactive, hflag⟩
  case ends =>
    have hx := ne_free_of_flight hflight
    refine ⟨commandEnd_onlyControl s n f o, commandEnd_status s n f o, fun hcls htrip => ?silent,
      fun htrip hn hfailed hactive => ?incomer, fun b hn => ?bay⟩
    case silent =>
      obtain ⟨hfreed, hmask, hat, hrcc⟩ := commandEnd_silent (o := o) hpend rfl htrip hcls
      exact ⟨hfreed, onlySlots_of_mask hmask, hat, hrcc⟩
    case incomer => exact ((commandEnd_backup s n htrip hfailed).2 (.inr (.inr hn))).2 hactive
    case bay =>
      subst hn
      refine ⟨fun cause htrip hcls hdone hlatch => ?confirmed, fun htrip hcls hfailed => ?failed, fun hcls htrip => ?reclose,
        fun hcls htrip htest => ?hunt⟩
      case confirmed =>
        subst hdone
        have hconfirmed := tripConfirmed_commandEnd hx rfl hpend hcls htrip hlatch
        exact ⟨hconfirmed.latch, hconfirmed.others, hconfirmed.only, hconfirmed.hnc, hconfirmed.fru, hconfirmed.lastResult,
          fun hout => hconfirmed.out (canLock_eq_false hout), fun hseq => hconfirmed.blocked (canLock_iff.mpr hseq),
          fun hseq => hconfirmed.exhausted (canLock_iff.mpr hseq), fun hseq => hconfirmed.standdown (canLock_iff.mpr hseq),
          fun hseq => hconfirmed.dead (canLock_iff.mpr hseq)⟩
      case failed =>
        have hends := tripFailed_commandEnd hx rfl hpend hcls htrip hfailed
        obtain ⟨hissues, hstands⟩ := commandEnd_backup s (bayRec b) htrip hfailed
        refine ⟨hends.latch, hends.shots, fun hseq => ?_, fun hout => ?_, hends.record.counts.1, hends.record.counts.2.1,
          hends.record.counts.2.2, hends.record.record, fun hflag hset => ?_, fun hnone => ?_⟩
        · rw [hends.state, if_pos (canLock_iff.mpr hseq)]
        · rw [hends.state, canLock_eq_false hout]
          rfl
        · obtain ⟨hflagged, hpart⟩ := hissues hflag hset (bayRec_ne_incomer b)
          exact ⟨hflagged, hpart, fun hfree hnothing =>
            (hends.issued hflag hset hfree hnothing).trans (issued_of_nothing hnothing)⟩
        · exact hstands (hnone.imp_right .inl)
      case reclose =>
        have hends := commandEnd_reclose (o := o) hx rfl hpend hcls htrip hsup
        exact ⟨onlySlots_of_mask hends.mask, hends.only, hends.done, hends.failed, hends.other⟩
      case hunt =>
        have hend := commandEnd_hunt (o := o) hx rfl hpend hcls htrip
        refine ⟨hend.only, hend.lastResult, openingEnds hx rfl hpend hcls htrip htest, fun hhunt hcmd => ?restoring,
          fun hhunt hcmd => ?retest, fun hhunt w hw => ?aborting⟩
        case restoring =>
          obtain ⟨hdone, hfailed⟩ := restoringEnds (o := o) hx rfl hpend hcls htrip htest hhunt hcmd
          refine ⟨hdone, fun ho => ?_⟩
          obtain ⟨houtcome, hopen, hlocked, hgoes⟩ := hfailed ho
          exact ⟨houtcome, hopen, fun hseq => hlocked (canLock_iff.mpr hseq), hgoes⟩
        case retest =>
          obtain ⟨hcalm, hdisplaced, hfailed⟩ := retestEnds (o := o) hx rfl hpend hcls htrip htest hhunt hcmd
          refine ⟨hcalm, fun ho hnvd => ?_, fun ho => ?_⟩
          · obtain ⟨hover, hlocked⟩ := hdisplaced ho hnvd
            exact ⟨hover, fun hseq => hlocked hseq.1 hseq.2⟩
          · obtain ⟨hover, hlocked⟩ := hfailed ho
            exact ⟨hover, fun hseq => hlocked hseq.1 hseq.2⟩
        case aborting =>
          refine ⟨fun hcmd ho => abortingOpen_failed hx rfl hpend hcls htrip htest hhunt hw hcmd ho,
            fun hcmd ho hserved hpart hlocal hinterlock => ?_, fun hcmd ho => ?_, fun hcmd ho => ?_⟩
          · subst ho
            obtain ⟨hhnc, hslot⟩ := abortingOpen_done hx rfl hpend hcls htrip htest hhunt hcmd
              (judgeReq_close hserved hpart hlocal hinterlock)
            exact ⟨hhnc, hslot.trans (issued_of_nothing hpend)⟩
          · subst ho
            exact abortingClose_done hx rfl hpend hcls htrip htest hhunt hw hcmd
          · obtain ⟨hopen, hover, hlocked, houtcome⟩ :=
              abortingClose_failed hx rfl hpend hcls htrip htest hhunt hw hcmd ho
            exact ⟨hopen, hover, fun hseq => hlocked (canLock_iff.mpr hseq), houtcome⟩

end Sys2Proof.Proofs.CommandTimeouts

/-! A BAYSTAT frame for all nodes (R43, R44): the record it is taken at, its payload, the stages of its use, the status it leaves, and
the echo where it changes nothing of the status but the lamp (R54, R55). -/

namespace Sys2Proof.Proofs.BaystatFrames
open Sys2Proof.Machine Sys2Proof.Safety Sys2Proof.Proofs.FrameArrival Sys2Proof.Proofs.StatusRules Sys2Proof.Proofs.ControlSteps
  Sys2Proof.Proofs.CommandEnds Sys2Proof.Proofs.CommandTimeouts

/-! ### The frame and its payload -/

section frame
variable {s : State} {src : Byte} {payload : List Byte} {n : Rec}

theorem exec_baystatFrame_broadcast (hfree : s.pins.resetHeld = false) (hpart : s.mgu.part ≠ .bypass)
    (hsrc : src ≠ s.ownByte) (hown : s.riu.own ≠ 63) (hlength : payload.length ≤ 1024) :
    exec (.baystatFrame broadcast src payload) s =
      .next ((s.refreshIn.bcuBaystat src payload).forward (buildFrame broadcast src kindBaystat payload)) := by
  have hgood := receive_of_good hpart (buildFrame_good hlength broadcast src kindBaystat)
  have hact := actOn_baystat (s := s.refreshIn) (f := buildFrame broadcast src kindBaystat payload) hsrc
    (ownByte_ne_broadcast hown) rfl rfl
  exact (State.live_of_free hfree _).trans (congrArg _ (hgood.trans hact))

theorem recordOf_none (h : ∀ m, (s.cap m).addr ≠ some src.toNat) : s.recordOf src = none :=
  List.find?_eq_none.mpr fun m _ => mt beq_iff_eq.mp (h m)

theorem allRecs_eq_finRange : allRecs = List.finRange 9 := by decide

/-- The record found is the first with the address. -/
theorem recordOf_first (haddr : (s.cap n).addr = some src.toNat) (hfirst : ∀ m, m < n → (s.cap m).addr ≠ some src.toNat) :
    s.recordOf src = some n := by
  unfold State.recordOf
  rw [allRecs_eq_finRange, List.find?_eq_some_iff_getElem]
  refine ⟨by simp [haddr], n.val, by simp, by simp, fun j hj => ?_⟩
  simpa using hfirst ⟨j, hj.trans n.isLt⟩ hj

theorem positionOfCode_eq (p : Byte) : positionOfCode p =
    if p = 1 then .opened else if p = 2 then .closed else if p = 3 then .travel else .faulty := by
  have hcode {k : Nat} (hk : k < 256) (h : p ≠ BitVec.ofNat 8 k) : p.toNat ≠ k := fun e =>
    h (BitVec.eq_of_toNat_eq (e.trans (Nat.mod_eq_of_lt hk).symm))
  by_cases h1 : p = 1
  · subst h1
    rfl
  · by_cases h2 : p = 2
    · subst h2
      rfl
    · by_cases h3 : p = 3
      · subst h3
        rfl
      · rw [if_neg h1, if_neg h2, if_neg h3]
        unfold positionOfCode
        split
        · exact absurd ‹_› (hcode (by decide) h1)
        · exact absurd ‹_› (hcode (by decide) h2)
        · exact absurd ‹_› (hcode (by decide) h3)
        · rfl

theorem lampOfCode_eq (l : Byte) : lampOfCode l = if l = 0 then .off else if l = 1 then .on else if l = 2 then .blink else .unknown := by
  have hcode {k : Nat} (hk : k < 256) (h : l ≠ BitVec.ofNat 8 k) : l.toNat ≠ k := fun e =>
    h (BitVec.eq_of_toNat_eq (e.trans (Nat.mod_eq_of_lt hk).symm))
  by_cases h0 : l = 0
  · subst h0
    rfl
  · by_cases h1 : l = 1
    · subst h1
      rfl
    · by_cases h2 : l = 2
      · subst h2
        rfl
      · rw [if_neg h0, if_neg h1, if_neg h2]
        unfold lampOfCode
        split
        · exact absurd ‹_› (hcode (by decide) h0)
        · exact absurd ‹_› (hcode (by decide) h1)
        · exact absurd ‹_› (hcode (by decide) h2)
        · rfl

/-- The report that a payload of the right length spells (R43). -/
def report (p i l t r : Byte) : Baystat :=
  { position := positionOfCode p, loc := i.getLsbD 0, interlock := i.getLsbD 1, spring := i.getLsbD 2,
    lamp := lampOfCode l, echoTag := t.toNat, echoDone := r == 1 }

theorem bcuBaystat_unknown (h : s.recordOf src = none) (payload : List Byte) : s.bcuBaystat src payload = s := by
  unfold State.bcuBaystat
  rw [h]

theorem bcuBaystat_taken (h : s.recordOf src = some n) (p i l t r : Byte) :
    s.bcuBaystat src [p, i, l, t, r] = s.applyBaystat n (report p i l t r) := by
  unfold State.bcuBaystat
  rw [h]
  rfl

end frame

/-! ### The stages of its use (R44) -/

section stages
variable {s : State} {n : Rec} {m : Baystat}

theorem setStatus_twice (s : State) (n : Rec) (x y : BayStatus) : (s.setStatus n x).setStatus n y = s.setStatus n y := by
  have hput : (s.bcu.status.put n x).put n y = s.bcu.status.put n y := Vector.ext_look fun i => by
    simp only [Vector.look_put]
    split <;> rfl
  exact congrArg (fun v => { s with bcu := { s.bcu with status := v } }) hput

/-- The record's BAYSTAT timer started, with the spring bit of the frame. -/
def seen (s : State) (n : Rec) (spring : Bool) : State :=
  s.setStatus n { s.status n with silence := some 1000, springReported := spring }

theorem seen_status (s : State) (n : Rec) (v : Bool) :
    (seen s n v).status n = { s.status n with silence := some 1000, springReported := v } := State.setStatus_status _ _ _

theorem seen_present (s : State) (n : Rec) (v : Bool) : (seen s n v).presentNow n = true := by
  unfold State.presentNow
  rw [seen_status]
  rfl

theorem seen_judged (h : (s.status n).presence = true) (v : Bool) : (seen s n v).judgePresence n = seen s n v :=
  if_pos (by rw [seen_present, seen_status]; exact beq_iff_eq.mpr h)

/-- The lamp of a frame stored. -/
def relamped (s : State) (n : Rec) (l : Lamp) : State := s.setStatus n { s.status n with reported := l }

/-- The inputs, the spring and the position of a frame taken. -/
def moved (s : State) (n : Rec) (m : Baystat) : State :=
  (((seen s n m.spring).storeInputs n (gatedLocal n (s.cap n) m.loc) (gatedInterlock n (s.cap n) m.interlock)).storeSpring n
    (gatedSpring n (s.cap n) m.spring)).storePosition n m.position

theorem applyBaystat_moved (h : (s.status n).presence = true) (m : Baystat) :
    s.applyBaystat n m = (relamped (moved s n m) n m.lamp).judgeEcho n m.echoTag m.echoDone := by
  have hseen := seen_judged h m.spring
  unfold State.applyBaystat
  dsimp only
  rw [show s.setStatus n { s.status n with silence := some Config.baystatSilenceMs, springReported := m.spring } =
    seen s n m.spring from rfl, hseen]
  rfl

end stages

/-! ### The echo (R54, R55) -/

section echo
variable {s : State} {n : Rec} {f : Flight} {tag : Nat} {done : Bool}

/-- No command at the slot has been echoed. -/
def Unechoed (n : Rec) (s : State) : Prop := ∀ f, (s.slot n).state ≠ .echoed f

theorem judgeEcho_free (h : (s.slot n).state = .free) : s.judgeEcho n tag done = s := by
  unfold State.judgeEcho
  dsimp only
  rw [h]

theorem judgeEcho_other (h : (s.slot n).state = .inFlight f) (htag : tag = 0 ∨ tag ≠ f.tag) : s.judgeEcho n tag done = s := by
  unfold State.judgeEcho
  dsimp only
  rw [h]
  exact if_neg (by omega)

theorem judgeEcho_refused (h : (s.slot n).state = .inFlight f) (htag : tag ≠ 0 ∧ tag = f.tag) :
    s.judgeEcho n tag false = s.commandEnd n f .refused := by
  unfold State.judgeEcho
  dsimp only
  rw [h]
  exact if_pos htag

theorem judgeEcho_done (h : (s.slot n).state = .inFlight f) (htag : tag ≠ 0 ∧ tag = f.tag)
    (hthere : f.cmd.arrives (s.status n).position = true) :
    s.judgeEcho n tag true = (s.takeIndicator n f.cmd).commandEnd n f .done := by
  unfold State.judgeEcho
  dsimp only
  rw [h]
  exact (if_pos htag).trans ((if_neg (c := (!true) = true) nofun).trans (if_pos hthere))

theorem judgeEcho_echoed (h : (s.slot n).state = .inFlight f) (htag : tag ≠ 0 ∧ tag = f.tag)
    (hthere : f.cmd.arrives (s.status n).position = false) :
    s.judgeEcho n tag true = s.setSlot n { s.slot n with state := .echoed f } := by
  unfold State.judgeEcho
  dsimp only
  rw [h]
  exact (if_pos htag).trans ((if_neg (c := (!true) = true) nofun).trans (if_neg (hthere ▸ Bool.false_ne_true)))

theorem judgeEcho_arrived (h : (s.slot n).state = .echoed f) (hthere : f.cmd.arrives (s.status n).position = true) :
    s.judgeEcho n tag done = s.commandEnd n f .done := by
  unfold State.judgeEcho
  dsimp only
  rw [h]
  exact if_pos hthere

theorem judgeEcho_awaits (h : (s.slot n).state = .echoed f) (hthere : f.cmd.arrives (s.status n).position = false) :
    s.judgeEcho n tag done = s := by
  unfold State.judgeEcho
  dsimp only
  rw [h]
  exact if_neg (by rw [hthere]; exact Bool.false_ne_true)

/-- A frame that echoes no command leaves a slot with no echoed command as it is. -/
theorem judgeEcho_untold (h : Unechoed n s) : s.judgeEcho n 0 done = s := by
  cases hstate : (s.slot n).state with
  | free => exact judgeEcho_free hstate
  | inFlight f => exact judgeEcho_other hstate (.inl rfl)
  | echoed f => exact absurd hstate (h f)

theorem arrives_iff (cmd : Command) (p : Position) :
    cmd.arrives p = true ↔ (cmd = .opening → p = .opened) ∧ (cmd = .closing → p = .closed) := by
  cases cmd <;> simp [Command.arrives]

theorem arrives_eq_false {cmd : Command} {p : Position}
    (h : ¬ ((cmd = .opening → p = .opened) ∧ (cmd = .closing → p = .closed))) : cmd.arrives p = false :=
  Bool.not_eq_true _ ▸ mt (arrives_iff cmd p).mp h

theorem takeIndicator_status (s : State) (n : Rec) (cmd : Command) :
    s.takeIndicator n cmd = s.setStatus n ((s.takeIndicator n cmd).status n) ∧
    ∃ w, (s.takeIndicator n cmd).status n = { s.status n with indicator := w } := by
  unfold State.takeIndicator
  split
  · split
    · next l _ => exact ⟨by rw [State.setStatus_status], l, State.setStatus_status _ _ _⟩
    · exact ⟨(setStatus_self s n).symm, _, rfl⟩
  · exact ⟨(setStatus_self s n).symm, _, rfl⟩

theorem takeIndicator_lamp {a : LampArg} {w : Lamp} (h : a.lamp = some w) :
    ((s.takeIndicator n (.indicate a)).status n).indicator = w := by
  unfold State.takeIndicator
  dsimp only
  rw [h]
  dsimp only
  rw [State.setStatus_status]

theorem takeIndicator_breaker {cmd : Command} (h : cmd = .opening ∨ cmd = .closing) : s.takeIndicator n cmd = s := by
  rcases h with rfl | rfl <;> rfl

theorem judgeEcho_status (s : State) (n : Rec) (tag : Nat) (done : Bool) :
    ∃ w, (s.judgeEcho n tag done).bcu.status = (s.setStatus n { s.status n with indicator := w }).bcu.status := by
  have hsame : s.bcu.status = (s.setStatus n { s.status n with indicator := (s.status n).indicator }).bcu.status :=
    congrArg (fun t : State => t.bcu.status) (setStatus_self s n).symm
  unfold State.judgeEcho
  dsimp only
  split
  · exact ⟨_, hsame⟩
  · next f _ =>
    split
    · split
      · exact ⟨_, (commandEnd_status _ _ _ _).trans hsame⟩
      · split
        · obtain ⟨hset, w, hw⟩ := takeIndicator_status s n f.cmd
          refine ⟨w, (commandEnd_status _ _ _ _).trans ?_⟩
          rw [← hw, ← hset]
        · exact ⟨_, hsame⟩
    · exact ⟨_, hsame⟩
  · exact ⟨_, ite_both (P := fun t : State => t.bcu.status = _) ((commandEnd_status _ _ _ _).trans hsame) hsame⟩

end echo

/-! ### The status it leaves (R43) -/

section status
variable {s : State} {n : Rec} {m : Baystat}

/-- The status of a record as the frame gives it. -/
theorem applyBaystat_status (s : State) (n : Rec) (m : Baystat) : ∃ w, ∀ k, (s.applyBaystat n m).status k =
    if n = k then { s.status n with
      position := m.position, localMode := gatedLocal n (s.cap n) m.loc, interlock := gatedInterlock n (s.cap n) m.interlock,
      spring := gatedSpring n (s.cap n) m.spring, springReported := m.spring, reported := m.lamp, presence := true,
      silence := some 1000, indicator := w } else s.status k := by
  have hmask := State.maskH_of_maskS (Silences.judgePresence_maskS (seen s n m.spring) n)
  have hcaps := State.maskM_bcu_cap (State.maskM_of_maskB (State.maskB_of_maskH hmask))
  have hcap : ((seen s n m.spring).judgePresence n).cap n = s.cap n := congrArg (fun v => Vector.look v n) hcaps
  have hpresence := judgePresence_status (seen s n m.spring) n
  rw [seen_present] at hpresence
  have hunfold : s.applyBaystat n m = (relamped (((((seen s n m.spring).judgePresence n).storeInputs n
      (gatedLocal n (s.cap n) m.loc) (gatedInterlock n (s.cap n) m.interlock)).storeSpring n
      (gatedSpring n (s.cap n) m.spring)).storePosition n m.position) n m.lamp).judgeEcho n m.echoTag m.echoDone := by
    rw [← hcap]
    rfl
  rw [hunfold]
  generalize hjudged : (seen s n m.spring).judgePresence n = a at hpresence
  generalize hinputs : a.storeInputs n (gatedLocal n (s.cap n) m.loc) (gatedInterlock n (s.cap n) m.interlock) = b
  generalize hspring : b.storeSpring n (gatedSpring n (s.cap n) m.spring) = c
  generalize hposition : c.storePosition n m.position = d
  obtain ⟨w, hecho⟩ := judgeEcho_status (relamped d n m.lamp) n m.echoTag m.echoDone
  have hb := storeInputs_status a n (gatedLocal n (s.cap n) m.loc) (gatedInterlock n (s.cap n) m.interlock)
  have hc := storeSpring_status b n (gatedSpring n (s.cap n) m.spring)
  have hd := storePosition_status c n m.position
  rw [hinputs] at hb
  rw [hspring] at hc
  rw [hposition] at hd
  refine ⟨w, fun k => ?_⟩
  rw [status_of_eq hecho, setStatus_status, relamped, setStatus_status, setStatus_status, status_of_eq hd, status_of_eq hd,
    setStatus_status, setStatus_status, status_of_eq hc, status_of_eq hc, setStatus_status, setStatus_status, status_of_eq hb,
    status_of_eq hb, setStatus_status, setStatus_status, status_of_eq hpresence, status_of_eq hpresence, setStatus_status,
    setStatus_status, seen, setStatus_status, setStatus_status]
  simp only [if_true]
  split <;> rfl

end status

/-! ### A frame that changes nothing of the status but the lamp -/

section unchanged
variable {s : State} {n : Rec} {m : Baystat}

theorem moved_unchanged (hposition : (s.status n).position = m.position)
    (hlocal : (s.status n).localMode = gatedLocal n (s.cap n) m.loc)
    (hinterlock : (s.status n).interlock = gatedInterlock n (s.cap n) m.interlock)
    (hspring : (s.status n).spring = gatedSpring n (s.cap n) m.spring) : moved s n m = seen s n m.spring := by
  have hstatus := seen_status s n m.spring
  have hinputs : (seen s n m.spring).storeInputs n (gatedLocal n (s.cap n) m.loc) (gatedInterlock n (s.cap n) m.interlock) =
      seen s n m.spring := by
    have hheld := storeInputs_held (s := seen s n m.spring) (n := n)
    rwa [hstatus, hlocal, hinterlock] at hheld
  have hsprings : (seen s n m.spring).storeSpring n (gatedSpring n (s.cap n) m.spring) = seen s n m.spring := by
    have hheld := storeSpring_held (s := seen s n m.spring) (n := n)
    rwa [hstatus, hspring] at hheld
  have hpositions : (seen s n m.spring).storePosition n m.position = seen s n m.spring := by
    have hheld := storePosition_held (s := seen s n m.spring) (n := n)
    rwa [hstatus, hposition] at hheld
  unfold moved
  rw [hinputs, hsprings, hpositions]

theorem relamped_seen (s : State) (n : Rec) (v : Bool) (l : Lamp) : relamped (seen s n v) n l =
    s.setStatus n { s.status n with silence := some 1000, springReported := v, reported := l } := by
  unfold relamped
  rw [seen_status, seen, setStatus_twice]

end unchanged

end Sys2Proof.Proofs.BaystatFrames

/-! What acts at one bay's slot and reclose record (R51, R52, R71, R73, R78, R79, R81) keeps: a property kept by each of the few
operations it is made of. -/

namespace Sys2Proof.Proofs.BayActs
open Sys2Proof.Machine Sys2Proof.Safety Sys2Proof.Proofs.Occurrences Sys2Proof.Proofs.HuntBays Sys2Proof.Proofs.HuntEnd
  Sys2Proof.Proofs.SlotRules Sys2Proof.Proofs.ControlSteps Sys2Proof.Proofs.BaystatFrames

/-- Kept by what moves one slot and the reclose record of its bay, with the occurrences LOCKOUT and RECLOSE_CANCELLED. -/
structure SlotSteps (n : Rec) (P : State → Prop) : Prop where
  slot (s : State) (x : Slot) : (∀ f, x.state = .echoed f → (s.slot n).state = .echoed f) → P s → P (s.setSlot n x)
  out (s : State) (f : Option Frame) : P s → P (s.setOutPlace n f)
  rcl (s : State) (b : Bay) (x : RecloseRecord) : bayRec b = n → P s → P (s.setRcl b x)
  occur (s : State) (f : Factor) (m : BitVec 9) (d : List Byte) : f = fLockout ∨ f = fRecloseCancelled → P s → P (s.occur f m d)

section slot
variable {n : Rec} {P : State → Prop} (hP : SlotSteps n P) {s : State}
include hP

theorem SlotSteps.setPend (c : ReqClass) (v : Option Command) (hs : P s) : P (s.setPend n c v) :=
  hP.slot s _ (fun _ => id) hs

theorem SlotSteps.setResult (r : LastResult) (hs : P s) : P (s.setResult n r) := hP.slot s _ (fun _ => id) hs

theorem SlotSteps.issueCmd (c : ReqClass) (cmd : Command) (hs : P s) : P (s.issueCmd n c cmd) := by
  have hissued : P _ := hP.out _ (some (s.bayCmdFrame n cmd (nextTag (s.slot n).lastTag)))
    (hP.slot s ((s.slot n).issued c cmd s.mono (commandMs cmd)) nofun hs)
  unfold State.issueCmd
  dsimp only
  split
  · next b hb =>
    unfold State.rccIssued
    exact ite_both (hP.rcl _ b _ (bayRec_of_recBay hb) hissued) hissued
  · exact hissued

theorem SlotSteps.pendLamp (a : LampArg) (hs : P s) : P (s.pendLamp n a) := by
  unfold State.pendLamp
  exact ite_both (hP.setPend _ _ hs) hs

end slot

section bay
variable {b : Bay} {P : State → Prop} (hP : SlotSteps (bayRec b) P) {s : State}
include hP

theorem SlotSteps.lockPend (cause : LockoutCause) (hs : P s) : P (s.lockPend b cause) :=
  hP.pendLamp _ (hP.occur _ _ _ _ (.inl rfl) (hP.rcl _ b _ rfl (hP.setPend _ _ hs)))

end bay

section issue
variable {n : Rec} {P : State → Prop} (hP : SlotSteps n P) {s : State}
include hP

theorem SlotSteps.withdrawAtIssue (c : ReqClass) (cmd : Command) (code : ResultCode) (hs : P s) :
    P (s.withdrawAtIssue n c cmd code) := by
  have hout : P (s.setPend n c none) := hP.setPend _ _ hs
  unfold State.withdrawAtIssue
  dsimp only
  split
  · next b hb =>
    obtain rfl := bayRec_of_recBay hb
    exact ite_both (hP.lockPend _ hout) hout
  · exact hP.setResult _ hout
  · exact hout

theorem SlotSteps.issueFrom (cs : List ReqClass) (hs : P s) : P (State.issueFrom cs n s).1 := by
  induction cs generalizing s with
  | nil => exact hs
  | cons c cs ih =>
    unfold State.issueFrom
    split
    · exact ih hs
    · exact ih (hP.setResult _ (hP.setPend _ _ hs))
    · split
      · exact ih (hP.withdrawAtIssue _ _ _ hs)
      · exact hP.issueCmd _ _ hs

theorem SlotSteps.issueNext (hs : P s) : P (s.issueNext n) := by
  unfold State.issueNext
  exact ite_both (hP.issueFrom _ hs) hs

theorem SlotSteps.requested (c : ReqClass) (cmd : Command) (hs : P s) : P (requested s n c cmd) :=
  hP.issueNext (hP.setPend _ _ hs)

theorem SlotSteps.lamp (a : LampArg) (hs : P s) : P (s.lamp n a) := by
  rcases lamp_cases s n a with h | h
  · rwa [h]
  · rw [h]
    exact hP.requested _ _ hs

end issue

section reclose
variable {b : Bay} {P : State → Prop} (hP : SlotSteps (bayRec b) P) {s : State}
include hP

theorem SlotSteps.lock (cause : LockoutCause) (hs : P s) : P (s.lock b cause) := by
  unfold State.lock
  exact ite_both (hP.issueNext (hP.lockPend _ hs)) hs

theorem SlotSteps.rccRefused (code : ResultCode) (hs : P s) : P (s.rccRefused b code) := by
  unfold State.rccRefused
  exact ite_both (hP.lock _ hs) hs

theorem SlotSteps.requestReclose (hs : P s) : P (s.requestReclose b) := by
  have hwaits : P (s.setRcl b { s.rcl b with state := .closing .waiting, deadTimer := none, springTimer := none }) :=
    hP.rcl s b _ rfl hs
  unfold State.requestReclose
  dsimp only
  generalize s.setRcl b { s.rcl b with state := .closing .waiting, deadTimer := none, springTimer := none } = t at hwaits
  cases hjudge : t.judgeReq (bayRec b) .reclose .closing with
  | none =>
    rw [place_of_judged hjudge]
    exact hP.requested _ _ hwaits
  | some code =>
    rw [place_of_refused hjudge]
    exact hP.rccRefused _ hwaits

theorem SlotSteps.springCharged (hs : P s) : P (s.springCharged b) := by
  have hset : P (s.setRcl b { s.rcl b with springTimer := none }) := hP.rcl s b _ rfl hs
  unfold State.springCharged
  exact ite_both (ite_both (hP.lock _ hset) (hP.requestReclose hset)) hs

theorem SlotSteps.putReason (r : BlockReason) (v : Bool) (hs : P s) : P (s.putReason b r v) := hP.rcl s b _ rfl hs

theorem SlotSteps.addReason (r : BlockReason) (hs : P s) : P (s.addReason b r) := by
  have hput : P (s.putReason b r true) := hP.putReason _ _ hs
  unfold State.addReason
  exact ite_both hs (ite_both (hP.lock _ (hP.occur _ _ _ _ (.inr rfl) (hP.setPend _ _ hput))) hput)

theorem SlotSteps.removeReason (r : BlockReason) (hs : P s) : P (s.removeReason b r) := by
  unfold State.removeReason
  exact ite_both (hP.putReason _ _ hs) hs

theorem SlotSteps.rccPosition (p : Position) (hs : P s) : P (s.rccPosition b p) := by
  have hset : P (s.setRcl b { s.rcl b with lastDefinite := some p }) := hP.rcl s b _ rfl hs
  have hfollows {t : State} (ht : P t) : P (t.followIdle b) := hP.rcl t b _ rfl ht
  have hopens {t : State} (ht : P t) : P (t.bayOpening b) := by
    unfold State.bayOpening
    exact ite_both (hP.rcl t b _ rfl ht) ht
  have hcloses {t : State} (ht : P t) : P (t.bayClosing b) := by
    have hreclaims : P ((t.setPend (bayRec b) .reclose none).startReclaim b ((t.setPend (bayRec b) .reclose none).effShots b)) :=
      hP.rcl _ b _ rfl (hP.setPend _ _ ht)
    unfold State.bayClosing
    exact ite_both (ite_both (hP.lamp _ hreclaims) hreclaims) ht
  unfold State.rccPosition
  exact ite_both (ite_both hs (ite_both (hfollows hset) (ite_both (ite_both (hfollows hset) hset)
    (ite_both (hopens hset) (hcloses hset))))) (ite_both (hP.lock _ hs) hs)

end reclose

/-! ### What is kept -/

/-- What a command, an input or a position at one record leaves of the other slots, of the echoed commands and of the factors. -/
structure Near (n : Rec) (s t : State) : Prop where
  only : OnlyAt n s t
  unechoed : Unechoed n s → Unechoed n t
  calm : Unarmed s → Unarmed t ∧ ∀ f, f ≠ fLockout → f ≠ fRecloseCancelled → t.fac f = s.fac f

theorem Near.refl (n : Rec) (s : State) : Near n s s := ⟨.refl n s, id, fun h => ⟨h, fun _ _ _ => rfl⟩⟩

theorem Near.trans {n : Rec} {s t u : State} (h : Near n s t) (k : Near n t u) : Near n s u where
  only := h.only.trans k.only
  unechoed hs := k.unechoed (h.unechoed hs)
  calm hs :=
    have ht := h.calm hs
    have hu := k.calm ht.1
    ⟨hu.1, fun f hf hg => (hu.2 f hf hg).trans (ht.2 f hf hg)⟩

theorem near_steps (n : Rec) (s₀ : State) : SlotSteps n (Near n s₀) where
  slot s x hx hs := hs.trans ⟨s.setSlot_at n x, fun hstill f hf => hstill f (hx f (by rwa [State.setSlot_slot] at hf)),
    fun h => ⟨h, fun _ _ _ => rfl⟩⟩
  out s f hs := hs.trans ⟨s.setOutPlace_at n f, id, fun h => ⟨h, fun _ _ _ => rfl⟩⟩
  rcl s b x hb hs := hs.trans ⟨hb ▸ s.setRcl_at b x, id, fun h => ⟨h, fun _ _ _ => rfl⟩⟩
  occur s f m d hf hs := hs.trans {
    only := s.occur_at n f m d
    unechoed hstill g hg := hstill g (by rwa [occur_slot] at hg)
    calm h := ⟨occur_unarmed h f m d, fun g hlock hcancel =>
      occur_fac_other h (fun e => hf.elim (fun k => hlock (e.symm.trans k)) (fun k => hcancel (e.symm.trans k))) m d⟩ }

/-- A HUNT's own steps echo no command. -/
theorem unechoed_steps (n m : Rec) : SlotSteps m (Unechoed n) where
  slot s x hx hs f hf := by
    rw [State.setSlot_slot_at] at hf
    split at hf
    · next e => subst e; exact hs f (hx f hf)
    · exact hs f hf
  out _ _ hs := hs
  rcl _ _ _ _ hs := hs
  occur s f m d _ hs g hg := hs g (by rwa [occur_slot] at hg)

theorem huntSteps_unechoed (n : Rec) : HuntSteps (Unechoed n) where
  hnc _ _ hs := hs
  lock _ b c hs := (unechoed_steps n (bayRec b)).lock c hs
  stack _ _ hs := hs
  unhunt _ b hs := (unechoed_steps n (bayRec b)).removeReason .hunt hs
  occur s f m d _ hs g hg := hs g (by rwa [occur_slot] at hg)
  request _ k cmd _ _ hs := (unechoed_steps n k).issueNext ((unechoed_steps n k).setPend .hunt (some cmd) hs)

/-- A frame that is used at one record with no change of the hunt, the stack or the latches. -/
theorem stamp_of_onlySlots {s t : State} (h : OnlySlots s t) : t.stamp = s.stamp := by
  have hoffset : t.mgu.offset = s.mgu.offset := (congrArg Mgu.offset h.requests :)
  unfold State.stamp
  rw [h.mono, hoffset]

end Sys2Proof.Proofs.BayActs

/-! The requests withdrawn at a bay that the hunt is not testing (R45, R46): what leaves the slot, and the last result that a gateway's
request leaves. -/

namespace Sys2Proof.Proofs.WithdrawnRequests
open Sys2Proof.Machine Sys2Proof.Safety Sys2Proof.Proofs.HuntBays Sys2Proof.Proofs.HuntEnd Sys2Proof.Proofs.SlotRules
  Sys2Proof.Proofs.ControlSteps Sys2Proof.Proofs.CommandEnds Sys2Proof.Proofs.RecloseTimers Sys2Proof.Proofs.BayActs

/-! ### One class -/

/-- What stays of a request when those a test takes in are withdrawn. -/
def stays (which : Command → Bool) (o : Option Command) : Option Command := o.filter (fun cmd => !which cmd)

/-- The withdrawal at one class. -/
def step (which : Command → Bool) (code : ResultCode) (n : Rec) (s : State) (c : ReqClass) : State :=
  match (s.slot n).pend.get c with
  | some cmd => if which cmd then (s.setPend n c none).tellRefused n c cmd code else s
  | none => s

section class_
variable {s : State} {n : Rec} {b : Bay} {c : ReqClass} {which : Command → Bool} {code : ResultCode}

theorem withdraw_steps (s : State) (n : Rec) (which : Command → Bool) (code : ResultCode) :
    s.withdraw n which (fun t c cmd => t.tellRefused n c cmd code) =
      step which code n (step which code n (step which code n (step which code n s .hunt) .reclose) .management) .annunciate := rfl

theorem setPend_self (s : State) (n : Rec) (c : ReqClass) : s.setPend n c ((s.slot n).pend.get c) = s := by
  have hpend : (s.slot n).pend.set c ((s.slot n).pend.get c) = (s.slot n).pend := by cases c <;> rfl
  have hslots : s.bcu.slots.put n (s.slot n) = s.bcu.slots := StatusRules.put_look_self _ _
  unfold State.setPend
  dsimp only
  rw [hpend]
  exact congrArg (fun v => { s with bcu := { s.bcu with slots := v } }) hslots

/-- A request that stays, or is not there, is left as it is; one withdrawn leaves its slot, and its requester is told. -/
theorem step_cases (s : State) (n : Rec) (c : ReqClass) (which : Command → Bool) (code : ResultCode) :
    (((s.slot n).pend.get c).filter which = none ∧ step which code n s c = s ∧
      s = s.setPend n c (stays which ((s.slot n).pend.get c))) ∨
    ∃ cmd, (s.slot n).pend.get c = some cmd ∧ which cmd = true ∧ stays which ((s.slot n).pend.get c) = none ∧
      step which code n s c = (s.setPend n c none).tellRefused n c cmd code := by
  have hself := (setPend_self s n c).symm
  unfold step
  cases h : (s.slot n).pend.get c with
  | none =>
    rw [h] at hself
    exact .inl ⟨rfl, rfl, hself⟩
  | some cmd =>
    rw [h] at hself
    cases hw : which cmd with
    | false => exact .inl ⟨by simp [Option.filter, hw], by simp [hw], by simpa [stays, Option.filter, hw] using hself⟩
    | true => exact .inr ⟨cmd, rfl, hw, by simp [stays, Option.filter, hw], by simp [hw]⟩

/-- The hunt is told nothing of a request at a bay it does not test. -/
theorem hncTold_other {cmd : Command} {o : HuntTold} {v : Bool} (h : s.underTest ≠ some b) : s.hncTold (bayRec b) cmd o v = s := by
  unfold State.hncTold
  split
  · next d hd =>
    have hne : (bayRec d == bayRec b) = false := beq_false_of_ne fun e => h (hd.trans (congrArg some (bayRec_inj e)))
    rw [hne, Bool.false_and, Bool.false_and]
    rfl
  · rfl

/-- A class whose requester is told nothing. -/
theorem step_silent (h : ∀ cmd, (s.setPend n c none).tellRefused n c cmd code = s.setPend n c none) :
    step which code n s c = s.setPend n c (stays which ((s.slot n).pend.get c)) := by
  rcases step_cases s n c which code with ⟨-, heq, hself⟩ | ⟨cmd, -, -, hstays, heq⟩
  · exact heq.trans hself
  · rw [heq, h, hstays]

theorem step_hunt (h : s.underTest ≠ some b) :
    step which code (bayRec b) s .hunt = s.setPend (bayRec b) .hunt (stays which (s.slot (bayRec b)).pend.hunt) := by
  refine step_silent fun cmd => ?_
  unfold State.tellRefused
  exact hncTold_other (s := s.setPend (bayRec b) .hunt none) h

theorem step_annunciate (s : State) (n : Rec) :
    step which code n s .annunciate = s.setPend n .annunciate (stays which (s.slot n).pend.annunciate) :=
  step_silent fun _ => by unfold State.tellRefused; rfl

theorem step_reclose : step which code (bayRec b) s .reclose =
      s.setPend (bayRec b) .reclose (stays which (s.slot (bayRec b)).pend.reclose) ∨
    step which code (bayRec b) s .reclose =
      (s.setPend (bayRec b) .reclose (stays which (s.slot (bayRec b)).pend.reclose)).rccRefused b code := by
  rcases step_cases s (bayRec b) .reclose which code with ⟨-, heq, hself⟩ | ⟨cmd, -, -, hstays, heq⟩
  · exact .inl (heq.trans hself)
  · refine .inr ?_
    rw [heq, show (s.slot (bayRec b)).pend.reclose = (s.slot (bayRec b)).pend.get .reclose from rfl, hstays]
    unfold State.tellRefused
    rw [recBay_bayRec]

/-- The last result that a gateway's withdrawn request leaves (R45). -/
def goneResult (cmd : Command) (code : ResultCode) (now : Word32) : LastResult :=
  { cls := .management, cmd := cmd, tag := none, outcome := .refusedAtRequest code, time := now }

theorem step_management : step which code n s .management = match (s.slot n).pend.management.filter which with
    | some cmd => (s.setPend n .management (stays which (s.slot n).pend.management)).setResult n (goneResult cmd code s.stamp)
    | none => s.setPend n .management (stays which (s.slot n).pend.management) := by
  rcases step_cases s n .management which code with ⟨hnone, heq, hself⟩ | ⟨cmd, hget, hw, hstays, heq⟩
  · rw [show (s.slot n).pend.management.filter which = none from hnone]
    exact heq.trans hself
  · replace hget : (s.slot n).pend.management = some cmd := hget
    replace hstays : stays which (s.slot n).pend.management = none := hstays
    rw [heq, hstays, hget, show (some cmd).filter which = some cmd by simp [Option.filter, hw]]
    unfold State.tellRefused
    rfl

end class_

/-! ### All classes -/

section all
variable {s : State} {b : Bay} {which : Command → Bool} {code : ResultCode}

/-- The slot without the requests of the HUNT and RECLOSE classes that are withdrawn. -/
def eased (which : Command → Bool) (x : Slot) : Slot :=
  { x with pend := (x.pend.set .hunt (stays which x.pend.hunt)).set .reclose (stays which x.pend.reclose) }

/-- The slot without the requests of the MANAGEMENT and ANNUNCIATE classes that are withdrawn. -/
def eased' (which : Command → Bool) (code : ResultCode) (now : Word32) (x : Slot) : Slot :=
  { x with pend := (x.pend.set .management (stays which x.pend.management)).set .annunciate (stays which x.pend.annunciate),
           lastResult := match x.pend.management.filter which with
             | some cmd => some (goneResult cmd code now)
             | none => x.lastResult }

/-- A reclose request that is refused locks no bay out that does not wait for it. -/
theorem rccRefused_deaf (h : ¬ (s.runs b = true ∧ (s.rcl b).state = .closing .waiting)) : s.rccRefused b code = s := by
  unfold State.rccRefused
  split
  · next hwaits =>
    have hruns : s.runs b = false := Bool.not_eq_true _ ▸ fun hr => h ⟨hr, isWaiting_iff.mp hwaits⟩
    exact if_neg (by rw [State.canLock, hruns]; exact Bool.false_ne_true)
  · rfl

theorem rccRefused_maskS (s : State) (b : Bay) (code : ResultCode) : (s.rccRefused b code).maskS = s.maskS :=
  ite_both (P := fun t : State => t.maskS = s.maskS) (s.lock_maskS b _) rfl

theorem rccRefused_lampMove {n : Rec} (h : (s.slot n).state ≠ .free) : LampMove (s.slot n) ((s.rccRefused b code).slot n) :=
  ite_both (P := fun t : State => LampMove (s.slot n) (t.slot n)) (lock_lampMove h b _) (.refl _)

/-- What the withdrawal leaves, at a bay that the hunt does not test. -/
structure Withdrew (s : State) (b : Bay) (which : Command → Bool) (code : ResultCode) (t : State) : Prop where
  mask : t.maskS = s.maskS
  near : Near (bayRec b) s t
  slot : (s.slot (bayRec b)).state ≠ .free → ∃ y, LampMove (eased which (s.slot (bayRec b))) y ∧
    t.slot (bayRec b) = eased' which code s.stamp y
  deaf : ¬ (s.runs b = true ∧ (s.rcl b).state = .closing .waiting) → t.rcc = s.rcc ∧
    t.slot (bayRec b) = eased' which code s.stamp (eased which (s.slot (bayRec b)))

variable (h : s.underTest ≠ some b)
include h

theorem withdraw_leaves : Withdrew s b which code (s.withdraw (bayRec b) which fun t c cmd => t.tellRefused (bayRec b) c cmd code) := by
  rw [withdraw_steps, step_hunt h]
  have hnear₁ : Near (bayRec b) s (s.setPend (bayRec b) .hunt (stays which (s.slot (bayRec b)).pend.hunt)) :=
    (near_steps _ s).setPend _ _ (.refl _ s)
  have hslot₁ := setPend_slot s (bayRec b) .hunt (stays which (s.slot (bayRec b)).pend.hunt)
  have hrcc₁ : (s.setPend (bayRec b) .hunt (stays which (s.slot (bayRec b)).pend.hunt)).rcc = s.rcc := rfl
  have hmask₁ : (s.setPend (bayRec b) .hunt (stays which (s.slot (bayRec b)).pend.hunt)).maskS = s.maskS := rfl
  generalize s.setPend (bayRec b) .hunt (stays which (s.slot (bayRec b)).pend.hunt) = t₁ at hnear₁ hslot₁ hrcc₁ hmask₁
  have heased : (t₁.setPend (bayRec b) .reclose (stays which (t₁.slot (bayRec b)).pend.reclose)).slot (bayRec b) =
      eased which (s.slot (bayRec b)) := by
    rw [setPend_slot, hslot₁]
    rfl
  have hsecond : ∃ t₂, step which code (bayRec b) t₁ .reclose = t₂ ∧ t₂.maskS = s.maskS ∧ Near (bayRec b) s t₂ ∧
      ((s.slot (bayRec b)).state ≠ .free → LampMove (eased which (s.slot (bayRec b))) (t₂.slot (bayRec b))) ∧
      (¬ (s.runs b = true ∧ (s.rcl b).state = .closing .waiting) →
        t₂.rcc = s.rcc ∧ t₂.slot (bayRec b) = eased which (s.slot (bayRec b))) := by
    have hput : Near (bayRec b) s (t₁.setPend (bayRec b) .reclose (stays which (t₁.slot (bayRec b)).pend.reclose)) :=
      (near_steps _ s).setPend _ _ hnear₁
    rcases step_reclose (s := t₁) (b := b) (which := which) (code := code) with heq | heq
    · exact ⟨_, heq, hmask₁, hput, fun _ => heased ▸ .refl _, fun _ => ⟨hrcc₁, heased⟩⟩
    · refine ⟨_, heq, (rccRefused_maskS _ _ _).trans hmask₁, (near_steps _ s).rccRefused _ hput, fun hbusy => ?_, fun hdeaf => ?_⟩
      · rw [← heased]
        exact rccRefused_lampMove (by rw [heased]; exact hbusy)
      · have hkeeps : (t₁.setPend (bayRec b) .reclose (stays which (t₁.slot (bayRec b)).pend.reclose)).rccRefused b code =
            t₁.setPend (bayRec b) .reclose (stays which (t₁.slot (bayRec b)).pend.reclose) := by
          refine rccRefused_deaf fun hw => hdeaf ⟨?_, ?_⟩
          · rw [← runs_of_maskR (State.maskR_of_maskS hmask₁) b]
            exact hw.1
          · rw [← rcl_of_rcc hrcc₁]
            exact hw.2
        rw [hkeeps]
        exact ⟨hrcc₁, heased⟩
  obtain ⟨t₂, heq₂, hmask₂, hnear₂, hmove₂, hdeaf₂⟩ := hsecond
  have hthird : ∃ t₃, step which code (bayRec b) t₂ .management = t₃ ∧ t₃.maskS = s.maskS ∧ Near (bayRec b) s t₃ ∧ t₃.rcc = t₂.rcc ∧
      (t₃.setPend (bayRec b) .annunciate (stays which (t₃.slot (bayRec b)).pend.annunciate)).slot (bayRec b) =
        eased' which code s.stamp (t₂.slot (bayRec b)) := by
    have hstamp : t₂.stamp = s.stamp := stamp_of_maskH (State.maskH_of_maskS hmask₂)
    have hput : Near (bayRec b) s (t₂.setPend (bayRec b) .management (stays which (t₂.slot (bayRec b)).pend.management)) :=
      (near_steps _ s).setPend _ _ hnear₂
    have hslot := setPend_slot t₂ (bayRec b) .management (stays which (t₂.slot (bayRec b)).pend.management)
    rw [step_management]
    unfold eased'
    cases hgone : (t₂.slot (bayRec b)).pend.management.filter which with
    | none =>
      refine ⟨_, rfl, hmask₂, hput, rfl, ?_⟩
      dsimp only
      rw [setPend_slot, hslot]
      rfl
    | some cmd =>
      have hresult : ((t₂.setPend (bayRec b) .management (stays which (t₂.slot (bayRec b)).pend.management)).setResult (bayRec b)
          (goneResult cmd code t₂.stamp)).slot (bayRec b) = _ := State.setSlot_slot _ _ _
      refine ⟨_, rfl, hmask₂, (near_steps _ s).setResult _ hput, rfl, ?_⟩
      dsimp only
      rw [setPend_slot, hresult, hslot, hstamp]
      rfl
  obtain ⟨t₃, heq₃, hmask₃, hnear₃, hrcc₃, hput₃⟩ := hthird
  rw [heq₂, heq₃, step_annunciate]
  refine ⟨hmask₃, (near_steps _ s).setPend _ _ hnear₃, fun hbusy => ⟨_, hmove₂ hbusy, hput₃⟩, fun hdeaf => ?_⟩
  obtain ⟨hrcc, hslot⟩ := hdeaf₂ hdeaf
  exact ⟨hrcc₃.trans hrcc, hput₃.trans (by rw [hslot])⟩

end all

end Sys2Proof.Proofs.WithdrawnRequests

/-! A change of the local-mode or the interlock input at a bay that the hunt is not testing (R45, R46, R81): the reason, the cancelled
sequence, the withdrawn requests and the occurrence. -/

namespace Sys2Proof.Proofs.InputChanges
open Sys2Proof.Machine Sys2Proof.Safety Sys2Proof.Proofs.Occurrences Sys2Proof.Proofs.HuntBays Sys2Proof.Proofs.HuntEnd
  Sys2Proof.Proofs.SlotRules Sys2Proof.Proofs.BlockRange Sys2Proof.Proofs.FrameRules Sys2Proof.Proofs.ControlSteps
  Sys2Proof.Proofs.CommandEnds Sys2Proof.Proofs.TripFailures
  Sys2Proof.Proofs.BaystatFrames Sys2Proof.Proofs.BayActs Sys2Proof.Proofs.WithdrawnRequests

/-! ### A reason added, at the slot -/

section added
variable {s : State} {b : Bay} {r : BlockReason}

theorem blockSet_held {x : BlockSet} {v : Bool} (h : x.has r = v) : x.set r v = x := by
  subst h
  cases r <;> rfl

theorem putReason_held (h : (s.rcl b).block.has r = true) : s.putReason b r true = s := by
  have hput : s.rcc.put b (s.rcl b) = s.rcc := StatusRules.put_look_self _ _
  unfold State.putReason
  dsimp only
  rw [blockSet_held h]
  exact congrArg (fun v => { s with rcc := v }) hput

/-- With no sequence to cancel, the reason is stored and nothing more. -/
theorem addReason_quiet (h : ¬ Cancels s b) : s.addReason b r = s.putReason b r true := by
  cases hhas : (s.rcl b).block.has r with
  | true => rw [addReason_held hhas, putReason_held hhas]
  | false => exact addReason_stored hhas h

theorem putReason_rcl (s : State) (b : Bay) (r : BlockReason) (v : Bool) :
    (s.putReason b r v).rcl b = { s.rcl b with block := (s.rcl b).block.set r v } := State.setRcl_rcl _ _ _

theorem removeReason_eq (s : State) (b : Bay) (r : BlockReason) :
    (s.removeReason b r).rcl b = { s.rcl b with block := (s.rcl b).block.set r false } ∧
    (s.removeReason b r).slot (bayRec b) = s.slot (bayRec b) := by
  unfold State.removeReason
  cases h : (s.rcl b).block.has r with
  | true => exact ⟨putReason_rcl s b r false, rfl⟩
  | false =>
    refine ⟨?_, rfl⟩
    rw [blockSet_held h]
    rfl

/-- The slot with the request of the RCC taken out, the sequence's cancellation announced. -/
theorem cancelled_slot (s : State) (b : Bay) (m : BitVec 9) (d : List Byte) :
    ((s.setPend (bayRec b) .reclose none).occur fRecloseCancelled m d).slot (bayRec b) =
      { s.slot (bayRec b) with pend := (s.slot (bayRec b)).pend.set .reclose none } := by
  rw [occur_slot, setPend_slot]

theorem addReason_lampMove (h : (s.slot (bayRec b)).state ≠ .free) :
    LampMove (s.slot (bayRec b)) ((s.addReason b r).slot (bayRec b)) := by
  have hclear : LampMove (s.slot (bayRec b)) { s.slot (bayRec b) with pend := (s.slot (bayRec b)).pend.set .reclose none } :=
    ⟨rfl, rfl, rfl, rfl, rfl, rfl, fun _ => rfl, .inl rfl⟩
  have hcancel : LampMove (s.slot (bayRec b)) (((s.putReason b r true).cancelSequence b r).slot (bayRec b)) := by
    unfold State.cancelSequence
    have hslot := cancelled_slot (s.putReason b r true) b (bayMask b)
      [byte r.code, byte (((s.putReason b r true).setPend (bayRec b) .reclose none).rcl b).shots]
    have hput : (s.putReason b r true).slot (bayRec b) = s.slot (bayRec b) := rfl
    rw [hput] at hslot
    rw [← hslot] at hclear
    exact hclear.trans (lock_lampMove (by rw [hslot]; exact h) b _)
  unfold State.addReason
  exact ite_both (P := fun t : State => LampMove (s.slot (bayRec b)) (t.slot (bayRec b))) (.refl _)
    (ite_both (P := fun t : State => LampMove (s.slot (bayRec b)) (t.slot (bayRec b))) hcancel (.refl _))

/-- A FREE slot with nothing pending, and what it can come to: with a lamp request of an entry to LOCKOUT issued, or as it was where
the bay is in local mode. -/
structure Rested (n : Rec) (x : Slot) (dark : Prop) (t : State) : Prop where
  pend : (t.slot n).pend = Pending.none
  lastResult : (t.slot n).lastResult = x.lastResult
  same : dark → t.slot n = x

theorem pendLamp_dark {n : Rec} (h : (s.status n).localMode = true) (a : LampArg) : s.pendLamp n a = s := by
  refine if_neg ?_
  unfold State.judgeReq
  cases (s.cap n).inService <;> simp [h]

section free
variable (hfree : (s.slot (bayRec b)).state = .free) (hpend : (s.slot (bayRec b)).pend = Pending.none)
include hfree hpend

theorem lock_rested (cause : LockoutCause) :
    Rested (bayRec b) (s.slot (bayRec b)) ((s.status (bayRec b)).localMode = true) (s.lock b cause) := by
  have hself : Rested (bayRec b) (s.slot (bayRec b)) ((s.status (bayRec b)).localMode = true) s := ⟨hpend, rfl, fun _ => rfl⟩
  unfold State.lock
  refine ite_both (P := Rested (bayRec b) (s.slot (bayRec b)) ((s.status (bayRec b)).localMode = true)) ?_ hself
  unfold State.lockPend
  dsimp only
  have hput : (s.setPend (bayRec b) .reclose none).slot (bayRec b) = s.slot (bayRec b) := by
    rw [setPend_slot, hpend, Pending.none_set, ← hpend]
  have hmark (u : State) (x : RecloseRecord) (m : BitVec 9) (d : List Byte) :
      ((u.setRcl b x).occur fLockout m d).slot (bayRec b) = u.slot (bayRec b) ∧
      ((u.setRcl b x).occur fLockout m d).status (bayRec b) = u.status (bayRec b) :=
    have hbcu := State.maskE_bcu (State.occur_maskE (u.setRcl b x) fLockout m d)
    ⟨congrArg (fun c : Bcu => c.slots.look (bayRec b)) hbcu, congrArg (fun c : Bcu => c.status.look (bayRec b)) hbcu⟩
  obtain ⟨hslot, hstatus⟩ := hmark (s.setPend (bayRec b) .reclose none)
    { (s.setPend (bayRec b) .reclose none).rcl b with
      state := .lockout cause, deadTimer := none, springTimer := none, reclaimTimer := .stopped } (bayMask b)
    [byte cause.code, byte (((s.setPend (bayRec b) .reclose none).setRcl b { (s.setPend (bayRec b) .reclose none).rcl b with
      state := .lockout cause, deadTimer := none, springTimer := none, reclaimTimer := .stopped }).rcl b).shots,
      byte (s.rcl b).state.code]
  generalize State.occur _ fLockout _ _ = u at hslot hstatus
  replace hslot := hslot.trans hput
  replace hstatus : u.status (bayRec b) = s.status (bayRec b) := hstatus
  have hissues (v : State) (hv : (v.slot (bayRec b)).state = .free) :
      v.issueNext (bayRec b) = (State.issueFrom classOrder (bayRec b) v).1 := if_pos (by rw [hv]; rfl)
  have hnothing : u.issueNext (bayRec b) = u := by
    rw [hissues u (by rw [hslot]; exact hfree), State.issueFrom_nothing (by rw [hslot]; exact hpend)]
  by_cases hlamp : (u.judgeReq (bayRec b) .annunciate (.indicate .blink)).isNone = true
  · have hset : u.pendLamp (bayRec b) .blink = u.setPend (bayRec b) .annunciate (some (.indicate .blink)) := if_pos hlamp
    have hslot' : (u.pendLamp (bayRec b) .blink).slot (bayRec b) =
        { s.slot (bayRec b) with pend := Pending.none.set .annunciate (some (.indicate .blink)) } := by
      rw [hset, setPend_slot, hslot, hpend]
    have hissued : (u.pendLamp (bayRec b) .blink).issueNext (bayRec b) =
        (u.pendLamp (bayRec b) .blink).issueCmd (bayRec b) .annunciate (.indicate .blink) := by
      rw [hissues _ (by rw [hslot']; exact hfree), State.issueFrom_one (c := .annunciate) (cmd := .indicate .blink) (by rw [hslot'])
        (by decide) (fun e => absurd e (by decide))]
    rw [hissued]
    refine ⟨?_, ?_, fun hdark => ?_⟩
    · rw [State.issueCmd_slot, hslot']
      rfl
    · rw [State.issueCmd_slot, hslot']
      rfl
    · rw [pendLamp_dark (hstatus ▸ hdark)] at hset
      have hpends := congrArg (fun v : State => (v.slot (bayRec b)).pend.annunciate) hset
      rw [hslot, hpend, setPend_slot] at hpends
      cases hpends
  · have hkeeps : u.pendLamp (bayRec b) .blink = u := if_neg hlamp
    rw [hkeeps, hnothing]
    exact ⟨hslot ▸ hpend, by rw [hslot], fun _ => hslot⟩

theorem addReason_rested :
    Rested (bayRec b) (s.slot (bayRec b)) ((s.status (bayRec b)).localMode = true) (s.addReason b r) := by
  have hself (v : Bool) : Rested (bayRec b) (s.slot (bayRec b)) ((s.status (bayRec b)).localMode = true) (s.putReason b r v) :=
    ⟨hpend, rfl, fun _ => rfl⟩
  have hcancel : Rested (bayRec b) (s.slot (bayRec b)) ((s.status (bayRec b)).localMode = true)
      ((s.putReason b r true).cancelSequence b r) := by
    unfold State.cancelSequence
    have hslot := cancelled_slot (s.putReason b r true) b (bayMask b)
      [byte r.code, byte (((s.putReason b r true).setPend (bayRec b) .reclose none).rcl b).shots]
    have hput : (s.putReason b r true).slot (bayRec b) = s.slot (bayRec b) := rfl
    have hbcu := State.maskE_bcu (State.occur_maskE ((s.putReason b r true).setPend (bayRec b) .reclose none) fRecloseCancelled
      (bayMask b) [byte r.code, byte (((s.putReason b r true).setPend (bayRec b) .reclose none).rcl b).shots])
    have hstatus := congrArg (fun c : Bcu => c.status.look (bayRec b)) hbcu
    rw [hput, hpend, Pending.none_set, ← hpend] at hslot
    dsimp only
    generalize State.occur _ fRecloseCancelled _ _ = u at hslot hstatus
    replace hstatus : u.status (bayRec b) = s.status (bayRec b) := hstatus
    have hlocked := lock_rested (s := u) (by rw [hslot]; exact hfree) (by rw [hslot]; exact hpend)
      (if r == .fire then .fireCancel else .protectionBlocked)
    rwa [hslot, hstatus] at hlocked
  unfold State.addReason
  exact ite_both (P := Rested (bayRec b) (s.slot (bayRec b)) ((s.status (bayRec b)).localMode = true)) ⟨hpend, rfl, fun _ => rfl⟩
    (ite_both (P := Rested (bayRec b) (s.slot (bayRec b)) ((s.status (bayRec b)).localMode = true)) hcancel (hself true))

end free

end added

/-! ### The requests withdrawn, seen from the slot before the reason -/

section input
variable {s : State} {b : Bay} {r : BlockReason} {which : Command → Bool} {code : ResultCode}

/-- The last result after the requests that a test takes in are withdrawn (R45). -/
structure ResultTold (which : Command → Bool) (code : ResultCode) (now : Word32) (x y : Slot) : Prop where
  gone : ∀ cmd, x.pend.management = some cmd → which cmd = true → y.lastResult = some (goneResult cmd code now)
  kept : (∀ cmd, x.pend.management = some cmd → which cmd = false) → y.lastResult = x.lastResult

theorem resultTold_eased' (which : Command → Bool) (code : ResultCode) (now : Word32) (x : Slot) :
    ResultTold which code now x (eased' which code now x) := by
  refine ⟨fun cmd hcmd hgone => ?_, fun hkept => ?_⟩
  · have hfound : x.pend.management.filter which = some cmd := by rw [hcmd]; simp [Option.filter, hgone]
    unfold eased'
    rw [hfound]
  · have hnone : x.pend.management.filter which = none := by
      cases hx : x.pend.management with
      | none => rfl
      | some cmd => simp [Option.filter, hkept cmd hx]
    unfold eased'
    rw [hnone]

theorem ResultTold.of_move {now : Word32} {x y z : Slot} (h : ResultTold which code now y z) (hmanagement : y.pend.management = x.pend.management)
    (hresult : y.lastResult = x.lastResult) : ResultTold which code now x z :=
  ⟨fun cmd hcmd => h.gone cmd (hmanagement.trans hcmd), fun hkept => (h.kept fun cmd hcmd => hkept cmd (hmanagement ▸ hcmd)).trans hresult⟩

/-- The requests that a change of an input withdraws, once the reason is added. -/
def barred (s : State) (b : Bay) (r : BlockReason) (which : Command → Bool) (code : ResultCode) : State :=
  (s.addReason b r).withdraw (bayRec b) which fun t c cmd => t.tellRefused (bayRec b) c cmd code

variable (h : s.underTest ≠ some b)
include h

theorem addReason_untested : (s.addReason b r).underTest ≠ some b := by
  rw [HuntAbort.underTest_of_hnc (s := s) (by rw [State.maskR_hnc (s.addReason_maskR b r)])
    (by rw [State.maskR_hnc (s.addReason_maskR b r)])]
  exact h

theorem barred_leaves : Withdrew (s.addReason b r) b which code (barred s b r which code) :=
  withdraw_leaves (addReason_untested h)

theorem barred_onlySlots : OnlySlots s (barred s b r which code) :=
  onlySlots_trans (addReason_onlySlots s b r) (onlySlots_of_mask (barred_leaves h).mask)

theorem barred_near : Near (bayRec b) s (barred s b r which code) :=
  ((near_steps _ s).addReason r (.refl _ s)).trans (barred_leaves h).near

omit h in
theorem addReason_stamp (s : State) (b : Bay) (r : BlockReason) : (s.addReason b r).stamp = s.stamp :=
  stamp_of_onlySlots (addReason_onlySlots s b r)

omit h in
theorem addReason_still (hstill : ¬ Cancels s b) : (s.addReason b r).slot (bayRec b) = s.slot (bayRec b) ∧
    ¬ ((s.addReason b r).runs b = true ∧ ((s.addReason b r).rcl b).state = .closing .waiting) := by
  rw [addReason_quiet hstill]
  refine ⟨rfl, fun hw => hstill ⟨hw.1, .inr ?_⟩⟩
  have hstate := hw.2
  rwa [putReason_rcl] at hstate

/-- Where no sequence is cancelled. -/
theorem barred_still (hstill : ¬ Cancels s b) : (barred s b r which code).rcl b =
      { s.rcl b with block := (s.rcl b).block.set r true } ∧
    (barred s b r which code).slot (bayRec b) = eased' which code s.stamp (eased which (s.slot (bayRec b))) := by
  obtain ⟨hslot, hdeaf⟩ := addReason_still (r := r) hstill
  obtain ⟨hrcc, heased⟩ := (barred_leaves (r := r) (which := which) (code := code) h).deaf hdeaf
  rw [addReason_stamp s b r, hslot] at heased
  refine ⟨?_, heased⟩
  rw [rcl_of_rcc hrcc, addReason_quiet hstill, putReason_rcl]

/-- Where the sequence in hand is cancelled by a new reason. -/
theorem barred_cancelled (hc : Cancels s b) (hnew : (s.rcl b).block.has r = false) : (barred s b r which code).rcl b =
      { s.rcl b with state := .lockout (cancelCause r), deadTimer := none, springTimer := none, reclaimTimer := .stopped,
                     block := (s.rcl b).block.set r true } ∧
    ∃ y, y.pend.reclose = none ∧ (barred s b r which code).slot (bayRec b) = eased' which code s.stamp (eased which y) := by
  have hrcl := addReason_cancelled_rcl hnew hc
  have hdeaf : ¬ ((s.addReason b r).runs b = true ∧ ((s.addReason b r).rcl b).state = .closing .waiting) := by
    rw [hrcl]
    exact fun hw => nomatch hw.2
  obtain ⟨hrcc, heased⟩ := (barred_leaves (r := r) (which := which) (code := code) h).deaf hdeaf
  rw [addReason_stamp s b r] at heased
  exact ⟨(rcl_of_rcc hrcc).trans hrcl, _, addReason_cancelled_pend hnew hc, heased⟩

/-- The slot with a command in flight once the requests of the HUNT and RECLOSE classes have gone. -/
structure Cleared (which : Command → Bool) (x y : Slot) : Prop where
  state : y.state = x.state
  lastTag : y.lastTag = x.lastTag
  lastResult : y.lastResult = x.lastResult
  trip : y.pend.trip = x.pend.trip
  hunt : y.pend.hunt = stays which x.pend.hunt
  management : y.pend.management = x.pend.management
  reclose : (∀ cmd, which cmd = true) → y.pend.reclose = none

omit h in
theorem stays_all (hall : ∀ cmd, which cmd = true) (o : Option Command) : stays which o = none := by
  cases o with
  | none => rfl
  | some cmd => simp [stays, Option.filter, hall cmd]

theorem barred_busy (hbusy : (s.slot (bayRec b)).state ≠ .free) : ∃ y, Cleared which (s.slot (bayRec b)) y ∧
    (barred s b r which code).slot (bayRec b) = eased' which code s.stamp y := by
  have hmove := addReason_lampMove (r := r) hbusy
  obtain ⟨y, hy, heq⟩ := (barred_leaves (r := r) (which := which) (code := code) h).slot (by rw [hmove.state]; exact hbusy)
  rw [addReason_stamp s b r] at heq
  exact ⟨y, ⟨hy.state.trans hmove.state, hy.lastTag.trans hmove.lastTag, hy.lastResult.trans hmove.lastResult,
    hy.trip.trans hmove.trip, hy.hunt.trans (congrArg (stays which) hmove.hunt), hy.management.trans hmove.management,
    fun hall => hy.reclose (stays_all hall _)⟩, heq⟩

omit h in
/-- At a FREE slot with nothing pending no request is withdrawn. -/
theorem barred_free (hfree : (s.slot (bayRec b)).state = .free) (hpend : (s.slot (bayRec b)).pend = Pending.none) :
    Rested (bayRec b) (s.slot (bayRec b)) ((s.status (bayRec b)).localMode = true) (barred s b r which code) := by
  have hrested := addReason_rested (r := r) hfree hpend
  unfold barred
  rwa [withdraw_nothing hrested.pend]

/-- The last result, at a slot with a command in flight or with nothing pending. -/
theorem barred_told (hsettled : (s.slot (bayRec b)).state ≠ .free ∨ (s.slot (bayRec b)).pend = Pending.none) :
    ResultTold which code s.stamp (s.slot (bayRec b)) ((barred s b r which code).slot (bayRec b)) := by
  by_cases hfree : (s.slot (bayRec b)).state = .free
  · have hpend := hsettled.resolve_left (not_not_intro hfree)
    have hrested := barred_free (r := r) (which := which) (code := code) hfree hpend
    exact ⟨fun cmd hcmd => (by rw [hpend] at hcmd; cases hcmd), fun _ => hrested.lastResult⟩
  · obtain ⟨y, hy, heq⟩ := barred_busy (r := r) (which := which) (code := code) h hfree
    rw [heq]
    exact (resultTold_eased' which code s.stamp y).of_move hy.management hy.lastResult

end input

end Sys2Proof.Proofs.InputChanges

/-! A change of the position at a bay (R68, R77, R78), and of the spring input (R71). -/

namespace Sys2Proof.Proofs.PositionChanges
open Sys2Proof.Machine Sys2Proof.Safety Sys2Proof.Proofs.HuntBays Sys2Proof.Proofs.HuntEnd Sys2Proof.Proofs.SlotRules
  Sys2Proof.Proofs.RecloseTimers Sys2Proof.Proofs.CommandEnds Sys2Proof.Proofs.Silences Sys2Proof.Proofs.FireInvariant

/-! ### The position at the RCC (R68, R77, R78) -/

section position
variable {s : State} {b : Bay} {p : Position}

/-- The last definite position stored. -/
def marked (s : State) (b : Bay) (p : Position) : State := s.setRcl b { s.rcl b with lastDefinite := some p }

theorem marked_rcl (s : State) (b : Bay) (p : Position) : (marked s b p).rcl b = { s.rcl b with lastDefinite := some p } :=
  State.setRcl_rcl _ _ _

theorem rccPosition_indefinite (hopen : p ≠ .opened) (hclosed : p ≠ .closed) (hknown : p ≠ .unknown) : s.rccPosition b p = s := by
  unfold State.rccPosition
  exact (if_neg (by simp [hopen, hclosed])).trans (if_neg (by simp [hknown]))

theorem followIdle_rcl (s : State) (b : Bay) : (s.followIdle b).rcl b = { s.rcl b with state := (s.rcl b).idleState } :=
  State.setRcl_rcl _ _ _

section definite
variable (hdefinite : p = .opened ∨ p = .closed)
include hdefinite

theorem rccPosition_definite : s.rccPosition b p = if (s.rcl b).lastDefinite == some p then s
    else if !s.runs b then (marked s b p).followIdle b
    else if (s.rcl b).lastDefinite.isNone then
      if (s.rcl b).state == .idleOpen && p == .closed then (marked s b p).followIdle b else marked s b p
    else if p == .opened then (marked s b p).bayOpening b
    else (marked s b p).bayClosing b := by
  unfold State.rccPosition
  exact if_pos (by rcases hdefinite with rfl | rfl <;> rfl)

theorem rccPosition_held (h : (s.rcl b).lastDefinite = some p) : s.rccPosition b p = s :=
  (rccPosition_definite hdefinite).trans (if_pos (beq_iff_eq.mpr h))

variable (hnew : (s.rcl b).lastDefinite ≠ some p)
include hnew

theorem rccPosition_new : s.rccPosition b p = if !s.runs b then (marked s b p).followIdle b
    else if (s.rcl b).lastDefinite.isNone then
      if (s.rcl b).state == .idleOpen && p == .closed then (marked s b p).followIdle b else marked s b p
    else if p == .opened then (marked s b p).bayOpening b
    else (marked s b p).bayClosing b :=
  (rccPosition_definite hdefinite).trans (if_neg (mt beq_iff_eq.mp hnew))

omit hnew in
/-- A bay that follows its position stands in the idle state of it (R67). -/
theorem marked_followIdle : ((marked s b p).followIdle b).rcl b = { s.rcl b with
    lastDefinite := some p, state := if p = .closed then .idleClosed else .idleOpen } := by
  rw [followIdle_rcl, marked_rcl]
  rcases hdefinite with rfl | rfl <;> rfl

/-- A bay that the RCC does not run (R67). -/
theorem rccPosition_idle (hruns : s.runs b = false) : (s.rccPosition b p).rcl b = { s.rcl b with
    lastDefinite := some p, state := if p = .closed then .idleClosed else .idleOpen } := by
  rw [rccPosition_new hdefinite hnew, if_pos (by rw [hruns]; rfl), marked_followIdle hdefinite]

variable (hruns : s.runs b = true)
include hruns

/-- The first definite position (R68). -/
theorem rccPosition_first (hnone : (s.rcl b).lastDefinite = none) :
    ((s.rcl b).state = .idleOpen → p = .closed → (s.rccPosition b p).rcl b =
      { s.rcl b with lastDefinite := some p, state := .idleClosed }) ∧
    ((s.rcl b).state ≠ .idleOpen ∨ p = .opened → (s.rccPosition b p).rcl b = { s.rcl b with lastDefinite := some p }) := by
  have heq := (rccPosition_new hdefinite hnew).trans ((if_neg (by rw [hruns]; decide)).trans (if_pos (by rw [hnone]; rfl)))
  refine ⟨fun hopen hclosed => ?_, fun hstays => ?_⟩
  · rw [heq, if_pos (by rw [hopen, hclosed]; rfl), marked_followIdle hdefinite, if_pos hclosed]
  · rw [heq, if_neg, marked_rcl]
    rw [Bool.and_eq_true, beq_iff_eq, beq_iff_eq]
    rintro ⟨hopen, hclosed⟩
    rcases hstays with h | h
    · exact h hopen
    · cases hclosed.symm.trans h

variable (hsome : (s.rcl b).lastDefinite ≠ none)
include hsome

theorem rccPosition_later : s.rccPosition b p =
    if p == .opened then (marked s b p).bayOpening b else (marked s b p).bayClosing b :=
  (rccPosition_new hdefinite hnew).trans ((if_neg (by rw [hruns]; decide)).trans
    (if_neg (by simpa using hsome)))

end definite

/-- An opening (R77). -/
theorem rccPosition_opening (hnew : (s.rcl b).lastDefinite ≠ some .opened) (hruns : s.runs b = true)
    (hsome : (s.rcl b).lastDefinite ≠ none) :
    ((s.elem b).latch = none → (s.rcl b).state = .idleClosed ∨ (s.rcl b).state = .reclaim →
      (s.rccPosition b .opened).rcl b =
        { s.rcl b with lastDefinite := some .opened, state := .idleOpen, shots := 0, reclaimTimer := .stopped }) ∧
    ((s.elem b).latch ≠ none ∨ ((s.rcl b).state ≠ .idleClosed ∧ (s.rcl b).state ≠ .reclaim) →
      (s.rccPosition b .opened).rcl b = { s.rcl b with lastDefinite := some .opened }) := by
  have heq : s.rccPosition b .opened = (marked s b .opened).bayOpening b :=
    (rccPosition_later (.inl rfl) hnew hruns hsome).trans (if_pos rfl)
  have hstate : ((marked s b .opened).rcl b).state = (s.rcl b).state := by rw [marked_rcl]
  have helem : (marked s b .opened).elem b = s.elem b := rfl
  have hcond : ((((marked s b .opened).elem b).latch.isNone &&
      (((marked s b .opened).rcl b).state == .idleClosed || ((marked s b .opened).rcl b).state == .reclaim)) = true) ↔
      (s.elem b).latch = none ∧ ((s.rcl b).state = .idleClosed ∨ (s.rcl b).state = .reclaim) := by
    rw [hstate, helem, Bool.and_eq_true, Bool.or_eq_true, beq_iff_eq, beq_iff_eq, Option.isNone_iff_eq_none]
  rw [heq]
  unfold State.bayOpening
  dsimp only
  refine ⟨fun hlatch hclosed => ?_, fun hstays => ?_⟩
  · rw [if_pos (hcond.mpr ⟨hlatch, hclosed⟩), State.setRcl_rcl, marked_rcl]
  · rw [if_neg, marked_rcl]
    rw [hcond]
    rintro ⟨hlatch, hclosed⟩
    rcases hstays with h | ⟨hne, hne'⟩
    · exact h hlatch
    · exact hclosed.elim hne hne'

/-- A closing that the RCC's own CLOSE has not made (R78; log entry 35). -/
def Taken (st : RecloseState) : Prop := st = .idleOpen ∨ st = .dead ∨ st = .closing .waiting ∨ ∃ c, st = .lockout c

theorem taken_iff (st : RecloseState) :
    (st == .idleOpen || st == .dead || st.isLockout || st == .closing .waiting) = true ↔ Taken st := by
  unfold Taken
  cases st with
  | closing p => cases p <;> simp [RecloseState.isLockout]
  | _ => simp [RecloseState.isLockout]

theorem rccPosition_closing (hnew : (s.rcl b).lastDefinite ≠ some .closed) (hruns : s.runs b = true)
    (hsome : (s.rcl b).lastDefinite ≠ none) :
    (Taken (s.rcl b).state → (s.rccPosition b .closed).rcl b = { s.rcl b with
      lastDefinite := some .closed, state := .reclaim, shots := s.effShots b, deadTimer := none, springTimer := none,
      reclaimTimer := .running (s.setting b fReclaim) }) ∧
    (¬ Taken (s.rcl b).state → (s.rccPosition b .closed).rcl b = { s.rcl b with lastDefinite := some .closed }) := by
  have heq : s.rccPosition b .closed = (marked s b .closed).bayClosing b :=
    (rccPosition_later (.inr rfl) hnew hruns hsome).trans (if_neg (by decide))
  have hstate : ((marked s b .closed).rcl b).state = (s.rcl b).state := by rw [marked_rcl]
  rw [heq]
  unfold State.bayClosing
  dsimp only
  rw [hstate]
  refine ⟨fun htaken => ?_, fun hnot => ?_⟩
  · rw [if_pos ((taken_iff _).mpr htaken)]
    have hput : ((((marked s b .closed).setPend (bayRec b) .reclose none).startReclaim b
        (((marked s b .closed).setPend (bayRec b) .reclose none).effShots b)).slot (bayRec b)).pend.reclose = none := by
      have hslot := setPend_slot (marked s b .closed) (bayRec b) .reclose none
      exact congrArg (fun x : Slot => x.pend.reclose) hslot
    have hreclaims : (((marked s b .closed).setPend (bayRec b) .reclose none).startReclaim b
        (((marked s b .closed).setPend (bayRec b) .reclose none).effShots b)).rcl b = { s.rcl b with
          lastDefinite := some .closed, state := .reclaim, shots := s.effShots b, deadTimer := none, springTimer := none,
          reclaimTimer := .running (s.setting b fReclaim) } := by
      have hmarked : ((marked s b .closed).setPend (bayRec b) .reclose none).rcl b = { s.rcl b with lastDefinite := some .closed } :=
        marked_rcl s b .closed
      rw [startReclaim_rcl, hmarked]
      rfl
    split
    · rw [rcl_of_rcc (lamp_rcc _ hput), hreclaims]
    · exact hreclaims
  · rw [if_neg (mt (taken_iff _).mp hnot), marked_rcl]

end position

/-! ### The spring charged (R71) -/

section spring
variable {s : State} {b : Bay}

/-- The bay waits for its spring. -/
def SpringWaits (s : State) (b : Bay) : Prop := s.runs b = true ∧ (s.rcl b).state = .dead ∧ (s.rcl b).springTimer ≠ none

theorem springWaits_iff : (s.runs b && (s.rcl b).state == .dead && (s.rcl b).springTimer.isSome) = true ↔ SpringWaits s b := by
  unfold SpringWaits
  rw [Bool.and_eq_true, Bool.and_eq_true, beq_iff_eq, and_assoc, Option.ne_none_iff_isSome]

theorem springCharged_idle (h : ¬ SpringWaits s b) : s.springCharged b = s := if_neg (mt springWaits_iff.mp h)

/-- The spring timer stopped. -/
def sprung (s : State) (b : Bay) : State := s.setRcl b { s.rcl b with springTimer := none }

theorem sprung_rcl (s : State) (b : Bay) : (sprung s b).rcl b = { s.rcl b with springTimer := none } := State.setRcl_rcl _ _ _

variable (h : SpringWaits s b)
include h

theorem springCharged_exhausted (hshots : s.effShots b ≤ (s.rcl b).shots) :
    (s.springCharged b).rcl b = lockedOut (s.rcl b) .shotsExhausted := by
  have heq : s.springCharged b = (sprung s b).lock b .shotsExhausted :=
    (if_pos (springWaits_iff.mpr h)).trans (if_pos (by
      show s.effShots b ≤ ((sprung s b).rcl b).shots
      rw [sprung_rcl]
      exact hshots))
  rw [heq, lock_rcl (s := sprung s b) h.1 (fun c hc => ?_), sprung_rcl]
  · rfl
  · rw [sprung_rcl] at hc
    cases h.2.1.symm.trans hc

variable (hshots : (s.rcl b).shots < s.effShots b)
include hshots

theorem springCharged_requests : s.springCharged b = (sprung s b).requestReclose b :=
  (if_pos (springWaits_iff.mpr h)).trans (if_neg (by
    show ¬ s.effShots b ≤ ((sprung s b).rcl b).shots
    rw [sprung_rcl]
    exact hshots.not_ge))

theorem springCharged_standdown (hpart : s.mgu.part = .standdown) :
    (s.springCharged b).rcl b = lockedOut (s.rcl b) .standdown := by
  have hserved : (s.cap (bayRec b)).inService = true := served_of_runs h.1
  have hjudge : (sprung s b).judgeReq (bayRec b) .reclose .closing = some .standdown := by
    have hsame : (sprung s b).judgeReq (bayRec b) .reclose .closing = s.judgeReq (bayRec b) .reclose .closing := rfl
    rw [hsame]
    unfold State.judgeReq
    simp [hserved, hpart]
  rw [springCharged_requests h hshots, requestReclose_refused_rcl (s := sprung s b) hjudge h.1, sprung_rcl]
  rfl

variable (hpart : s.mgu.part ≠ .standdown)
include hpart

theorem springCharged_blocked
    (hblocked : (s.status (bayRec b)).localMode = true ∨ (s.status (bayRec b)).interlock = true) :
    (s.springCharged b).rcl b = lockedOut (s.rcl b) .protectionBlocked := by
  obtain ⟨code, hjudge, hcode⟩ := judgeReq_blocked (c := .reclose) (served_of_runs h.1) hpart hblocked
  rw [springCharged_requests h hshots, requestReclose_refused_rcl (s := sprung s b) hjudge h.1, sprung_rcl,
    refusalCause_of_ne hcode]
  rfl

variable (hlocal : (s.status (bayRec b)).localMode = false) (hinterlock : (s.status (bayRec b)).interlock = false)
include hlocal hinterlock

theorem springCharged_issued (hfree : (s.slot (bayRec b)).state = .free) (hpend : (s.slot (bayRec b)).pend = Pending.none) :
    (s.springCharged b).rcl b = { s.rcl b with
      state := .closing .issued, shots := min 4 ((s.rcl b).shots + 1), deadTimer := none, springTimer := none } ∧
    (s.springCharged b).slot (bayRec b) = (s.slot (bayRec b)).issued .reclose .closing s.mono 250 := by
  have hjudge : (sprung s b).judgeReq (bayRec b) .reclose .closing = none :=
    judgeReq_reclose (s := sprung s b) (served_of_runs h.1) hpart hlocal hinterlock
  rw [springCharged_requests h hshots]
  refine ⟨?_, requestReclose_issued_slot (s := sprung s b) hjudge hfree hpend⟩
  rw [requestReclose_issued_rcl (s := sprung s b) hjudge hfree hpend, sprung_rcl]

theorem springCharged_waits (hbusy : (s.slot (bayRec b)).state ≠ .free) :
    (s.springCharged b).rcl b = { s.rcl b with state := .closing .waiting, deadTimer := none, springTimer := none } ∧
    (s.springCharged b).slot (bayRec b) =
      { s.slot (bayRec b) with pend := { (s.slot (bayRec b)).pend with reclose := some .closing } } := by
  have hjudge : (sprung s b).judgeReq (bayRec b) .reclose .closing = none :=
    judgeReq_reclose (s := sprung s b) (served_of_runs h.1) hpart hlocal hinterlock
  have hisFree : (s.slot (bayRec b)).state.isFree = false := by
    cases hstate : (s.slot (bayRec b)).state with
    | free => exact absurd hstate hbusy
    | _ => rfl
  rw [springCharged_requests h hshots, requestReclose_waits (s := sprung s b) hjudge hisFree]
  refine ⟨?_, setPend_slot _ _ _ _⟩
  have hrcl : ((recloseWaiting (sprung s b) b).setPend (bayRec b) .reclose (some .closing)).rcl b = _ :=
    recloseWaiting_rcl (sprung s b) b
  rw [hrcl, sprung_rcl]

end spring

end Sys2Proof.Proofs.PositionChanges

/-! A BAYSTAT frame that changes one thing of its record: the local-mode, the interlock or the spring input, or the position, at a bay
that the hunt is testing or not (R44 to R47). -/

namespace Sys2Proof.Proofs.BaystatChanges
open Sys2Proof.Machine Sys2Proof.Safety Sys2Proof.Proofs.Occurrences Sys2Proof.Proofs.HuntBays Sys2Proof.Proofs.HuntEnd
  Sys2Proof.Proofs.HuntSelection Sys2Proof.Proofs.HuntAbort Sys2Proof.Proofs.SlotRules Sys2Proof.Proofs.FrameRules
  Sys2Proof.Proofs.StatusRules
  Sys2Proof.Proofs.BlockRange Sys2Proof.Proofs.ControlSteps Sys2Proof.Proofs.CommandEnds Sys2Proof.Proofs.HuntAnswers
  Sys2Proof.Proofs.HuntCommandEnds Sys2Proof.Proofs.BaystatFrames Sys2Proof.Proofs.BayActs
  Sys2Proof.Proofs.WithdrawnRequests Sys2Proof.Proofs.InputChanges

/-! ### The stages of a frame with one change -/

section stages
variable {s t : State} {n : Rec} {m : Baystat} {l i : Bool}

theorem storeInputs_same (hl : (t.status n).localMode = l) (hi : (t.status n).interlock = i) :
    t.storeInputs n l i = t := by
  subst hl hi
  exact storeInputs_held

theorem storeSpring_same {v : Bool} (h : (t.status n).spring = v) : t.storeSpring n v = t := by
  subst h
  exact storeSpring_held

theorem storePosition_same {p : Position} (h : (t.status n).position = p) : t.storePosition n p = t := by
  subst h
  exact storePosition_held

/-- The two inputs stored, and nothing more. -/
def inputs (s : State) (n : Rec) (m : Baystat) (l i : Bool) : State :=
  (seen s n m.spring).setStatus n { (seen s n m.spring).status n with localMode := l, interlock := i }

theorem inputs_status (s : State) (n : Rec) (m : Baystat) (l i : Bool) : (inputs s n m l i).status n = { s.status n with
    silence := some 1000, springReported := m.spring, localMode := l, interlock := i } := by
  unfold inputs
  rw [State.setStatus_status, seen_status]

/-- The spring input stored, and nothing more. -/
def springStored (s : State) (n : Rec) (m : Baystat) (v : Bool) : State :=
  (seen s n m.spring).setStatus n { (seen s n m.spring).status n with spring := v }

/-- The position stored, and nothing more. -/
def placed (s : State) (n : Rec) (m : Baystat) (p : Position) : State :=
  (seen s n m.spring).setStatus n { (seen s n m.spring).status n with position := p }

section same
variable (hposition : (s.status n).position = m.position) (hspring : (s.status n).spring = gatedSpring n (s.cap n) m.spring)
include hposition hspring

/-- The later stages, where the spring and the position stand. -/
theorem laterStages (hstatus : t.bcu.status = (inputs s n m l i).bcu.status) :
    (t.storeSpring n (gatedSpring n (s.cap n) m.spring)).storePosition n m.position = t := by
  have hself : t.status n = (inputs s n m l i).status n := status_of_eq hstatus n
  rw [inputs_status] at hself
  rw [storeSpring_same (by rw [hself]; exact hspring), storePosition_same (by rw [hself]; exact hposition)]

theorem moved_local (hchange : (s.status n).localMode ≠ gatedLocal n (s.cap n) m.loc)
    (hinterlock : (s.status n).interlock = gatedInterlock n (s.cap n) m.interlock) :
    moved s n m = (inputs s n m (gatedLocal n (s.cap n) m.loc) (gatedInterlock n (s.cap n) m.interlock)).localChanged n
      (gatedLocal n (s.cap n) m.loc) := by
  have hinputs : (seen s n m.spring).storeInputs n (gatedLocal n (s.cap n) m.loc) (gatedInterlock n (s.cap n) m.interlock) =
      (inputs s n m (gatedLocal n (s.cap n) m.loc) (gatedInterlock n (s.cap n) m.interlock)).localChanged n
        (gatedLocal n (s.cap n) m.loc) := by
    unfold State.storeInputs
    dsimp only
    rw [if_pos (by rw [seen_status]; exact beq_iff_eq.mpr hinterlock),
      if_neg (by rw [seen_status]; exact mt beq_iff_eq.mp hchange)]
    rfl
  unfold moved
  rw [hinputs]
  exact laterStages hposition hspring (localChanged_status _ _ _)

theorem moved_interlock (hlocal : (s.status n).localMode = gatedLocal n (s.cap n) m.loc)
    (hchange : (s.status n).interlock ≠ gatedInterlock n (s.cap n) m.interlock) :
    moved s n m = (inputs s n m (gatedLocal n (s.cap n) m.loc) (gatedInterlock n (s.cap n) m.interlock)).interlockChanged n
      (gatedInterlock n (s.cap n) m.interlock) := by
  have hinputs : (seen s n m.spring).storeInputs n (gatedLocal n (s.cap n) m.loc) (gatedInterlock n (s.cap n) m.interlock) =
      (inputs s n m (gatedLocal n (s.cap n) m.loc) (gatedInterlock n (s.cap n) m.interlock)).interlockChanged n
        (gatedInterlock n (s.cap n) m.interlock) := by
    unfold State.storeInputs
    dsimp only
    rw [if_neg (by rw [seen_status]; exact mt beq_iff_eq.mp hchange),
      if_pos (by rw [seen_status]; exact beq_iff_eq.mpr hlocal)]
    rfl
  unfold moved
  rw [hinputs]
  exact laterStages hposition hspring (interlockChanged_status _ _ _)

end same

section inputs
variable (hlocal : (s.status n).localMode = gatedLocal n (s.cap n) m.loc)
  (hinterlock : (s.status n).interlock = gatedInterlock n (s.cap n) m.interlock)
include hlocal hinterlock

theorem moved_spring {b : Bay} (hn : n = bayRec b) (hposition : (s.status n).position = m.position)
    (hchange : (s.status n).spring ≠ gatedSpring n (s.cap n) m.spring) : moved s n m =
      if gatedSpring n (s.cap n) m.spring then (springStored s n m (gatedSpring n (s.cap n) m.spring)).springCharged b
      else springStored s n m (gatedSpring n (s.cap n) m.spring) := by
  have hstore : (seen s n m.spring).storeSpring n (gatedSpring n (s.cap n) m.spring) =
      if gatedSpring n (s.cap n) m.spring then (springStored s n m (gatedSpring n (s.cap n) m.spring)).springCharged b
      else springStored s n m (gatedSpring n (s.cap n) m.spring) := by
    unfold State.storeSpring
    dsimp only
    rw [if_neg (by rw [seen_status]; exact mt beq_iff_eq.mp hchange), hn, recBay_bayRec]
    rfl
  have hstatus := storeSpring_status (seen s n m.spring) n (gatedSpring n (s.cap n) m.spring)
  unfold moved
  rw [storeInputs_same (by rw [seen_status]; exact hlocal) (by rw [seen_status]; exact hinterlock), storePosition_same, hstore]
  rw [status_of_eq hstatus, State.setStatus_status, seen_status]
  exact hposition

theorem moved_position {b : Bay} (hn : n = bayRec b) (hspring : (s.status n).spring = gatedSpring n (s.cap n) m.spring)
    (hchange : (s.status n).position ≠ m.position) : moved s n m =
      ((placed s n m m.position).rccPosition b m.position).hncPosition b m.position := by
  unfold moved
  rw [storeInputs_same (by rw [seen_status]; exact hlocal) (by rw [seen_status]; exact hinterlock),
    storeSpring_same (by rw [seen_status]; exact hspring)]
  unfold State.storePosition
  dsimp only
  rw [if_neg (by rw [seen_status]; exact mt beq_iff_eq.mp hchange), hn, recBay_bayRec]
  rfl

end inputs

end stages

/-! ### A change at a bay that the hunt is not testing -/

section untested
variable {u w x : State} {b : Bay}

/-- What a change of one thing at one bay leaves of the part, from the state it is made on. -/
structure Local (b : Bay) (s t : State) : Prop where
  only : OnlyAt (bayRec b) s t
  hnc : t.hnc = s.hnc
  fru : t.fru = s.fru
  pru : t.pru = s.pru

theorem Local.trans {s t v : State} (h : Local b s t) (k : Local b t v) : Local b s v :=
  ⟨h.only.trans k.only, k.hnc.trans h.hnc, k.fru.trans h.fru, k.pru.trans h.pru⟩

/-- An input's change with its occurrence, and the frame's lamp. -/
def announced (x : State) (b : Bay) (f : Factor) (v : Byte) (l : Lamp) : State :=
  relamped (x.occur f (recMask (bayRec b)) [v]) (bayRec b) l

structure Announced (w x : State) (b : Bay) (f : Factor) (v : Byte) (t : State) : Prop where
  local_ : Local b w t
  unechoed : Unechoed (bayRec b) w → Unechoed (bayRec b) t
  said : w.mgu.part ≠ .bypass → Unarmed w → t.fac f = (w.fac f).take (recMask (bayRec b)) (detail [v]) w.stamp
  slot : t.slot (bayRec b) = x.slot (bayRec b)
  rcl : t.rcl b = x.rcl b

theorem announced_leaves (hnear : Near (bayRec b) w x) (honly : OnlySlots w x) {f : Factor} (hlock : f ≠ fLockout)
    (hcancel : f ≠ fRecloseCancelled) (v : Byte) (l : Lamp) : Announced w x b f v (announced x b f v l) := by
  have hmask := x.occur_maskE f (recMask (bayRec b)) [v]
  have hrelamped (y : State) : OnlyAt (bayRec b) y (relamped y (bayRec b) l) := onlyAt_of_blocks rfl rfl rfl
  have hslot : (announced x b f v l).slot (bayRec b) = x.slot (bayRec b) := occur_slot x _ f _ _
  refine { local_ := ⟨(hnear.only.trans (x.occur_at _ f _ _)).trans (hrelamped _), (State.maskE_hnc hmask :).trans honly.hnc,
             (State.maskE_fru hmask :).trans honly.fru, (State.maskE_pru hmask :).trans honly.pru⟩,
           unechoed := fun hstill g hg => hnear.unechoed hstill g (by rwa [hslot] at hg), said := fun hpart harmed => ?_,
           slot := hslot, rcl := congrArg (fun c => Vector.look c b) (State.maskE_rcc hmask :) }
  obtain ⟨hunarmed, hfac⟩ := hnear.calm harmed
  have htaken := occur_fac_same hunarmed (by rw [honly.part]; exact hpart) f (recMask (bayRec b)) [v]
  rw [hfac f hlock hcancel, stamp_of_onlySlots honly] at htaken
  exact htaken

theorem localChanged_on (w : State) (b : Bay) : w.localChanged (bayRec b) true =
    (barred w b .localMode (fun _ => true) .localMode).occur fBayLocal (recMask (bayRec b)) [1] := by
  unfold State.localChanged
  rw [recBay_bayRec]
  rfl

theorem localChanged_off (w : State) (b : Bay) : w.localChanged (bayRec b) false =
    (w.removeReason b .localMode).occur fBayLocal (recMask (bayRec b)) [0] := by
  unfold State.localChanged
  rw [recBay_bayRec]
  rfl

theorem interlockChanged_on (w : State) (b : Bay) : w.interlockChanged (bayRec b) true =
    (barred w b .interlock Command.isClose .interlock).occur fBayInterlock (recMask (bayRec b)) [1] := by
  unfold State.interlockChanged
  rw [recBay_bayRec]
  rfl

theorem interlockChanged_off (w : State) (b : Bay) : w.interlockChanged (bayRec b) false =
    (w.removeReason b .interlock).occur fBayInterlock (recMask (bayRec b)) [0] := by
  unfold State.interlockChanged
  rw [recBay_bayRec]
  rfl

theorem removed_leaves (w : State) (b : Bay) (r : BlockReason) :
    Near (bayRec b) w (w.removeReason b r) ∧ OnlySlots w (w.removeReason b r) :=
  ⟨(near_steps _ w).removeReason r (.refl _ w), removeReason_onlySlots w b r⟩

/-- The hunt does nothing at a position of a bay it does not test. -/
theorem hncPosition_other {p : Position} (h : w.underTest ≠ some b) : w.hncPosition b p = w :=
  if_neg (by simp [h])

end untested

/-! ### A change at the bay under test -/

section tested
variable {w : State} {b : Bay}

/-- The classes after the HUNT class change nothing of the hunt (R45). -/
theorem laterClasses (w : State) (b : Bay) (which : Command → Bool) (code : ResultCode) :
    (step which code (bayRec b) (step which code (bayRec b) (step which code (bayRec b) w .reclose) .management) .annunciate).maskS =
      w.maskS ∧
    (Unechoed (bayRec b) w → Unechoed (bayRec b)
      (step which code (bayRec b) (step which code (bayRec b) (step which code (bayRec b) w .reclose) .management) .annunciate)) := by
  have hP := unechoed_steps (bayRec b) (bayRec b)
  have hreclose : (step which code (bayRec b) w .reclose).maskS = w.maskS ∧
      (Unechoed (bayRec b) w → Unechoed (bayRec b) (step which code (bayRec b) w .reclose)) := by
    rcases step_reclose (s := w) (b := b) (which := which) (code := code) with heq | heq
    · rw [heq]
      exact ⟨rfl, hP.setPend _ _⟩
    · rw [heq]
      exact ⟨rccRefused_maskS _ _ _, fun hs => hP.rccRefused _ (hP.setPend _ _ hs)⟩
  generalize step which code (bayRec b) w .reclose = x at hreclose
  have hmanagement : (step which code (bayRec b) x .management).maskS = x.maskS ∧
      (Unechoed (bayRec b) x → Unechoed (bayRec b) (step which code (bayRec b) x .management)) := by
    rw [step_management]
    split
    · exact ⟨rfl, fun hs => hP.setResult _ (hP.setPend _ _ hs)⟩
    · exact ⟨rfl, hP.setPend _ _⟩
  generalize step which code (bayRec b) x .management = y at hmanagement
  rw [step_annunciate]
  exact ⟨hmanagement.1.trans hreclose.1, fun hs => hP.setPend _ _ (hmanagement.2 (hreclose.2 hs))⟩

/-- The hunt's own request at the bay under test is withdrawn, and the hunt is told. -/
theorem barred_tested {r : BlockReason} {which : Command → Bool} {code : ResultCode} {cmd : Command}
    (htest : w.underTest = some b) (hawaits : w.hnc.state.awaits = true) (hbusy : (w.slot (bayRec b)).state ≠ .free)
    (hpend : (w.slot (bayRec b)).pend.hunt = some cmd) (hgone : which cmd = true) :
    ∃ x : State, x.hnc = w.hnc ∧
      (barred w b r which code).hnc =
        (if cmd == .closing then x.huntCloseTold (HuntTold.ofCode code) else x.huntOpenTold b (HuntTold.ofCode code)).hnc ∧
      (Unechoed (bayRec b) w → Unechoed (bayRec b) (barred w b r which code)) := by
  have hmove := addReason_lampMove (r := r) hbusy
  have hhnc : (w.addReason b r).hnc = w.hnc := State.maskR_hnc (w.addReason_maskR b r)
  have hstill : Unechoed (bayRec b) w → Unechoed (bayRec b) (w.addReason b r) :=
    (unechoed_steps (bayRec b) (bayRec b)).addReason r
  have hget : ((w.addReason b r).slot (bayRec b)).pend.get .hunt = some cmd := hmove.hunt.trans hpend
  unfold barred
  rw [withdraw_steps]
  generalize w.addReason b r = t at hhnc hstill hget
  have hput : Unechoed (bayRec b) w → Unechoed (bayRec b) (t.setPend (bayRec b) .hunt none) := fun hs =>
    (unechoed_steps (bayRec b) (bayRec b)).setPend _ _ (hstill hs)
  have htested : (t.setPend (bayRec b) .hunt none).underTest = some b :=
    (underTest_of_hnc (t := t.setPend (bayRec b) .hunt none) (s := w) (congrArg Hnc.current hhnc) (congrArg Hnc.cands hhnc)).trans htest
  have hstep : step which code (bayRec b) t .hunt = (t.setPend (bayRec b) .hunt none).hncTold (bayRec b) cmd (HuntTold.ofCode code) false := by
    rcases step_cases t (bayRec b) .hunt which code with ⟨hnone, -, -⟩ | ⟨d, hd, -, -, heq⟩
    · rw [hget] at hnone
      simp [Option.filter, hgone] at hnone
    · obtain rfl := Option.some.inj (hget.symm.trans hd)
      rw [heq]
      rfl
  have htold : (t.setPend (bayRec b) .hunt none).hncTold (bayRec b) cmd (HuntTold.ofCode code) false =
      if cmd == .closing then (t.setPend (bayRec b) .hunt none).huntCloseTold (HuntTold.ofCode code)
      else (t.setPend (bayRec b) .hunt none).huntOpenTold b (HuntTold.ofCode code) := by
    have hwaits : (t.setPend (bayRec b) .hunt none).hnc.state.awaits = true := by
      rw [show (t.setPend (bayRec b) .hunt none).hnc = w.hnc from hhnc]
      exact hawaits
    unfold State.hncTold
    rw [htested]
    dsimp only
    rw [hwaits, if_pos (by simp)]
  obtain ⟨hmask, hlater⟩ := laterClasses ((t.setPend (bayRec b) .hunt none).hncTold (bayRec b) cmd (HuntTold.ofCode code) false) b which code
  rw [hstep]
  refine ⟨t.setPend (bayRec b) .hunt none, hhnc, (State.maskS_hnc hmask).trans (congrArg State.hnc htold), fun hs => hlater ?_⟩
  exact (huntSteps_unechoed (bayRec b)).hncTold (hput hs)

end tested

end Sys2Proof.Proofs.BaystatChanges

/-! What a BAYSTAT frame leaves, by what it changes of its record (R43 to R47, R54, R55, R68, R71, R77, R78, R81, R135, R138). -/

namespace Sys2Proof.Proofs.BaystatTaken
open Sys2Proof.Machine Sys2Proof.Safety Sys2Proof.Proofs.Occurrences Sys2Proof.Proofs.HuntBays Sys2Proof.Proofs.HuntEnd
  Sys2Proof.Proofs.HuntSelection Sys2Proof.Proofs.HuntAbort Sys2Proof.Proofs.SlotRules Sys2Proof.Proofs.StatusRules
  Sys2Proof.Proofs.BlockRange Sys2Proof.Proofs.ControlSteps Sys2Proof.Proofs.CommandEnds Sys2Proof.Proofs.CommandTimeouts
  Sys2Proof.Proofs.HuntAnswers Sys2Proof.Proofs.HuntCommandEnds Sys2Proof.Proofs.BaystatFrames Sys2Proof.Proofs.BayActs
  Sys2Proof.Proofs.WithdrawnRequests Sys2Proof.Proofs.InputChanges Sys2Proof.Proofs.PositionChanges
  Sys2Proof.Proofs.BaystatChanges

section taken
variable {u : State} {n : Rec} {m : Baystat}

/-- A frame that echoes no command ends with its lamp stored. -/
theorem applyBaystat_untold {t : State} (hpresent : (u.status n).presence = true) (htag : m.echoTag = 0) (hmoved : moved u n m = t)
    (hstill : Unechoed n t) : u.applyBaystat n m = relamped t n m.lamp := by
  rw [applyBaystat_moved hpresent, hmoved, htag]
  exact judgeEcho_untold (s := relamped t n m.lamp) hstill

theorem applyBaystat_only (u : State) (n : Rec) (m : Baystat) : OnlyControl u (u.applyBaystat n m) :=
  onlyControl_of_mask (State.applyBaystat_maskB u n m)

theorem inputs_local (u : State) (b : Bay) (m : Baystat) (l i : Bool) : Local b u (inputs u (bayRec b) m l i) :=
  ⟨onlyAt_of_blocks rfl rfl rfl, rfl, rfl, rfl⟩

/-- What the withdrawal of every request but TRIP leaves waiting at a slot with a command in flight (R45). -/
theorem cleared_all {which : Command → Bool} {code : ResultCode} {now : Word32} {x y : Slot} (h : Cleared which x y)
    (hall : ∀ cmd, which cmd = true) : (eased' which code now y).pend = { Pending.none with trip := x.pend.trip } := by
  have htrip := h.trip
  have hhunt := h.hunt.trans (stays_all hall _)
  have hreclose := h.reclose hall
  unfold eased'
  dsimp only
  rw [stays_all hall, stays_all hall]
  generalize y.pend = p at htrip hhunt hreclose
  cases p
  simp_all [Pending.set, Pending.none]

theorem stays_close (o : Option Command) : stays Command.isClose o = if o = some .closing then none else o := by
  cases o with
  | none => rfl
  | some cmd => cases cmd <;> rfl

theorem isClose_eq_false {cmd : Command} (h : ¬ cmd = .closing) : cmd.isClose = false :=
  Bool.not_eq_true _ ▸ mt isClose_iff.mp h

end taken

/-! ### The local-mode input (R45) -/

section local_
variable {w : State} {b : Bay} (htest : w.underTest ≠ some b)
include htest

/-- What the rise of the local-mode input leaves of the bay's slot. -/
theorem localOn_slot (hsettled : (w.slot (bayRec b)).state ≠ .free ∨ (w.slot (bayRec b)).pend = Pending.none)
    (hdark : (w.status (bayRec b)).localMode = true) :
    let y := (barred w b .localMode (fun _ => true) .localMode).slot (bayRec b)
    y.state = (w.slot (bayRec b)).state ∧ y.lastTag = (w.slot (bayRec b)).lastTag ∧
    y.pend = { Pending.none with trip := (w.slot (bayRec b)).pend.trip } := by
  by_cases hfree : (w.slot (bayRec b)).state = .free
  · have hpend := hsettled.resolve_left (not_not_intro hfree)
    have hsame := (barred_free (r := .localMode) (which := fun _ => true) (code := .localMode) hfree hpend).same hdark
    rw [hsame]
    exact ⟨rfl, rfl, by rw [hpend]⟩
  · obtain ⟨y, hy, heq⟩ := barred_busy (r := .localMode) (which := fun _ => true) (code := .localMode) htest hfree
    rw [heq]
    exact ⟨hy.state, hy.lastTag, cleared_all hy fun _ => rfl⟩

end local_

/-! ### A frame with one change, at a bay the hunt is not testing -/

section change
variable {u w x : State} {b : Bay} {m : Baystat} {f : Factor} {v : Byte}

/-- A change of the local-mode or the interlock input. -/
theorem input_taken (hpresent : (u.status (bayRec b)).presence = true) (htag : m.echoTag = 0)
    (hmoved : moved u (bayRec b) m = x.occur f (recMask (bayRec b)) [v]) (hw : Local b u w) (hnear : Near (bayRec b) w x)
    (honly : OnlySlots w x) (hlock : f ≠ fLockout) (hcancel : f ≠ fRecloseCancelled) (hstill : Unechoed (bayRec b) w) :
    u.applyBaystat (bayRec b) m = announced x b f v m.lamp ∧ Announced w x b f v (announced x b f v m.lamp) ∧
    Local b u (announced x b f v m.lamp) := by
  have hleaves := announced_leaves hnear honly hlock hcancel v m.lamp
  exact ⟨applyBaystat_untold hpresent htag hmoved (hleaves.unechoed hstill), hleaves, hw.trans hleaves.local_⟩

/-- A change that makes no occurrence of its own. -/
theorem quiet_taken (hpresent : (u.status (bayRec b)).presence = true) (htag : m.echoTag = 0)
    (hmoved : moved u (bayRec b) m = x) (hw : Local b u w) (hnear : Near (bayRec b) w x) (honly : OnlySlots w x)
    (hstill : Unechoed (bayRec b) w) : u.applyBaystat (bayRec b) m = relamped x (bayRec b) m.lamp ∧
    Local b u (relamped x (bayRec b) m.lamp) :=
  ⟨applyBaystat_untold hpresent htag hmoved (hnear.unechoed hstill),
    hw.trans ⟨hnear.only.trans (onlyAt_of_blocks rfl rfl rfl), honly.hnc, honly.fru, honly.pru⟩⟩

/-- A change of the position (R68). -/
theorem position_taken (hpresent : (u.status (bayRec b)).presence = true) (htag : m.echoTag = 0)
    (hlocal : (u.status (bayRec b)).localMode = gatedLocal (bayRec b) (u.cap (bayRec b)) m.loc)
    (hinterlock : (u.status (bayRec b)).interlock = gatedInterlock (bayRec b) (u.cap (bayRec b)) m.interlock)
    (hspring : (u.status (bayRec b)).spring = gatedSpring (bayRec b) (u.cap (bayRec b)) m.spring)
    (hchange : (u.status (bayRec b)).position ≠ m.position) (hstill : Unechoed (bayRec b) u) (htest : u.underTest ≠ some b) :
    u.applyBaystat (bayRec b) m = relamped ((placed u (bayRec b) m m.position).rccPosition b m.position) (bayRec b) m.lamp ∧
    Local b u (relamped ((placed u (bayRec b) m m.position).rccPosition b m.position) (bayRec b) m.lamp) := by
  have hmask := State.rccPosition_maskS (placed u (bayRec b) m m.position) b m.position
  have huntested : ((placed u (bayRec b) m m.position).rccPosition b m.position).underTest ≠ some b := by
    rw [underTest_of_hnc (s := u) (by rw [State.maskS_hnc hmask]; rfl) (by rw [State.maskS_hnc hmask]; rfl)]
    exact htest
  refine quiet_taken (w := placed u (bayRec b) m m.position) hpresent htag
    ((moved_position hlocal hinterlock rfl hspring hchange).trans (hncPosition_other huntested))
    ⟨onlyAt_of_blocks rfl rfl rfl, rfl, rfl, rfl⟩ ?_ (onlySlots_of_mask hmask) hstill
  exact (near_steps _ _).rccPosition _ (.refl _ _)

end change

/-! ### A frame at the bay under test (R133, R135, R136, R138) -/

section tested
variable {u : State} {b : Bay} {m : Baystat} (hpresent : (u.status (bayRec b)).presence = true) (htag : m.echoTag = 0)
  (hspring : (u.status (bayRec b)).spring = gatedSpring (bayRec b) (u.cap (bayRec b)) m.spring)
  (hstill : Unechoed (bayRec b) u) (htest : u.underTest = some b)
include hpresent htag hspring hstill htest

section closed
variable (hlocal : (u.status (bayRec b)).localMode = gatedLocal (bayRec b) (u.cap (bayRec b)) m.loc)
  (hinterlock : (u.status (bayRec b)).interlock = gatedInterlock (bayRec b) (u.cap (bayRec b)) m.interlock)
  (hchange : (u.status (bayRec b)).position ≠ m.position) (hclosed : m.position = .closed)
include hlocal hinterlock hchange hclosed

/-- The bay under test is reported CLOSED: the hunt context after it is that of the hunt's own answer, which echoes no command. -/
theorem closed_taken : ∃ x : State, x.hnc = u.hnc ∧ x.efu = u.efu ∧ (Unechoed (bayRec b) (x.hncPosition b .closed) →
    (u.applyBaystat (bayRec b) m).hnc = (x.hncPosition b .closed).hnc) ∧ Unechoed (bayRec b) x ∧ x.underTest = some b := by
  have hmask := State.rccPosition_maskS (placed u (bayRec b) m m.position) b m.position
  have hhnc : ((placed u (bayRec b) m m.position).rccPosition b m.position).hnc = u.hnc :=
    State.maskS_hnc (s := placed u (bayRec b) m m.position) hmask
  have hmoved := moved_position hlocal hinterlock rfl hspring hchange
  refine ⟨(placed u (bayRec b) m m.position).rccPosition b m.position, hhnc,
    State.maskB_efu (s := placed u (bayRec b) m m.position) (State.maskB_of_maskH (State.maskH_of_maskS hmask)), fun hquiet => ?_, ?_,
    (underTest_of_hnc (congrArg Hnc.current hhnc) (congrArg Hnc.cands hhnc)).trans htest⟩
  · rw [applyBaystat_untold hpresent htag hmoved (by rw [hclosed] at hquiet ⊢; exact hquiet), hclosed]
    rfl
  · exact ((near_steps _ _).rccPosition _ (.refl _ (placed u (bayRec b) m m.position))).unechoed hstill

theorem closed_inDwell (hstate : u.hnc.state = .dwell) : (u.applyBaystat (bayRec b) m).hnc.bayOpen = none ∧
    Outcome u (u.applyBaystat (bayRec b) m) .failedOpen ∧ GoesOn (u.applyBaystat (bayRec b) m) := by
  obtain ⟨x, hhnc, -, heq, hquiet, htested⟩ := closed_taken hpresent htag hspring hstill htest hlocal hinterlock hchange hclosed
  have hposition : x.hncPosition b .closed =
      (((x.setHnc { x.hnc with timer := none }).setBayOpen none).setCurOutcome .failedOpen).selectNext := by
    unfold State.hncPosition
    rw [if_pos (by rw [htested]; simp), hhnc, hstate]
  have hcurrent := setCurOutcome_hnc ((x.setHnc { x.hnc with timer := none }).setBayOpen none) .failedOpen
  have htested' : ((x.setHnc { x.hnc with timer := none }).setBayOpen none).underTest = some b := htested
  have hselects := selectFrom_selects
    (((x.setHnc { x.hnc with timer := none }).setBayOpen none).setCurOutcome .failedOpen).nextPositions
    (((x.setHnc { x.hnc with timer := none }).setBayOpen none).setCurOutcome .failedOpen)
  have houtcome := (setCurOutcome_outcome htested' .failedOpen).selectNext (by rw [hcurrent])
  rw [hposition] at heq
  replace heq := heq ((huntSteps_unechoed (bayRec b)).selectNext ((huntSteps_unechoed (bayRec b)).setCurOutcome hquiet))
  refine ⟨?_, fun j hj => ?_, ?_⟩
  · rw [heq]
    refine hselects.bayOpen.trans ?_
    rw [hcurrent]
    rfl
  · rw [heq]
    exact houtcome j (by rw [← hhnc] at hj; exact hj)
  · unfold GoesOn
    rw [heq]
    exact hselects.goes

theorem closed_inRetestWait (hstate : u.hnc.state = .retestWait) (hcalm : u.efu.nvd.state ≠ .displaced) :
    (u.applyBaystat (bayRec b) m).hnc = { u.hnc with state := .retestDwell, timer := some u.curDwell, bayOpen := none } := by
  obtain ⟨x, hhnc, hefu, heq, hquiet, htested⟩ := closed_taken hpresent htag hspring hstill htest hlocal hinterlock hchange hclosed
  have hdwell : x.curDwell = u.curDwell := by
    unfold State.curDwell State.curCandidate State.candidate
    rw [hhnc]
  have hposition : x.hncPosition b .closed = (x.setBayOpen none).huntTo .retestDwell (some x.curDwell) := by
    unfold State.hncPosition
    rw [if_pos (by rw [htested]; simp), hhnc, hstate]
    exact if_neg (mt beq_iff_eq.mp (by rw [← hefu] at hcalm; exact hcalm))
  rw [hposition] at heq
  rw [heq hquiet, ← hdwell, ← hhnc]
  rfl

end closed

section withdrawn
variable (hposition : (u.status (bayRec b)).position = m.position) (hbusy : (u.slot (bayRec b)).state ≠ .free)
include hposition hbusy

/-- The hunt's OPEN that waits is withdrawn as the local-mode input rises (R45, R133). -/
theorem local_withdrawsOpen (hoff : (u.status (bayRec b)).localMode = false)
    (hon : gatedLocal (bayRec b) (u.cap (bayRec b)) m.loc = true)
    (hinterlock : (u.status (bayRec b)).interlock = gatedInterlock (bayRec b) (u.cap (bayRec b)) m.interlock)
    (hstate : u.hnc.state = .opening) (hpend : (u.slot (bayRec b)).pend.hunt = some .opening) :
    Outcome u (u.applyBaystat (bayRec b) m) .failedOpen ∧ GoesOn (u.applyBaystat (bayRec b) m) := by
  have hmoved := moved_local hposition hspring (by rw [hoff, hon]; decide) hinterlock
  rw [hon, localChanged_on] at hmoved
  obtain ⟨x, hhnc, htold, hquiet⟩ := barred_tested
    (w := inputs u (bayRec b) m true (gatedInterlock (bayRec b) (u.cap (bayRec b)) m.interlock))
    (r := .localMode) (which := fun _ => true) (code := .localMode) htest (by rw [show (inputs u (bayRec b) m true
      (gatedInterlock (bayRec b) (u.cap (bayRec b)) m.interlock)).hnc = u.hnc from rfl, hstate]; rfl) hbusy hpend rfl
  replace hhnc : x.hnc = u.hnc := hhnc
  have htested : x.underTest = some b :=
    (underTest_of_hnc (congrArg Hnc.current hhnc) (congrArg Hnc.cands hhnc)).trans htest
  have htold' := htold.trans (congrArg State.hnc (openTold_opening_failed (b := b) (v := x) (by rw [hhnc]; exact hstate)))
  generalize barred _ b _ _ _ = y at hmoved htold htold' hquiet
  have hocc := State.maskE_hnc (y.occur_maskE fBayLocal (recMask (bayRec b)) [1])
  have heq : (u.applyBaystat (bayRec b) m).hnc = ((x.setCurOutcome .failedOpen).selectNext).hnc := by
    rw [applyBaystat_untold hpresent htag hmoved fun f hf => hquiet hstill f (by rwa [occur_slot] at hf)]
    exact hocc.trans htold'
  obtain ⟨houtcome, hgoes⟩ := openFailed_leaves htested
  refine ⟨fun j hj => ?_, ?_⟩
  · rw [heq]
    exact houtcome j (by rw [hhnc]; exact hj)
  · unfold GoesOn
    rw [heq]
    exact hgoes

/-- The hunt's CLOSE that waits is withdrawn as the interlock input rises (R46, R136). -/
theorem interlock_withdrawsClose (hoff : (u.status (bayRec b)).interlock = false)
    (hon : gatedInterlock (bayRec b) (u.cap (bayRec b)) m.interlock = true)
    (hlocal : (u.status (bayRec b)).localMode = gatedLocal (bayRec b) (u.cap (bayRec b)) m.loc)
    (hstate : u.hnc.state = .restoring) (hpend : (u.slot (bayRec b)).pend.hunt = some .closing) :
    Outcome u (u.applyBaystat (bayRec b) m) .failedRestore ∧ GoesOn (u.applyBaystat (bayRec b) m) ∧
    (u.applyBaystat (bayRec b) m).hnc.bayOpen = none := by
  have hmoved := moved_interlock hposition hspring hlocal (by rw [hoff, hon]; decide)
  rw [hon, interlockChanged_on] at hmoved
  obtain ⟨x, hhnc, htold, hquiet⟩ := barred_tested
    (w := inputs u (bayRec b) m (gatedLocal (bayRec b) (u.cap (bayRec b)) m.loc) true)
    (r := .interlock) (which := Command.isClose) (code := .interlock) htest (by rw [show (inputs u (bayRec b) m
      (gatedLocal (bayRec b) (u.cap (bayRec b)) m.loc) true).hnc = u.hnc from rfl, hstate]; rfl) hbusy hpend rfl
  replace hhnc : x.hnc = u.hnc := hhnc
  have htested : x.underTest = some b :=
    (underTest_of_hnc (congrArg Hnc.current hhnc) (congrArg Hnc.cands hhnc)).trans htest
  have htold' := htold.trans (congrArg State.hnc (closeTold_restoring_failed (v := x) (by rw [hhnc]; exact hstate)))
  generalize barred _ b _ _ _ = y at hmoved htold htold' hquiet
  have hocc := State.maskE_hnc (y.occur_maskE fBayInterlock (recMask (bayRec b)) [1])
  have heq : (u.applyBaystat (bayRec b) m).hnc = x.restoreFailed.hnc := by
    rw [applyBaystat_untold hpresent htag hmoved fun f hf => hquiet hstill f (by rwa [occur_slot] at hf)]
    exact hocc.trans htold'
  obtain ⟨houtcome, hopen, -, hgoes⟩ := restoreFailed_leaves htested
  refine ⟨fun j hj => ?_, ?_, ?_⟩
  · rw [heq]
    exact houtcome j (by rw [hhnc]; exact hj)
  · unfold GoesOn
    rw [heq]
    exact hgoes
  · rw [heq]
    exact hopen

end withdrawn

end tested

end Sys2Proof.Proofs.BaystatTaken

/-! What a BAYSTAT frame does (R43 to R47, R54, R55, R68, R71, R77, R78, R81, R135, R138), assembled. -/

namespace Sys2Proof.Proofs.BaystatUse
open Sys2Proof.Machine Sys2Proof.Safety Sys2Proof.Proofs.Occurrences Sys2Proof.Proofs.HuntBays Sys2Proof.Proofs.HuntEnd
  Sys2Proof.Proofs.SlotRules Sys2Proof.Proofs.StatusRules Sys2Proof.Proofs.BlockRange Sys2Proof.Proofs.ControlSteps
  Sys2Proof.Proofs.RecloseTimers
  Sys2Proof.Proofs.CommandEnds Sys2Proof.Proofs.CommandTimeouts Sys2Proof.Proofs.HuntAnswers Sys2Proof.Proofs.BaystatFrames
  Sys2Proof.Proofs.BayActs Sys2Proof.Proofs.WithdrawnRequests Sys2Proof.Proofs.InputChanges Sys2Proof.Proofs.PositionChanges
  Sys2Proof.Proofs.BaystatChanges Sys2Proof.Proofs.BaystatTaken

section echo
variable {u v w t : State} {n : Rec} {f : Flight} {o : Told}

/-- A gateway's command with no trip that ends where nothing waits. -/
theorem ends_silent (hpend : (w.slot n).pend = Pending.none)
    (htrip : f.tripAttached = false) (hcls : f.cls = .management) :
    Freed w (w.commandEnd n f o) n (resultOf f o w.stamp) ∧ OnlyAt n w (w.commandEnd n f o) ∧
    (w.commandEnd n f o).status n = w.status n := by
  obtain ⟨hfreed, -, hat, -⟩ := commandEnd_silent (o := o) hpend rfl htrip (.inl hcls)
  exact ⟨hfreed, hat, status_of_eq (commandEnd_status w n f o) n⟩

theorem takeIndicator_still (v : State) (n : Rec) (cmd : Command) : (v.takeIndicator n cmd).slot n = v.slot n ∧
    (v.takeIndicator n cmd).stamp = v.stamp ∧ OnlyAt n v (v.takeIndicator n cmd) := by
  have hset := (takeIndicator_status v n cmd).1
  rw [hset]
  exact ⟨rfl, rfl, onlyAt_of_blocks rfl rfl rfl⟩

end echo

theorem positionOfCode_known (p : Byte) : positionOfCode p ≠ .unknown := by
  rw [positionOfCode_eq]
  split_ifs <;> decide

/-- The spring input stored changes the bay status alone. -/
theorem springStored_local (u : State) (b : Bay) (m : Baystat) (v : Bool) : Local b u (springStored u (bayRec b) m v) :=
  ⟨onlyAt_of_blocks rfl rfl rfl, rfl, rfl, rfl⟩

theorem springStored_status (u : State) (b : Bay) (m : Baystat) (v : Bool) :
    (springStored u (bayRec b) m v).status (bayRec b) =
      { u.status (bayRec b) with silence := some 1000, springReported := m.spring, spring := v } := by
  unfold springStored
  rw [State.setStatus_status, seen_status]

/-- Settles O41, by the record the frame is taken at and then by what it changes there. -/
theorem baystatApplied : Obligations.BaystatApplied := by
  intro s src p i l tag r n hfree hpart hsrc hown payload u goes position lamp c local_ interlock spring x
  have hexec := exec_baystatFrame_broadcast (payload := payload) hfree hpart hsrc hown
    (show [p, i, l, tag, r].length ≤ 1024 by simp)
  refine ⟨fun hnone => ?unknown, fun haddr hfirst => ?taken⟩
  case unknown =>
    have hrecord : u.recordOf src = none := recordOf_none (s := u) hnone
    rw [show s.refreshIn = u from rfl, bcuBaystat_unknown hrecord] at hexec
    exact hexec
  case taken =>
    have hrecord : u.recordOf src = some n := recordOf_first (s := u) haddr hfirst
    rw [show s.refreshIn = u from rfl, show payload = [p, i, l, tag, r] from rfl, bcuBaystat_taken hrecord] at hexec
    have hposition : (report p i l tag r).position = position := positionOfCode_eq p
    have hlamp : (report p i l tag r).lamp = lamp := lampOfCode_eq l
    have hlocal : gatedLocal n (u.cap n) (report p i l tag r).loc = local_ := rfl
    have hinterlock : gatedInterlock n (u.cap n) (report p i l tag r).interlock = interlock := rfl
    have hspring : gatedSpring n (u.cap n) (report p i l tag r).spring = spring := rfl
    have hgoes {t : State} (ht : u.applyBaystat n (report p i l tag r) = t) : goes t := by
      rw [ht] at hexec
      exact hexec
    have honly {t : State} (ht : u.applyBaystat n (report p i l tag r) = t) : OnlyControl u t := ht ▸ applyBaystat_only _ _ _
    have hknown : position ≠ .unknown := hposition ▸ positionOfCode_known p
    clear_value position lamp local_ interlock spring
    refine ⟨?status, fun hpresent hx hxl hxi hxs => ?echo, fun b hn hpresent hx hxl hxi hxs htag hstill htest => ?position,
      fun b j hn hpresent hx hxl hxi hxs htag hstill htest hcur hclosed => ?tested,
      fun b hn hpresent hx htag hstill hsettled htest => ?inputs,
      fun b j hn hpresent hx htag hstill hbusy htest hcur hxs => ?withdrawn⟩
    case status =>
      obtain ⟨w, hstatus⟩ := applyBaystat_status u n (report p i l tag r)
      have hself := (hstatus n).trans (if_pos rfl)
      rw [hposition, hlamp, hlocal, hinterlock, hspring] at hself
      refine ⟨_, hgoes rfl, honly rfl, fun m hm => (hstatus m).trans (if_neg (Ne.symm hm)), ?_⟩
      rw [hself]
      exact ⟨rfl, rfl, rfl, rfl, rfl, rfl, rfl⟩
    case echo =>
      intro v k arrived ends
      have happly : u.applyBaystat n (report p i l tag r) = v.judgeEcho n tag.toNat (r == 1) := by
        rw [applyBaystat_moved (s := u) hpresent, moved_unchanged (s := u) (hx.trans hposition.symm) (hxl.trans hlocal.symm) (hxi.trans hinterlock.symm)
          (hxs.trans hspring.symm), relamped_seen (s := u), hlamp]
        rfl
      have hvposition : (v.status n).position = position := by
        rw [State.setStatus_status]
        exact hx
      have hthere {cmd : Command} (h : arrived cmd) : cmd.arrives (v.status n).position = true := by
        rw [hvposition]
        exact (arrives_iff _ _).mpr h
      have haway {cmd : Command} (h : ¬ arrived cmd) : cmd.arrives (v.status n).position = false := by
        rw [hvposition]
        exact arrives_eq_false h
      have htagged {f : Flight} (h : tag ≠ 0) (hf : tag.toNat = f.tag) : tag.toNat ≠ 0 ∧ tag.toNat = f.tag :=
        ⟨fun e => h (BitVec.eq_of_toNat_eq e), hf⟩
      have hr {q : State} (h : r = 1) (hq : v.judgeEcho n tag.toNat true = q) :
          u.applyBaystat n (report p i l tag r) = q := by
        rw [happly, h]
        exact hq
      have hr' {q : State} (h : r ≠ 1) (hq : v.judgeEcho n tag.toNat false = q) :
          u.applyBaystat n (report p i l tag r) = q := by
        rw [happly, beq_false_of_ne h]
        exact hq
      have hdone {f : Flight} {cmd : Command} (hf : k.state = .inFlight f) (hcls : f.cls = .management)
          (htrip : f.tripAttached = false) (hpend : k.pend = Pending.none) (hcmd : f.cmd = cmd)
          (heq : u.applyBaystat n (report p i l tag r) = (v.takeIndicator n cmd).commandEnd n f .done) : ends f .done := by
        subst hcmd
        obtain ⟨hslot, hstamp, hat⟩ := takeIndicator_still v n f.cmd
        obtain ⟨⟨hfreed, hout⟩, hat', hstatus⟩ := ends_silent (w := v.takeIndicator n f.cmd) (o := .done) (n := n)
          (by rw [hslot]; exact hpend) htrip hcls
        rw [hslot, hstamp] at hfreed
        refine ⟨_, hgoes heq, hfreed, hout, fun a w hcmd hlight _ => ?_,
          (onlyAt_of_blocks (s := u) (t := v) rfl rfl rfl).trans (hat.trans hat')⟩
        rw [hstatus, hcmd]
        exact takeIndicator_lamp hlight
      refine ⟨fun hk => hgoes (happly.trans (judgeEcho_free (s := v) hk)), fun f hf hother => hgoes (happly.trans ?_),
        fun f hf htag heq hr1 hnot => hgoes (hr hr1 (judgeEcho_echoed (s := v) hf (htagged htag heq) (haway hnot))),
        fun f hf hnot => hgoes (happly.trans (judgeEcho_awaits (s := v) hf (haway hnot))),
        fun f hf htag heq hcls htrip hpend => ⟨fun hr1 hhere => ?_, fun hr1 => ?_⟩,
        fun f hf hcmd hhere hcls htrip hpend => ?_,
        fun f hf htag heq hr1 => hgoes (hr' hr1 (judgeEcho_refused (s := v) hf (htagged htag heq))),
        fun f hf hcmd hhere => hgoes ?_⟩
      · exact judgeEcho_other (s := v) hf (hother.imp_left fun h => by rw [h]; rfl)
      · exact hdone hf hcls htrip hpend rfl (hr hr1 (judgeEcho_done (s := v) hf (htagged htag heq) (hthere hhere)))
      · obtain ⟨⟨hfreed, hout⟩, hat, -⟩ := ends_silent (w := v) (o := .refused) (n := n) hpend htrip hcls
        exact ⟨_, hgoes (hr' hr1 (judgeEcho_refused (s := v) hf (htagged htag heq))), hfreed, hout,
          (by rintro _ _ _ _ ⟨⟩), (onlyAt_of_blocks (s := u) (t := v) rfl rfl rfl).trans hat⟩
      · obtain ⟨⟨hfreed, hout⟩, hat, -⟩ := ends_silent (w := v) (o := .done) (n := n) hpend htrip hcls
        refine ⟨_, hgoes (happly.trans (judgeEcho_arrived (s := v) hf (hthere hhere))), hfreed, hout, fun a w h _ _ => ?_,
          (onlyAt_of_blocks (s := u) (t := v) rfl rfl rfl).trans hat⟩
        rw [h] at hcmd
        exact hcmd.elim nofun nofun
      · rcases hf with ⟨hf, htag, heq, hr1⟩ | hf
        · refine hr hr1 ((judgeEcho_done (s := v) hf (htagged htag heq) (hthere hhere)).trans ?_)
          rw [takeIndicator_breaker hcmd]
        · exact happly.trans (judgeEcho_arrived (s := v) hf (hthere hhere))
    case position =>
      subst hn
      intro q q' definite
      obtain ⟨happly, hbay⟩ := position_taken (u := u) (m := report p i l tag r) hpresent (by rw [htag]; rfl)
        (hxl.trans hlocal.symm) (hxi.trans hinterlock.symm) (hxs.trans hspring.symm) (by rw [hposition]; exact hx) hstill htest
      rw [hposition] at happly hbay
      refine ⟨_, hgoes happly, honly happly, hbay.only, hbay.hnc, hbay.fru, hbay.pru, fun hkept => ?_, fun hdef hnew => ?_⟩
      · have hsame : (placed u (bayRec b) (report p i l tag r) position).rccPosition b position =
            placed u (bayRec b) (report p i l tag r) position := by
          by_cases hdef : definite
          · exact rccPosition_held hdef (hkept.resolve_left (not_not_intro hdef))
          · exact rccPosition_indefinite (fun e => hdef (.inl e)) (fun e => hdef (.inr e)) hknown
        rw [hsame]
        rfl
      · refine ⟨fun hruns => rccPosition_idle (s := placed u (bayRec b) (report p i l tag r) position) hdef hnew hruns,
          fun hruns hnone => rccPosition_first (s := placed u (bayRec b) (report p i l tag r) position) hdef hnew hruns hnone,
          fun hruns hsome hopened => ?_, fun hruns hsome hclosed => ?_⟩
        · subst hopened
          exact rccPosition_opening (s := placed u (bayRec b) (report p i l tag r) .opened) hnew hruns hsome
        · subst hclosed
          exact rccPosition_closing (s := placed u (bayRec b) (report p i l tag r) .closed) hnew hruns hsome
    case tested =>
      subst hn
      refine ⟨_, hgoes rfl, honly rfl, fun hdwell => ?_, fun hwait hcalm => ?_⟩
      · obtain ⟨hopen, houtcome, hnext⟩ := closed_inDwell (u := u) (m := report p i l tag r) hpresent (by rw [htag]; rfl)
          (hxs.trans hspring.symm) hstill htest (hxl.trans hlocal.symm) (hxi.trans hinterlock.symm)
          (by rw [hposition]; exact hx) (hposition.trans hclosed) hdwell
        exact ⟨hopen, houtcome j hcur, hnext⟩
      · exact closed_inRetestWait (u := u) (m := report p i l tag r) hpresent (by rw [htag]; rfl)
          (hxs.trans hspring.symm) hstill htest (hxl.trans hlocal.symm) (hxi.trans hinterlock.symm)
          (by rw [hposition]; exact hx) (hposition.trans hclosed) hwait hcalm
    case inputs =>
      subst hn
      intro k q cancels waits locked said withdrawn changes
      have hecho : (report p i l tag r).echoTag = 0 := by rw [htag]; rfl
      have hplace := hx.trans hposition.symm
      have hsaid {a e : Bool} {f : Factor} {z : Byte} {t : State}
          (h : (inputs u (bayRec b) (report p i l tag r) a e).mgu.part ≠ .bypass → Unarmed (inputs u (bayRec b) (report p i l tag r) a e) →
            t.fac f = ((inputs u (bayRec b) (report p i l tag r) a e).fac f).take (recMask (bayRec b)) (detail [z])
              (inputs u (bayRec b) (report p i l tag r) a e).stamp) : said t f z :=
        fun harmed => h hpart harmed
      have hinputs (a e : Bool) := inputs_local u b (report p i l tag r) a e
      have huntested (a e : Bool) : (inputs u (bayRec b) (report p i l tag r) a e).underTest ≠ some b := htest
      refine ⟨fun hoff hon hxi hxs => ?localOn, fun hon hoff hxi hxs => ?localOff, fun hoff hon hxl hxs => ?interlockOn,
        fun hon hoff hxl hxs => ?interlockOff, fun hon hoff hxl hxi => ?springOff, fun hoff hon hxl hxi => ?springOn⟩
      case localOn =>
        have hmoved := moved_local (s := u) (m := report p i l tag r) hplace (hxs.trans hspring.symm)
          (by rw [hlocal, hon]; exact fun e => nomatch hoff.symm.trans e) (hxi.trans hinterlock.symm)
        rw [hlocal, hinterlock, hon, localChanged_on] at hmoved
        obtain ⟨happly, hann, hbay⟩ := input_taken (u := u) hpresent hecho hmoved (hinputs true interlock) (barred_near (huntested _ _))
          (barred_onlySlots (huntested _ _)) (by decide) (by decide) hstill
        have hslot := localOn_slot (huntested true interlock) hsettled (by rw [inputs_status])
        have htold := barred_told (r := .localMode) (which := fun _ => true) (code := .localMode) (huntested true interlock) hsettled
        rw [← hann.slot] at hslot htold
        refine ⟨_, hgoes happly, honly happly, hbay.only, hbay.hnc, hbay.fru, hbay.pru, hsaid hann.said, hslot.1, hslot.2.1,
          hslot.2.2, ⟨fun cmd hcmd _ => htold.gone cmd hcmd rfl, fun hkept => htold.kept fun cmd hcmd => absurd trivial (hkept cmd hcmd)⟩,
          fun hnot => ?_, fun hc hnew => ?_⟩
        · exact hann.rcl.trans (barred_still (r := .localMode) (which := fun _ => true) (code := .localMode) (huntested true interlock) hnot).1
        · exact hann.rcl.trans (barred_cancelled (r := .localMode) (which := fun _ => true) (code := .localMode)
            (huntested true interlock) hc hnew).1
      case localOff =>
        have hmoved := moved_local (s := u) (m := report p i l tag r) hplace (hxs.trans hspring.symm)
          (by rw [hlocal, hoff]; exact fun e => nomatch hon.symm.trans e) (hxi.trans hinterlock.symm)
        rw [hlocal, hinterlock, hoff, localChanged_off] at hmoved
        obtain ⟨hnear, hslots⟩ := removed_leaves (inputs u (bayRec b) (report p i l tag r) false interlock) b .localMode
        obtain ⟨happly, hann, hbay⟩ := input_taken (u := u) hpresent hecho hmoved (hinputs false interlock) hnear hslots
          (by decide) (by decide) hstill
        obtain ⟨hrcl, hslot⟩ := removeReason_eq (inputs u (bayRec b) (report p i l tag r) false interlock) b .localMode
        exact ⟨_, hgoes happly, honly happly, hbay.only, hbay.hnc, hbay.fru, hbay.pru, hsaid hann.said, hann.slot.trans hslot,
          hann.rcl.trans hrcl⟩
      case interlockOn =>
        have hmoved := moved_interlock (s := u) (m := report p i l tag r) hplace (hxs.trans hspring.symm) (hxl.trans hlocal.symm)
          (by rw [hinterlock, hon]; exact fun e => nomatch hoff.symm.trans e)
        rw [hlocal, hinterlock, hon, interlockChanged_on] at hmoved
        obtain ⟨happly, hann, hbay⟩ := input_taken (u := u) hpresent hecho hmoved (hinputs local_ true) (barred_near (huntested _ _))
          (barred_onlySlots (huntested _ _)) (by decide) (by decide) hstill
        have htold := barred_told (r := .interlock) (which := Command.isClose) (code := .interlock) (huntested local_ true) hsettled
        rw [← hann.slot] at htold
        refine ⟨_, hgoes happly, honly happly, hbay.only, hbay.hnc, hbay.fru, hbay.pru, ?_⟩
        beta_reduce
        intro keep
        refine ⟨hsaid hann.said, ⟨fun cmd hcmd hgone => htold.gone cmd hcmd (isClose_iff.mpr hgone),
            fun hkept => htold.kept fun cmd hcmd => isClose_eq_false (hkept cmd hcmd)⟩, fun hnot => ?_, fun hc hnew => ?_⟩
        · obtain ⟨hrcl, hslot⟩ := barred_still (r := .interlock) (which := Command.isClose) (code := .interlock)
            (huntested local_ true) hnot
          refine ⟨hann.rcl.trans hrcl, ?_⟩
          rw [hann.slot, hslot]
          refine ⟨rfl, rfl, ?_⟩
          unfold eased' eased
          dsimp only [Pending.set]
          rw [stays_close, stays_close, stays_close, stays_close]
          rfl
        · obtain ⟨hrcl, y, hreclose, hslot⟩ := barred_cancelled (r := .interlock) (which := Command.isClose) (code := .interlock)
            (huntested local_ true) hc hnew
          refine ⟨hann.rcl.trans hrcl, ?_⟩
          rw [hann.slot, hslot]
          unfold eased' eased
          dsimp only [Pending.set]
          rw [stays_close, stays_close, stays_close, hreclose]
          refine ⟨?_, rfl, ?_⟩ <;> split <;> simp_all
      case interlockOff =>
        have hmoved := moved_interlock (s := u) (m := report p i l tag r) hplace (hxs.trans hspring.symm) (hxl.trans hlocal.symm)
          (by rw [hinterlock, hoff]; exact fun e => nomatch hon.symm.trans e)
        rw [hlocal, hinterlock, hoff, interlockChanged_off] at hmoved
        obtain ⟨hnear, hslots⟩ := removed_leaves (inputs u (bayRec b) (report p i l tag r) local_ false) b .interlock
        obtain ⟨happly, hann, hbay⟩ := input_taken (u := u) hpresent hecho hmoved (hinputs local_ false) hnear hslots
          (by decide) (by decide) hstill
        obtain ⟨hrcl, hslot⟩ := removeReason_eq (inputs u (bayRec b) (report p i l tag r) local_ false) b .interlock
        exact ⟨_, hgoes happly, honly happly, hbay.only, hbay.hnc, hbay.fru, hbay.pru, hsaid hann.said, hann.slot.trans hslot,
          hann.rcl.trans hrcl⟩
      case springOff =>
        have hmoved := moved_spring (s := u) (m := report p i l tag r) (hxl.trans hlocal.symm) (hxi.trans hinterlock.symm) rfl hplace
          (by rw [hspring, hoff]; exact fun e => nomatch hon.symm.trans e)
        rw [hspring, hoff, if_neg Bool.false_ne_true] at hmoved
        obtain ⟨happly, hbay⟩ := quiet_taken (u := u) hpresent hecho hmoved (springStored_local u b (report p i l tag r) false)
          (.refl _ _) (onlySlots_of_mask rfl) hstill
        exact ⟨_, hgoes happly, honly happly, hbay.only, hbay.hnc, hbay.fru, hbay.pru, rfl, rfl⟩
      case springOn =>
        have hmoved := moved_spring (s := u) (m := report p i l tag r) (hxl.trans hlocal.symm) (hxi.trans hinterlock.symm) rfl hplace
          (by rw [hspring, hon]; exact fun e => nomatch hoff.symm.trans e)
        rw [hspring, hon, if_pos rfl] at hmoved
        obtain ⟨happly, hbay⟩ := quiet_taken (u := u) hpresent hecho hmoved (springStored_local u b (report p i l tag r) true)
          ((near_steps _ _).springCharged (.refl _ _)) (onlySlots_of_mask (State.springCharged_maskS _ b)) hstill
        have hstatus := springStored_status u b (report p i l tag r) true
        have hxl' : ((springStored u (bayRec b) (report p i l tag r) true).status (bayRec b)).localMode = local_ := by
          rw [hstatus]
          exact hxl
        have hxi' : ((springStored u (bayRec b) (report p i l tag r) true).status (bayRec b)).interlock = interlock := by
          rw [hstatus]
          exact hxi
        refine ⟨_, hgoes happly, honly happly, hbay.only, hbay.hnc, hbay.fru, hbay.pru, ?_⟩
        beta_reduce
        intro blocked enough
        refine ⟨fun hnot => ?_, fun hw hshots => ?_, fun hw hshots hstand => ?_, fun hw hshots hstand hblocked => ?_,
          fun hw hshots hstand hnone hk => ?_, fun hw hshots hstand hnone hk => ?_⟩
        · rw [springCharged_idle (s := springStored u (bayRec b) (report p i l tag r) true) hnot]
          exact ⟨rfl, rfl⟩
        · exact springCharged_exhausted (s := springStored u (bayRec b) (report p i l tag r) true) hw (not_lt.mp hshots)
        · exact springCharged_standdown (s := springStored u (bayRec b) (report p i l tag r) true) hw hshots hstand
        · exact springCharged_blocked (s := springStored u (bayRec b) (report p i l tag r) true) hw hshots hstand
            (by rw [hxl', hxi']; exact hblocked)
        · have hpend := hsettled.resolve_left (not_not_intro hk)
          obtain ⟨hclear, hclear'⟩ := not_or.mp hnone
          obtain ⟨hrcl, hslot⟩ := springCharged_issued (s := springStored u (bayRec b) (report p i l tag r) true) hw hshots hstand
            (hxl'.trans (Bool.not_eq_true _ ▸ hclear)) (hxi'.trans (Bool.not_eq_true _ ▸ hclear')) hk hpend
          exact ⟨hrcl, hslot.trans (issued_of_nothing hpend)⟩
        · obtain ⟨hclear, hclear'⟩ := not_or.mp hnone
          exact springCharged_waits (s := springStored u (bayRec b) (report p i l tag r) true) hw hshots hstand
            (hxl'.trans (Bool.not_eq_true _ ▸ hclear)) (hxi'.trans (Bool.not_eq_true _ ▸ hclear')) hk
    case withdrawn =>
      subst hn
      intro failed
      refine ⟨fun hoff hon hxi hhunt hpend => ⟨_, hgoes rfl, ?_⟩, fun hoff hon hxl hhunt hpend => ⟨_, hgoes rfl, ?_⟩⟩
      · obtain ⟨houtcome, hnext⟩ := local_withdrawsOpen (u := u) (m := report p i l tag r) hpresent (by rw [htag]; rfl)
          (hxs.trans hspring.symm) hstill htest (hx.trans hposition.symm) hbusy hoff (hlocal.trans hon) (hxi.trans hinterlock.symm)
          hhunt hpend
        exact ⟨houtcome j hcur, hnext⟩
      · obtain ⟨houtcome, hnext, hopen⟩ := interlock_withdrawsClose (u := u) (m := report p i l tag r) hpresent (by rw [htag]; rfl)
          (hxs.trans hspring.symm) hstill htest (hx.trans hposition.symm) hbusy hoff (hinterlock.trans hon) (hxl.trans hlocal.symm)
          hhunt hpend
        exact ⟨⟨houtcome j hcur, hnext⟩, hopen⟩

end Sys2Proof.Proofs.BaystatUse

/-! The continuity context of a source after a SAMPLE frame (R3 to R6): what the frame is to it, by its state and the step from its last
position. -/

namespace Sys2Proof.Proofs.SampleContexts
open Sys2Proof.Machine Sys2Proof.Safety Sys2Proof.Proofs.FrameArrival Sys2Proof.Proofs.SourceStart

/-! ### The frame at the MEU (R3) -/

section frame
variable {s : State} {src : Byte} {payload : List Byte}

theorem findSource_eq_none {q : SourceEntry → Bool} (h : ∀ e, (s.src e).inUse = true → q (s.src e) = false) :
    s.findSource q = none := by
  unfold State.findSource
  rw [List.find?_eq_none]
  intro e _
  rw [Bool.not_eq_true, Bool.and_eq_false_imp]
  exact h e

theorem meuSample_unsourced (h : s.findSource (fun x => x.addr == some src.toNat) = none) : s.meuSample src payload = s := by
  unfold State.meuSample
  rw [h]

theorem meuSample_unparsed (h : parseSample payload = none) : s.meuSample src payload = s := by
  unfold State.meuSample
  rw [h]
  split
  · contradiction
  · rfl

theorem parseSample_beyond {cycle number : Byte} (h : 31 < number.toNat) (quality a1 a0 b1 b0 c1 c0 n1 n0 : Byte) :
    parseSample [cycle, number, quality, a1, a0, b1, b0, c1, c0, n1, n0] = none :=
  dif_neg (by omega)

theorem meuSample_given {e : SrcIx} {p : Pos} {good : Bool} {q : Quad}
    (hfind : s.findSource (fun x => x.addr == some src.toNat) = some e) (hparse : parseSample payload = some (p, good, q)) :
    s.meuSample src payload = s.giveSample e p good q := by
  unfold State.meuSample
  rw [hfind, hparse]

end frame

/-! ### Appended samples (R6, R10, R11) -/

/-- The context once a sample is appended to its windows, with its tag where the sample is an evaluation point. -/
def appended (c : SourceCtx) (x : Sample) : SourceCtx :=
  { c with window := pushLimited Config.windowLength c.window x, lastTag := if isPoint x.pos then some x.pos else c.lastTag }

theorem newest_snoc {α : Type} (n : Nat) (l : List α) (x : α) :
    newest (n + 1) (newest (n + 1) l ++ [x]) = newest (n + 1) (l ++ [x]) := by
  unfold newest
  rw [← List.drop_append_of_le_length (Nat.sub_le _ _), List.drop_drop]
  congr 1
  simp only [List.length_drop, List.length_append, List.length_singleton]
  omega

theorem foldl_appended {l : List Sample} (hl : l ≠ []) (c : SourceCtx) : l.foldl appended c = { c with
    window := newest Config.windowLength (c.window ++ l),
    lastTag := (((l.map Sample.pos).filter isPoint).getLast?).or c.lastTag } := by
  induction l using List.reverseRecOn with
  | nil => exact absurd rfl hl
  | append_singleton l x ih =>
    have htag : (((l ++ [x]).map Sample.pos).filter isPoint).getLast?.or c.lastTag =
        if isPoint x.pos then some x.pos else (((l.map Sample.pos).filter isPoint).getLast?).or c.lastTag := by
      rw [List.map_append, List.filter_append]
      cases h : isPoint x.pos <;> simp [h]
    rw [List.foldl_append, htag]
    by_cases hnil : l = []
    · subst hnil
      rfl
    · rw [ih hnil, ← List.append_assoc]
      exact congrArg (fun w => ({ c with window := w, lastTag := _ } : SourceCtx)) (newest_snoc 31 (c.window ++ l) x)

section append
variable {s : State} {e : SrcIx}

theorem ctx_of_put {t : State} {y : SourceCtx} (h : t.meu.ctx = s.meu.ctx.put e y) (f : SrcIx) :
    t.ctx f = if e = f then y else s.ctx f :=
  (congrArg (fun v => Vector.look v f) h).trans (Vector.look_put _ _ _ _)

theorem put_self (s : State) (e : SrcIx) : s.meu.ctx.put e (s.ctx e) = s.meu.ctx := StatusRules.put_look_self _ _

theorem put_put {α : Type} {n : Nat} (v : Vector α n) (i : Fin n) (x y : α) : (v.put i x).put i y = v.put i y :=
  Vector.ext_look fun j => by
    rw [Vector.look_put, Vector.look_put, Vector.look_put]
    split <;> rfl

theorem evaluateAt_ctx (s : State) (e : SrcIx) (x : Sample) : (s.evaluateAt e x).meu.ctx =
    s.meu.ctx.put e { s.ctx e with lastTag := if isPoint x.pos then some x.pos else (s.ctx e).lastTag } := by
  cases hpoint : isPoint x.pos with
  | false =>
    have hkeeps : s.evaluateAt e x = s := if_neg (by rw [hpoint]; exact Bool.false_ne_true)
    rw [hkeeps]
    exact (put_self s e).symm
  | true =>
    have hP := closedN_ctx (s.meu.ctx.put e { s.ctx e with lastTag := some x.pos })
    unfold State.evaluateAt
    rw [if_pos hpoint]
    dsimp only
    split
    · exact hP.takeBayEval rfl
    · exact hP.takeBusEval rfl
    · rfl

/-- The waiting instants of every bay that a bus sample completes are completed (R16). -/
@[irreducible] def busSampled (s : State) (x : Sample) : State := forEach allBays (fun b u => u.completeWaiting x b) s

theorem afterAppend_bay {b : Bay} {x : Sample} (h : (s.src e).role = some (.bay b)) :
    s.afterAppend e x = (s.formInstant b x).evaluateAt e x := by
  unfold State.afterAppend
  rw [h]

theorem afterAppend_bus {x : Sample} (h : (s.src e).role = some .bus) : s.afterAppend e x = (busSampled s x).evaluateAt e x := by
  unfold State.afterAppend busSampled
  rw [h]

theorem afterAppend_unused {x : Sample} (h : (s.src e).role = none) : s.afterAppend e x = s.evaluateAt e x := by
  unfold State.afterAppend
  rw [h]

theorem busSampled_keeps {P : State → Prop} {x : Sample} (hP : ∀ b u, P u → P (u.completeWaiting x b)) (hs : P s) :
    P (busSampled s x) := by
  unfold busSampled
  exact forEach_inv P _ hP _ _ hs

theorem afterAppend_ctx (s : State) (e : SrcIx) (x : Sample) : (s.afterAppend e x).meu.ctx =
    s.meu.ctx.put e { s.ctx e with lastTag := if isPoint x.pos then some x.pos else (s.ctx e).lastTag } := by
  have hP := closedN_ctx s.meu.ctx
  have hformed {t : State} (ht : t.meu.ctx = s.meu.ctx) : (t.evaluateAt e x).meu.ctx =
      s.meu.ctx.put e { s.ctx e with lastTag := if isPoint x.pos then some x.pos else (s.ctx e).lastTag } := by
    have hself : t.ctx e = s.ctx e := congrArg (fun v => Vector.look v e) ht
    rw [evaluateAt_ctx, ht, hself]
  cases hrole : (s.src e).role with
  | none =>
    rw [afterAppend_unused hrole]
    exact hformed rfl
  | some r =>
    cases r with
    | bay b =>
      rw [afterAppend_bay hrole]
      exact hformed (hP.formInstant rfl)
    | bus =>
      rw [afterAppend_bus hrole]
      exact hformed (busSampled_keeps (P := fun u => u.meu.ctx = s.meu.ctx) (fun _ _ hu => hP.completeWaiting hu) rfl)

theorem appendSample_ctx (s : State) (e : SrcIx) (x : Sample) :
    (s.appendSample e x).meu.ctx = s.meu.ctx.put e (appended (s.ctx e) x) := by
  have hself : (s.setCtx e { s.ctx e with window := pushLimited Config.windowLength (s.ctx e).window x }).ctx e =
      { s.ctx e with window := pushLimited Config.windowLength (s.ctx e).window x } := Vector.look_put_same _ _ _
  unfold State.appendSample
  dsimp only
  rw [afterAppend_ctx, hself]
  exact put_put _ _ _ _

theorem appendSamples_ctx (l : List Sample) (s : State) (e : SrcIx) :
    (forEach l (fun y v => v.appendSample e y) s).meu.ctx = s.meu.ctx.put e (l.foldl appended (s.ctx e)) := by
  induction l generalizing s with
  | nil => exact (put_self s e).symm
  | cons x l ih =>
    have hself : (s.appendSample e x).ctx e = appended (s.ctx e) x :=
      (ctx_of_put (appendSample_ctx s e x) e).trans (if_pos rfl)
    refine (ih (s.appendSample e x)).trans ?_
    rw [hself, appendSample_ctx, put_put]
    rfl

end append

/-! ### A FILLING or STALE source (R5) -/

section refill
variable {s : State} {e : SrcIx} {last p : Pos} {good : Bool} {q : Quad}

/-- A sample that is measured, and not held for another. -/
def measured (p : Pos) (q : Quad) : Sample := { pos := p, held := false, vals := q }

theorem refill_again (h : p = last) : s.refill e last p good q = s := if_pos h

theorem refill_bad (h : p ≠ last) :
    s.refill e last p false q = s.setCtx e { s.ctx e with lastPos := some p, fill := 0, window := [] } :=
  (if_neg h).trans (if_pos rfl)

variable (h : p ≠ last)
include h

theorem refill_restarts (hstep : p - last ≠ 1) :
    s.refill e last p true q = s.setCtx e { s.ctx e with lastPos := some p, fill := 1, window := [measured p q] } := by
  unfold State.refill
  rw [if_neg h, if_neg (by decide)]
  simp only [hstep, decide_false, Bool.false_eq_true, if_false]
  rfl

theorem refill_next (hstep : p - last = 1) (hfill : (s.ctx e).fill < 31) (hlen : (s.ctx e).window.length < 32) :
    s.refill e last p true q = s.setCtx e { s.ctx e with
      lastPos := some p, fill := (s.ctx e).fill + 1, window := (s.ctx e).window ++ [measured p q] } := by
  have hroom : pushLimited Config.windowLength (s.ctx e).window (measured p q) = (s.ctx e).window ++ [measured p q] := by
    unfold pushLimited newest
    rw [List.length_append, List.length_singleton, Nat.sub_eq_zero_of_le hlen]
    rfl
  unfold State.refill
  rw [if_neg h, if_neg (by decide)]
  simp only [hstep, decide_true, if_true]
  rw [if_neg (by show ¬ 32 ≤ (s.ctx e).fill + 1; omega), ← hroom]
  rfl

/-- The context of a source that the sample makes VALID. -/
def filled (c : SourceCtx) (p : Pos) (q : Quad) : SourceCtx :=
  { c with state := .valid, lastPos := some p, missing := 0, fill := Config.windowLength,
           window := pushLimited Config.windowLength c.window (measured p q), silence := some Config.sourceSilenceMs }

theorem refill_completes (hstep : p - last = 1) (hfill : (s.ctx e).fill = 31) :
    s.refill e last p true q =
      ((s.setCtx e (filled (s.ctx e) p q)).enterValid e (s.src e).role).afterAppend e (measured p q) := by
  unfold State.refill
  rw [if_neg h, if_neg (by decide)]
  simp only [hstep, decide_true, if_true]
  rw [if_pos (by show 32 ≤ (s.ctx e).fill + 1; omega)]
  rfl

theorem refill_completes_ctx (hstep : p - last = 1) (hfill : (s.ctx e).fill = 31) :
    (s.refill e last p true q).meu.ctx = s.meu.ctx.put e { filled (s.ctx e) p q with
      lastTag := if isPoint p then some p else (s.ctx e).lastTag } := by
  have hentered : ((s.setCtx e (filled (s.ctx e) p q)).enterValid e (s.src e).role).meu.ctx =
      s.meu.ctx.put e (filled (s.ctx e) p q) := (closedN_ctx _).enterValid rfl
  have hself := (ctx_of_put hentered e).trans (if_pos rfl)
  rw [refill_completes h hstep hfill, afterAppend_ctx, hself, hentered, put_put]
  rfl

end refill

/-! ### A VALID source (R6) -/

section valid
variable {s : State} {e : SrcIx} {last p : Pos} {good : Bool} {q : Quad}

theorem validFrame_ignored (h : (p - last).val = 0 ∨ 4096 ≤ (p - last).val) : s.validFrame e last p good q = s := if_pos h

/-- The missing samples counted with the frame. -/
def run (s : State) (e : SrcIx) (last p : Pos) (good : Bool) : Nat :=
  (s.ctx e).missing + ((p - last).val - 1) + (if good then 0 else 1)

/-- The samples that a frame stands for: those skipped, held, and its own. -/
def stands (s : State) (e : SrcIx) (last p : Pos) (good : Bool) (q : Quad) : List Sample :=
  heldSamples last (lastVals (s.ctx e).window q) ((p - last).val - 1) ++
    [if good then measured p q else { measured p q with held := true, vals := lastVals (s.ctx e).window q }]

/-- The context before the samples are appended. -/
def counted (s : State) (e : SrcIx) (last p : Pos) (good : Bool) : SourceCtx :=
  { s.ctx e with lastPos := some p, missing := if good then 0 else run s e last p good, silence := some Config.sourceSilenceMs }

variable (hlow : 1 ≤ (p - last).val) (hhigh : (p - last).val < 4096)
include hlow hhigh

theorem validFrame_stale (hrun : 3 ≤ run s e last p good) : s.validFrame e last p good q =
    (s.setCtx e { s.ctx e with state := .stale, lastPos := some p, missing := 0, silence := none,
                               fill := if good then 1 else 0, window := if good then [measured p q] else [] }).becomeStale e .missing :=
  (if_neg (by omega)).trans (if_pos hrun)

theorem validFrame_stale_ctx (hrun : 3 ≤ run s e last p good) : (s.validFrame e last p good q).meu.ctx =
    s.meu.ctx.put e { s.ctx e with state := .stale, lastPos := some p, missing := 0, silence := none,
                                   fill := if good then 1 else 0, window := if good then [measured p q] else [] } := by
  rw [validFrame_stale hlow hhigh hrun]
  exact (closedN_ctx _).becomeStale rfl

theorem validFrame_appends (hrun : run s e last p good < 3) : s.validFrame e last p good q =
    forEach (stands s e last p good q) (fun y v => v.appendSample e y) (s.setCtx e (counted s e last p good)) :=
  (if_neg (by omega)).trans (if_neg hrun.not_ge)

theorem validFrame_appends_ctx (hrun : run s e last p good < 3) : (s.validFrame e last p good q).meu.ctx =
    s.meu.ctx.put e { counted s e last p good with
      window := newest Config.windowLength ((s.ctx e).window ++ stands s e last p good q),
      lastTag := ((((stands s e last p good q).map Sample.pos).filter isPoint).getLast?).or (s.ctx e).lastTag } := by
  have hself : (s.setCtx e (counted s e last p good)).ctx e = counted s e last p good := Vector.look_put_same _ _ _
  have hne : stands s e last p good q ≠ [] := by simp [stands]
  rw [validFrame_appends hlow hhigh hrun, appendSamples_ctx, hself, foldl_appended hne]
  exact put_put _ _ _ _

end valid

theorem lastVals_snoc (l : List Sample) (y : Sample) (q : Quad) : lastVals (l ++ [y]) q = y.vals := by
  simp [lastVals]

/-- The sample that a frame of a source with values stands for itself. -/
def own (p : Pos) (good : Bool) (q vals : Quad) : Sample := if good then measured p q else { pos := p, held := true, vals := vals }

section stood
variable {s : State} {e : SrcIx} {last p : Pos} {good : Bool} {q : Quad}

theorem stands_next (hstep : (p - last).val = 1) (q : Quad) :
    stands s e last p good q = [own p good q (lastVals (s.ctx e).window q)] := by
  unfold stands
  rw [hstep]
  rfl

/-- A frame after 0, 1 or 2 skipped samples. -/
theorem stands_eq {l : List Sample} {y : Sample} (hw : (s.ctx e).window = l ++ [y]) (hlow : 1 ≤ (p - last).val)
    (hstep : (p - last).val ≤ 3) : stands s e last p good q =
      (if (p - last).val = 1 then []
        else if (p - last).val = 2 then [({ pos := last + 1, held := true, vals := y.vals } : Sample)]
        else [{ pos := last + 1, held := true, vals := y.vals }, { pos := last + 2, held := true, vals := y.vals }]) ++
      [own p good q y.vals] := by
  unfold stands
  rw [hw, lastVals_snoc]
  obtain h | h | h : (p - last).val = 1 ∨ (p - last).val = 2 ∨ (p - last).val = 3 := by omega
  all_goals rw [h]; rfl

end stood

end Sys2Proof.Proofs.SampleContexts

/-! The windows that a sample hands to the evaluation (R11): what forming its instant leaves as it was (R15, R16). -/

namespace Sys2Proof.Proofs.SampleEvaluations
open Sys2Proof.Machine Sys2Proof.Safety Sys2Proof.Proofs.SourceStart Sys2Proof.Proofs.Silences Sys2Proof.Proofs.SampleContexts

/-- Only the measurement has moved, and in it neither the table nor the latest bus evaluation. -/
structure Formed (s t : State) : Prop where
  apart : apart t = apart s
  table : t.meu.table = s.meu.table
  latestBus : t.meu.latestBus = s.meu.latestBus
  ctx : t.meu.ctx = s.meu.ctx

section formed
variable {s t u : State} {b : Bay}

theorem Formed.refl (s : State) : Formed s s := ⟨rfl, rfl, rfl, rfl⟩

theorem Formed.trans (h : Formed s t) (k : Formed t u) : Formed s u :=
  ⟨k.apart.trans h.apart, k.table.trans h.table, k.latestBus.trans h.latestBus, k.ctx.trans h.ctx⟩

theorem formed_setWaiting (s : State) (b : Bay) (l : List Instant) : Formed s (s.setWaiting b l) := ⟨rfl, rfl, rfl, rfl⟩

theorem formed_complete (s : State) (b : Bay) (i : Instant) : Formed s (s.complete b i) := by
  have hmeu := State.maskE_meu (complete_maskE s b i)
  exact ⟨complete_apart s b i, (congrArg Meu.table hmeu :), (congrArg Meu.latestBus hmeu :), (congrArg Meu.ctx hmeu :)⟩

theorem formed_completeAll (l : List Instant) (s : State) (b : Bay) : Formed s (forEach l (fun j u => u.complete b j) s) :=
  forEach_inv (Formed s) _ (fun j _ hu => hu.trans (formed_complete _ b j)) _ _ (.refl s)

theorem formed_flushWaiting (s : State) (b : Bay) : Formed s (s.flushWaiting b) :=
  (formed_setWaiting s b []).trans (formed_completeAll _ _ b)

theorem formed_completeNow (s : State) (b : Bay) (i : Instant) : Formed s (s.completeNow b i) :=
  (formed_flushWaiting s b).trans (formed_complete _ b i)

theorem formed_wait (s : State) (b : Bay) (i : Instant) : Formed s (s.wait b i) := by
  unfold State.wait
  dsimp only
  split
  · split
    · exact (formed_setWaiting s b _).trans (formed_complete _ b _)
    · exact .refl s
  · exact formed_setWaiting s b _

theorem formed_formInstant (s : State) (b : Bay) (x : Sample) : Formed s (s.formInstant b x) := by
  unfold State.formInstant
  dsimp only
  split
  · exact formed_completeNow s b _
  · split
    · exact formed_completeNow s b _
    · exact formed_wait s b _

theorem formed_completeWaiting (s : State) (b : Bay) (x : Sample) : Formed s (s.completeWaiting x b) := by
  unfold State.completeWaiting
  dsimp only
  split
  · exact .refl s
  · exact ((formed_setWaiting s b _).trans (formed_completeAll _ _ b)).trans (formed_complete _ b _)

theorem formed_busSampled (s : State) (x : Sample) : Formed s (busSampled s x) :=
  busSampled_keeps (fun b u hu => hu.trans (formed_completeWaiting u b x)) (.refl s)

/-- A state that differs in the measurement and by occurrences alone. -/
theorem onlyEvents_of_apart (h : apart t = apart s) : OnlyEvents { s with meu := t.meu } t := by
  have hmask : t.maskE = ({ s with meu := t.meu } : State).maskE := congrArg (fun v : State => { v with meu := t.meu }) h
  exact onlyEvents_of_mask hmask

end formed

/-! ### The evaluation point (R11) -/

section point
variable {s t : State} {e : SrcIx} {p last : Pos} {q : Quad}

/-- The state at the evaluation: the sample stands in the windows, and its tag in the context. -/
def tagged (t : State) (e : SrcIx) (p : Pos) : State := t.setCtx e { t.ctx e with lastTag := some p }

/-- What the evaluation finds. -/
structure AtPoint (s : State) (e : SrcIx) (c : SourceCtx) (m : State) : Prop where
  only : OnlyEvents { s with meu := m.meu } m
  table : m.meu.table = s.meu.table
  latestBus : m.meu.latestBus = s.meu.latestBus
  ctx : m.ctx e = c

/-- A sample appended to the windows of a VALID source. -/
def windowed (s : State) (e : SrcIx) (c : SourceCtx) (x : Sample) : State :=
  s.setCtx e { c with window := pushLimited Config.windowLength c.window x }

section tagged
variable {c : SourceCtx} {x : Sample} (h : Formed (windowed s e c x) t)
include h

theorem formed_ctx : t.ctx e = { c with window := pushLimited Config.windowLength c.window x } :=
  (congrArg (fun v => Vector.look v e) h.ctx).trans (Vector.look_put_same _ _ _)

theorem formed_role : (t.src e).role = (s.src e).role := congrArg (fun v => (Vector.look v e).role) h.table

theorem tagged_atPoint :
    AtPoint s e { c with window := pushLimited Config.windowLength c.window x, lastTag := some x.pos } (tagged t e x.pos) := by
  have hapart : apart (tagged t e x.pos) = apart s := h.apart
  refine ⟨onlyEvents_of_apart hapart, h.table, h.latestBus, ?_⟩
  have hset : (tagged t e x.pos).ctx e = { t.ctx e with lastTag := some x.pos } := Vector.look_put_same _ _ _
  rw [hset, formed_ctx h]

end tagged

theorem evaluateAt_bay {b : Bay} {x : Sample} (hpoint : isPoint x.pos = true) (hrole : (t.src e).role = some (.bay b)) :
    t.evaluateAt e x = (tagged t e x.pos).takeBayEval b (bayEvalOf x.pos (t.ctx e).window) := by
  unfold State.evaluateAt
  rw [if_pos hpoint, hrole]
  rfl

theorem evaluateAt_bus {x : Sample} (hpoint : isPoint x.pos = true) (hrole : (t.src e).role = some .bus) :
    t.evaluateAt e x = (tagged t e x.pos).takeBusEval (busEvalOf x.pos (t.ctx e).window) := by
  unfold State.evaluateAt
  rw [if_pos hpoint, hrole]
  rfl

/-- The context at the evaluation. -/
theorem measured_atPoint {t : State} (h : Formed (windowed (s.setCtx e (counted s e last p true)) e (counted s e last p true) (measured p q)) t) :
    AtPoint s e { counted s e last p true with window := pushLimited Config.windowLength (s.ctx e).window (measured p q),
                                               lastTag := some p } (tagged t e p) :=
  have hpoints := tagged_atPoint h
  ⟨hpoints.only, hpoints.table, hpoints.latestBus, hpoints.ctx⟩

variable (hpoint : isPoint p = true) (hlow : (p - last).val = 1) (hrun : run s e last p true < 3)
include hlow hrun

/-- A measured sample with no sample skipped. -/
theorem validFrame_measured : s.validFrame e last p true q =
    (windowed (s.setCtx e (counted s e last p true)) e (counted s e last p true) (measured p q)).afterAppend e (measured p q) := by
  have hself : (s.setCtx e (counted s e last p true)).ctx e = counted s e last p true := Vector.look_put_same _ _ _
  rw [validFrame_appends hlow.ge (by omega) hrun, stands_next hlow]
  show (s.setCtx e (counted s e last p true)).appendSample e (measured p q) = _
  unfold State.appendSample windowed
  rw [hself]

include hpoint

theorem measured_bay {b : Bay} (hrole : (s.src e).role = some (.bay b)) : ∃ m, s.validFrame e last p true q =
      m.takeBayEval b (bayEvalOf p (pushLimited Config.windowLength (s.ctx e).window (measured p q))) ∧
    AtPoint s e { counted s e last p true with window := pushLimited Config.windowLength (s.ctx e).window (measured p q),
                                               lastTag := some p } m := by
  have hformed := formed_formInstant (windowed (s.setCtx e (counted s e last p true)) e (counted s e last p true) (measured p q)) b
    (measured p q)
  have hafter := afterAppend_bay (s := windowed (s.setCtx e (counted s e last p true)) e (counted s e last p true) (measured p q))
    (x := measured p q) hrole
  rw [validFrame_measured hlow hrun, hafter]
  generalize State.formInstant _ b (measured p q) = t at hformed
  rw [evaluateAt_bay (x := measured p q) hpoint ((formed_role hformed).trans hrole), formed_ctx hformed]
  exact ⟨_, rfl, measured_atPoint hformed⟩

theorem measured_bus (hrole : (s.src e).role = some .bus) : ∃ m, s.validFrame e last p true q =
      m.takeBusEval (busEvalOf p (pushLimited Config.windowLength (s.ctx e).window (measured p q))) ∧
    AtPoint s e { counted s e last p true with window := pushLimited Config.windowLength (s.ctx e).window (measured p q),
                                               lastTag := some p } m := by
  have hformed := formed_busSampled (windowed (s.setCtx e (counted s e last p true)) e (counted s e last p true) (measured p q))
    (measured p q)
  have hafter := afterAppend_bus (s := windowed (s.setCtx e (counted s e last p true)) e (counted s e last p true) (measured p q))
    (x := measured p q) hrole
  rw [validFrame_measured hlow hrun, hafter]
  generalize busSampled _ (measured p q) = t at hformed
  rw [evaluateAt_bus (x := measured p q) hpoint ((formed_role hformed).trans hrole), formed_ctx hformed]
  exact ⟨_, rfl, measured_atPoint hformed⟩

end point

end Sys2Proof.Proofs.SampleEvaluations

/-! A SAMPLE frame for all nodes, by the state of its source (R3 to R6, R11). -/

namespace Sys2Proof.Proofs.SampleFrames
open Sys2Proof.Machine Sys2Proof.Safety Sys2Proof.Proofs.FrameArrival Sys2Proof.Proofs.SampleContexts Sys2Proof.Proofs.SampleEvaluations

section given
variable {s : State} {e : SrcIx} {p last : Pos} {good : Bool} {q : Quad} {y : SourceCtx}

/-- The frame has given the source its new context, and no other. -/
structure Given (s : State) (e : SrcIx) (y : SourceCtx) (t : State) : Prop where
  only : OnlyMeasures s t
  others : ∀ f, f ≠ e → t.ctx f = s.ctx f
  self : t.ctx e = y

theorem given_of_put (h : (s.giveSample e p good q).meu.ctx = s.meu.ctx.put e y) : Given s e y (s.giveSample e p good q) where
  only := onlyMeasures_of_mask (State.giveSample_maskM _ e p good q)
  others f hf := (ctx_of_put h f).trans (if_neg (Ne.symm hf))
  self := (ctx_of_put h e).trans (if_pos rfl)

theorem giveSample_refill (hlast : (s.ctx e).lastPos = some last) (h : (s.ctx e).state = .filling ∨ (s.ctx e).state = .stale) :
    s.giveSample e p good q = s.refill e last p good q := by
  unfold State.giveSample
  dsimp only
  rcases h with h | h <;> rw [h, hlast]

theorem giveSample_valid (hlast : (s.ctx e).lastPos = some last) (h : (s.ctx e).state = .valid) :
    s.giveSample e p good q = s.validFrame e last p good q := by
  unfold State.giveSample
  dsimp only
  rw [h, hlast]

theorem given_absent (h : (s.ctx e).state = .absent) : Given s e { s.ctx e with
    state := .filling, lastPos := some p, fill := if good then 1 else 0, window := if good then [measured p q] else [] }
    (s.giveSample e p good q) :=
  given_of_put (by rw [giveSample_of_absent h]; rfl)

/-! R5. -/

section filling
variable (hlast : (s.ctx e).lastPos = some last) (h : (s.ctx e).state = .filling ∨ (s.ctx e).state = .stale) (hne : p ≠ last)
include hlast h hne

theorem given_bad : Given s e { s.ctx e with lastPos := some p, fill := 0, window := [] } (s.giveSample e p false q) :=
  given_of_put (by rw [giveSample_refill hlast h, refill_bad hne]; rfl)

theorem given_restarts (hstep : p - last ≠ 1) :
    Given s e { s.ctx e with lastPos := some p, fill := 1, window := [measured p q] } (s.giveSample e p true q) :=
  given_of_put (by rw [giveSample_refill hlast h, refill_restarts hne hstep]; rfl)

theorem given_next (hstep : p - last = 1) (hfill : (s.ctx e).fill < 31) (hlen : (s.ctx e).window.length < 32) :
    Given s e { s.ctx e with
      lastPos := some p, fill := (s.ctx e).fill + 1, window := (s.ctx e).window ++ [measured p q] } (s.giveSample e p true q) :=
  given_of_put (by rw [giveSample_refill hlast h, refill_next hne hstep hfill hlen]; rfl)

theorem given_completes (hstep : p - last = 1) (hfill : (s.ctx e).fill = 31) (hlen : (s.ctx e).window.length = 31) :
    Given s e { s.ctx e with
      state := .valid, lastPos := some p, missing := 0, fill := 32, silence := some 2, window := (s.ctx e).window ++ [measured p q],
      lastTag := if isPoint p then some p else (s.ctx e).lastTag } (s.giveSample e p true q) := by
  have hwindow : pushLimited Config.windowLength (s.ctx e).window (measured p q) = (s.ctx e).window ++ [measured p q] := by
    unfold pushLimited newest
    rw [List.length_append, List.length_singleton, hlen]
    rfl
  rw [← hwindow]
  exact given_of_put (by rw [giveSample_refill hlast h, refill_completes_ctx hne hstep hfill]; rfl)

end filling

/-! R6. -/

section valid
variable (hlast : (s.ctx e).lastPos = some last) (h : (s.ctx e).state = .valid)
  (hlow : 1 ≤ (p - last).val) (hhigh : (p - last).val < 4096)
include hlast h hlow hhigh

theorem given_stale (hrun : 3 ≤ run s e last p good) : Given s e { s.ctx e with
    state := .stale, lastPos := some p, missing := 0, silence := none, fill := if good then 1 else 0,
    window := if good then [measured p q] else [] } (s.giveSample e p good q) :=
  given_of_put (by rw [giveSample_valid hlast h, validFrame_stale_ctx hlow hhigh hrun])

theorem given_stands {l : List Sample} (hl : stands s e last p good q = l) (hrun : run s e last p good < 3) :
    Given s e { counted s e last p good with
        window := ((s.ctx e).window ++ l).drop ((s.ctx e).window.length + l.length - 32),
        lastTag := (((l.map Sample.pos).filter isPoint).getLast?).or (s.ctx e).lastTag }
      (s.giveSample e p good q) := by
  have hwindow : newest Config.windowLength ((s.ctx e).window ++ l) =
      ((s.ctx e).window ++ l).drop ((s.ctx e).window.length + l.length - 32) := by
    unfold newest
    rw [List.length_append]
  rw [← hwindow, ← hl]
  exact given_of_put (by rw [giveSample_valid hlast h, validFrame_appends_ctx hlow hhigh hrun])

end valid

/-- A frame that follows the last one. -/
theorem given_follows (hlast : (s.ctx e).lastPos = some last) (h : (s.ctx e).state = .valid) (hstep : (p - last).val = 1)
    (hrun : run s e last p good < 3) : Given s e { counted s e last p good with
      window := ((s.ctx e).window ++ [own p good q (lastVals (s.ctx e).window q)]).drop ((s.ctx e).window.length - 31),
      lastTag := if isPoint p then some p else (s.ctx e).lastTag } (s.giveSample e p good q) := by
  have hgiven := given_stands (q := q) hlast h hstep.ge (by omega) (stands_next hstep q) hrun
  have hpos (v : Quad) : (own p good q v).pos = p := by
    unfold own
    cases good <;> rfl
  have htag (v : Quad) : ((([own p good q v].map Sample.pos).filter isPoint).getLast?).or (s.ctx e).lastTag =
      if isPoint p then some p else (s.ctx e).lastTag := by
    rw [List.map_singleton, hpos]
    cases hp : isPoint p <;> simp [hp]
  rwa [htag] at hgiven

end given

end Sys2Proof.Proofs.SampleFrames

/-! The TRIP request at a slot (R53): issued, merged into the OPEN in flight, or in place of the command in flight, with every waiting
CLOSE withdrawn. -/

namespace Sys2Proof.Proofs.TripRequests
open Sys2Proof.Machine Sys2Proof.Safety Sys2Proof.Proofs.Occurrences Sys2Proof.Proofs.HuntBays Sys2Proof.Proofs.HuntEnd
  Sys2Proof.Proofs.SlotRules Sys2Proof.Proofs.ControlSteps Sys2Proof.Proofs.RecloseTimers Sys2Proof.Proofs.TripFailures
  Sys2Proof.Proofs.BayActs

/-! ### The request taken -/

section taken
variable {s : State} {n : Rec} {f : Flight}

theorem takeTrip_merged (h : (s.slot n).state = .inFlight f) (ho : f.cmd = .opening) :
    s.takeTrip n = s.setSlot n { s.slot n with state := .inFlight { f with tripAttached := true } } := by
  unfold State.takeTrip
  dsimp only
  rw [h]
  exact if_pos (beq_iff_eq.mpr ho)

theorem takeTrip_mergedEchoed (h : (s.slot n).state = .echoed f) (ho : f.cmd = .opening) :
    s.takeTrip n = s.setSlot n { s.slot n with state := .echoed { f with tripAttached := true } } := by
  unfold State.takeTrip
  dsimp only
  rw [h]
  exact if_pos (beq_iff_eq.mpr ho)

theorem takeTrip_superseded (h : (s.slot n).state.flight = some f) (ho : f.cmd ≠ .opening) :
    s.takeTrip n = (s.supersede n).tellFlightSuperseded n f := by
  unfold State.takeTrip
  dsimp only
  cases hstate : (s.slot n).state with
  | free => rw [hstate] at h; cases h
  | inFlight g =>
    obtain rfl : g = f := by rw [hstate] at h; exact Option.some.inj h
    exact if_neg (mt beq_iff_eq.mp ho)
  | echoed g =>
    obtain rfl : g = f := by rw [hstate] at h; exact Option.some.inj h
    exact if_neg (mt beq_iff_eq.mp ho)

/-- The four ways of a TRIP request. -/
theorem takeTrip_cases (s : State) (n : Rec) : (s.takeTrip n = s.issueCmd n .trip .opening) ∨
    (∃ x, x ≠ .free ∧ s.takeTrip n = s.setSlot n { s.slot n with state := x }) ∨
    ∃ f, (s.slot n).state.flight = some f ∧ f.cmd ≠ .opening ∧ s.takeTrip n = (s.supersede n).tellFlightSuperseded n f := by
  cases hstate : (s.slot n).state with
  | free => exact .inl (State.takeTrip_free hstate)
  | inFlight f =>
    by_cases ho : f.cmd = .opening
    · exact .inr (.inl ⟨.inFlight { f with tripAttached := true }, nofun, takeTrip_merged hstate ho⟩)
    · exact .inr (.inr ⟨f, rfl, ho, takeTrip_superseded (by rw [hstate]; rfl) ho⟩)
  | echoed f =>
    by_cases ho : f.cmd = .opening
    · exact .inr (.inl ⟨.echoed { f with tripAttached := true }, nofun, takeTrip_mergedEchoed hstate ho⟩)
    · exact .inr (.inr ⟨f, rfl, ho, takeTrip_superseded (by rw [hstate]; rfl) ho⟩)

/-- The slot with a TRIP-class OPEN in the place of its command. -/
theorem supersede_slot (s : State) (n : Rec) : (s.supersede n).slot n = (s.slot n).issued .trip .opening s.mono 120 := by
  unfold State.supersede
  dsimp only
  rw [State.issueCmd_slot]
  have hslot : ((s.setSlot n { s.slot n with state := .free }).setOutPlace n none).slot n = { s.slot n with state := .free } :=
    State.setSlot_slot _ _ _
  rw [hslot]
  rfl

end taken

/-! ### The waiting CLOSEs withdrawn -/

section swept
variable {s : State} {n : Rec} {b : Bay} {c : ReqClass}

/-- The withdrawal of a CLOSE that waits in one class. -/
def swept (n : Rec) (s : State) (c : ReqClass) : State :=
  match (s.slot n).pend.get c with
  | some cmd => if cmd.isClose then (s.setPend n c none).tellSuperseded n c cmd else s
  | none => s

theorem tripRequest_swept (s : State) (n : Rec) : s.tripRequest n =
    swept n (swept n (swept n (swept n (s.takeTrip n) .hunt) .reclose) .management) .annunciate := rfl

theorem swept_kept (h : (s.slot n).pend.get c ≠ some .closing) : swept n s c = s := by
  unfold swept
  split
  · next cmd hget =>
    refine if_neg fun hclose => h ?_
    rw [hget, isClose_iff.mp hclose]
  · rfl

theorem swept_withdrawn (h : (s.slot n).pend.get c = some .closing) :
    swept n s c = (s.setPend n c none).tellSuperseded n c .closing := by
  unfold swept
  rw [h]
  rfl

/-- What the RCC is told of its superseded CLOSE (R75). -/
theorem rccTold_superseded (s : State) (b : Bay) : s.rccTold b .superseded = s ∨
    ∃ x, s.rccTold b .superseded = s.setRcl b x := by
  unfold State.rccTold
  dsimp only
  split
  · contradiction
  · exact .inr ⟨_, rfl⟩
  · contradiction
  · exact .inr ⟨_, rfl⟩
  · exact .inl rfl

theorem tellSuperseded_hunt (s : State) (n : Rec) (cmd : Command) :
    s.tellSuperseded n .hunt cmd = s.hncTold n cmd .superseded false := rfl

theorem tellSuperseded_reclose (s : State) (b : Bay) (cmd : Command) :
    s.tellSuperseded (bayRec b) .reclose cmd = s.rccTold b .superseded := by
  unfold State.tellSuperseded
  rw [recBay_bayRec]

end swept

/-! ### What a TRIP request keeps -/

/-- Kept by what a TRIP request and the hunt's abort are made of. -/
structure TripSteps (P : State → Prop) : Prop extends HuntSteps P where
  slot (s : State) (n : Rec) (x : Slot) : P s → P (s.setSlot n x)
  out (s : State) (n : Rec) (f : Option Frame) : P s → P (s.setOutPlace n f)
  rcl (s : State) (b : Bay) (x : RecloseRecord) : P s → P (s.setRcl b x)

section keeps
variable {P : State → Prop} (hP : TripSteps P) {s : State}
include hP

theorem TripSteps.issueCmd (n : Rec) (c : ReqClass) (cmd : Command) (hs : P s) : P (s.issueCmd n c cmd) := by
  have hissued : P _ := hP.out _ n (some (s.bayCmdFrame n cmd (nextTag (s.slot n).lastTag)))
    (hP.slot s n ((s.slot n).issued c cmd s.mono (commandMs cmd)) hs)
  unfold State.issueCmd
  dsimp only
  split
  · unfold State.rccIssued
    exact ite_both (hP.rcl _ _ _ hissued) hissued
  · exact hissued

theorem TripSteps.rccTold (b : Bay) (hs : P s) : P (s.rccTold b .superseded) := by
  rcases rccTold_superseded s b with h | ⟨x, h⟩
  · rwa [h]
  · rw [h]
    exact hP.rcl s b x hs

theorem TripSteps.tellFlight (n : Rec) (f : Flight) (hs : P s) : P (s.tellFlightSuperseded n f) := by
  unfold State.tellFlightSuperseded
  split
  · exact hP.hncTold hs
  · exact hP.rccTold _ hs
  · exact hP.slot s n _ hs
  · exact ite_both hs (hP.slot s n _ hs)
  · exact hs

theorem TripSteps.takeTrip (n : Rec) (hs : P s) : P (s.takeTrip n) := by
  rcases takeTrip_cases s n with h | ⟨x, -, h⟩ | ⟨f, -, -, h⟩
  · rw [h]
    exact hP.issueCmd n _ _ hs
  · rw [h]
    exact hP.slot s n _ hs
  · rw [h]
    exact hP.tellFlight n f (hP.issueCmd n .trip .opening (hP.out _ n none (hP.slot s n { s.slot n with state := .free } hs)))

theorem TripSteps.tripRequest (n : Rec) (hs : P s) : P (s.tripRequest n) := by
  refine withdraw_keeps (fun t c ht => hP.slot t n _ ht) (fun t c cmd _ ht => ?_) (hP.takeTrip n hs)
  unfold State.tellSuperseded
  split
  · exact hP.hncTold ht
  · exact hP.rccTold _ ht
  · exact hP.slot t n _ ht
  · exact ht

theorem TripSteps.abortHuntWith (r : HuntResult) (hs : P s) : P (s.abortHuntWith r) := by
  have hcut : P ((s.setHnc { s.hnc with timer := none, pendingResult := some r }).removeHunt s.underTest) :=
    hP.removeHunt (hP.hnc s _ hs)
  have haborts : P (((s.setHnc { s.hnc with timer := none, pendingResult := some r }).removeHunt s.underTest).huntTo .aborting none) :=
    hP.hnc _ _ hcut
  unfold State.abortHuntWith
  dsimp only
  generalize (s.setHnc { s.hnc with timer := none, pendingResult := some r }).removeHunt s.underTest = t at hcut haborts
  split
  · exact ite_both (hP.endPending (hP.slot t _ _ hcut)) haborts
  · exact hP.placeHuntClose haborts
  · exact hP.placeHuntClose haborts
  · exact ite_both (hP.placeHuntClose (hP.hnc _ _ haborts)) haborts
  · exact ite_both (hP.placeHuntClose (hP.hnc _ _ haborts)) haborts
  · exact hP.endPending hcut

theorem TripSteps.hncTrip (hs : P s) : P s.hncTrip := by
  unfold State.hncTrip State.abortRunning
  exact ite_both (hP.abortHuntWith _ hs) hs

end keeps

/-- The fault records but for their capture marks. -/
theorem tripSteps_ledger (l : Recorder) : TripSteps (fun t => HuntFinds.ledger t = l) where
  toEndSteps := endSteps_ledger l
  request s k cmd _ _ hs := (HuntFinds.ledger_of_maskS (withRequest_maskS s k cmd)).trans hs
  slot _ _ _ hs := hs
  out _ _ _ hs := hs
  rcl _ _ _ hs := hs

/-- No channel is ARMED, and the record of TRIP stands. -/
theorem tripSteps_fac (r : FactorRecord) : TripSteps (fun t => Unarmed t ∧ t.fac fTrip = r) where
  hnc _ _ hs := hs
  lock s b c hs :=
    have h := ((near_steps (bayRec b) s).lock c (.refl _ s)).calm hs.1
    ⟨h.1, (h.2 fTrip (by decide) (by decide)).trans hs.2⟩
  stack _ _ hs := hs
  unhunt s b hs :=
    have h := ((near_steps (bayRec b) s).removeReason .hunt (.refl _ s)).calm hs.1
    ⟨h.1, (h.2 fTrip (by decide) (by decide)).trans hs.2⟩
  occur s f m d hf hs := ⟨occur_unarmed hs.1 f m d, (occur_fac_other hs.1 hf m d).trans hs.2⟩
  request s k cmd _ _ hs :=
    have h := ((near_steps k s).issueNext ((near_steps k s).setPend .hunt (some cmd) (.refl _ s))).calm hs.1
    ⟨h.1, (h.2 fTrip (by decide) (by decide)).trans hs.2⟩
  slot _ _ _ hs := hs
  out _ _ _ hs := hs
  rcl _ _ _ hs := hs

/-! ### The command in flight after a TRIP request -/

section held
variable {s : State} {n : Rec} {x : SlotState} {l : Nat}

/-- The slot has its command in flight, issued last. -/
structure Held (n : Rec) (x : SlotState) (l : Nat) (t : State) : Prop where
  state : (t.slot n).state = x
  lastTag : (t.slot n).lastTag = l

theorem Held.of_slot {t : State} (h : Held n x l s) (hslot : t.slot n = s.slot n) : Held n x l t := ⟨hslot ▸ h.state, hslot ▸ h.lastTag⟩

theorem Held.put {k : Rec} {y : Slot} (h : Held n x l s) (hstate : y.state = (s.slot k).state) (htag : y.lastTag = (s.slot k).lastTag) :
    Held n x l (s.setSlot k y) := by
  by_cases hk : k = n
  · subst hk
    exact ⟨(congrArg Slot.state (State.setSlot_slot s k y)).trans (hstate.trans h.state),
      (congrArg Slot.lastTag (State.setSlot_slot s k y)).trans (htag.trans h.lastTag)⟩
  · exact h.of_slot ((s.setSlot_at k y).slots n (Ne.symm hk))

theorem huntSteps_held (hx : x ≠ .free) : HuntSteps (Held n x l) where
  hnc _ _ hs := hs.of_slot rfl
  lock s b c hs :=
    have hmove := lock_lampMove (by rw [hs.state]; exact hx) b c
    ⟨hmove.state.trans hs.state, hmove.lastTag.trans hs.lastTag⟩
  stack _ _ hs := hs.of_slot rfl
  unhunt s b hs := hs.of_slot (unhunt_slot s n b)
  occur s f m d _ hs := hs.of_slot (occur_slot s n f m d)
  request s k cmd _ _ hs := by
    by_cases hk : k = n
    · subst hk
      rw [withRequest_of_busy (by rw [hs.state]; exact hx)]
      exact hs.put rfl rfl
    · exact hs.of_slot ((withRequest_at s k cmd).slots n (Ne.symm hk))

theorem Held.rccTold {b : Bay} (h : Held n x l s) : Held n x l (s.rccTold b .superseded) := by
  rcases rccTold_superseded s b with heq | ⟨y, heq⟩ <;> rw [heq]
  · exact h
  · exact h.of_slot rfl

theorem Held.tellFlight {f : Flight} (hx : x ≠ .free) (h : Held n x l s) : Held n x l (s.tellFlightSuperseded n f) := by
  unfold State.tellFlightSuperseded
  split
  · exact (huntSteps_held hx).hncTold h
  · exact h.rccTold
  · exact h.put rfl rfl
  · exact ite_both (P := Held n x l) h (h.put rfl rfl)
  · exact h

/-- What stands in the slot once the request is taken stands there when the CLOSEs are withdrawn. -/
theorem Held.tripRequest (hx : x ≠ .free) (h : Held n x l (s.takeTrip n)) : Held n x l (s.tripRequest n) := by
  refine withdraw_keeps (P := Held n x l) (fun t c ht => ht.put rfl rfl) (fun t c cmd _ ht => ?_) h
  unfold State.tellSuperseded
  split
  · exact (huntSteps_held hx).hncTold ht
  · exact ht.rccTold
  · exact ht.put rfl rfl
  · exact ht

theorem tripRequest_merged {f : Flight} (h : (s.slot n).state = .inFlight f) (ho : f.cmd = .opening) :
    ((s.tripRequest n).slot n).state = .inFlight { f with tripAttached := true } := by
  have hslot := State.setSlot_slot s n { s.slot n with state := .inFlight { f with tripAttached := true } }
  rw [← takeTrip_merged h ho] at hslot
  exact (Held.tripRequest (x := .inFlight { f with tripAttached := true }) nofun ⟨by rw [hslot], rfl⟩).state

theorem tripRequest_mergedEchoed {f : Flight} (h : (s.slot n).state = .echoed f) (ho : f.cmd = .opening) :
    ((s.tripRequest n).slot n).state = .echoed { f with tripAttached := true } := by
  have hslot := State.setSlot_slot s n { s.slot n with state := .echoed { f with tripAttached := true } }
  rw [← takeTrip_mergedEchoed h ho] at hslot
  exact (Held.tripRequest (x := .echoed { f with tripAttached := true }) nofun ⟨by rw [hslot], rfl⟩).state

theorem tripRequest_supersedes {f : Flight} (h : (s.slot n).state.flight = some f) (ho : f.cmd ≠ .opening) :
    Held n ((s.slot n).issued .trip .opening s.mono 120).state (nextTag (s.slot n).lastTag) (s.tripRequest n) := by
  refine Held.tripRequest nofun ?_
  rw [takeTrip_superseded h ho]
  exact Held.tellFlight nofun ⟨by rw [supersede_slot], by rw [supersede_slot]; rfl⟩

end held

end Sys2Proof.Proofs.TripRequests

/-! What a TRIP request is to the hunt (R53, R136, R139, R143): the HUNT CLOSE that it supersedes, and what it leaves where the hunt has
none there. -/

namespace Sys2Proof.Proofs.TripAtHunt
open Sys2Proof.Machine Sys2Proof.Safety Sys2Proof.Proofs.Occurrences Sys2Proof.Proofs.HuntFrames Sys2Proof.Proofs.HuntBays
  Sys2Proof.Proofs.HuntEnd Sys2Proof.Proofs.HuntAbort Sys2Proof.Proofs.HuntTimes Sys2Proof.Proofs.HuntFinds
  Sys2Proof.Proofs.SlotRules Sys2Proof.Proofs.ControlSteps Sys2Proof.Proofs.RecloseTimers Sys2Proof.Proofs.CommandEnds
  Sys2Proof.Proofs.TripFailures Sys2Proof.Proofs.HuntAnswers Sys2Proof.Proofs.WithdrawnRequests Sys2Proof.Proofs.TripRequests

/-! ### The blocks that a TRIP request leaves as they were -/

section mask
variable {s : State} {n : Rec}

theorem tellSuperseded_maskH (s : State) (n : Rec) (c : ReqClass) (cmd : Command) : (s.tellSuperseded n c cmd).maskH = s.maskH := by
  unfold State.tellSuperseded
  split
  · exact State.hncTold_maskH _ _ _ _ _
  · exact State.maskH_of_maskS (State.rccTold_maskS _ _ _)
  · rfl
  · rfl

theorem tellFlight_maskH (s : State) (n : Rec) (f : Flight) : (s.tellFlightSuperseded n f).maskH = s.maskH := by
  unfold State.tellFlightSuperseded
  split
  · exact State.hncTold_maskH _ _ _ _ _
  · exact State.maskH_of_maskS (State.rccTold_maskS _ _ _)
  · rfl
  · exact ite_both (P := fun t : State => t.maskH = s.maskH) rfl rfl
  · rfl

theorem supersede_maskS (s : State) (n : Rec) : (s.supersede n).maskS = s.maskS :=
  (issueCmd_released (s := (s.setSlot n { s.slot n with state := .free }).setOutPlace n none) (n := n) (c := .trip) .opening
    (by decide)).mask

theorem takeTrip_maskH (s : State) (n : Rec) : (s.takeTrip n).maskH = s.maskH := by
  rcases takeTrip_cases s n with h | ⟨x, -, h⟩ | ⟨f, -, -, h⟩ <;> rw [h]
  · exact State.maskH_of_maskS (issueCmd_released (s := s) (n := n) (c := .trip) .opening (by decide)).mask
  · rfl
  · exact (tellFlight_maskH _ n f).trans (State.maskH_of_maskS (supersede_maskS s n))

theorem tripRequest_maskH (s : State) (n : Rec) : (s.tripRequest n).maskH = s.maskH :=
  withdraw_keeps (P := fun t => t.maskH = s.maskH) (fun _ _ h => h) (fun _ c cmd _ h => (tellSuperseded_maskH _ n c cmd).trans h)
    (takeTrip_maskH s n)

end mask

/-! ### The requests that wait at the slot -/

section pend
variable {s : State} {b : Bay} {c : ReqClass} {cmd : Command}

theorem setResult_pend (s : State) (n : Rec) (r : LastResult) : ((s.setResult n r).slot n).pend = (s.slot n).pend := by
  rw [State.setResult, State.setSlot_slot]

/-- A requester other than the hunt is told with no effect on what waits at the slot. -/
theorem tellSuperseded_pend (hc : c ≠ .hunt) : ((s.tellSuperseded (bayRec b) c cmd).slot (bayRec b)).pend = (s.slot (bayRec b)).pend ∧
    (s.tellSuperseded (bayRec b) c cmd).hnc = s.hnc := by
  cases c with
  | hunt => exact absurd rfl hc
  | reclose =>
    rw [tellSuperseded_reclose]
    rcases rccTold_superseded s b with h | ⟨x, h⟩ <;> rw [h] <;> exact ⟨rfl, rfl⟩
  | management => exact ⟨setResult_pend s (bayRec b) _, rfl⟩
  | _ => exact ⟨rfl, rfl⟩

theorem pend_set_get (p : Pending) (c d : ReqClass) (v : Option Command) :
    (p.set c v).get d = if c = d then v else p.get d := by
  cases c <;> cases d <;> rfl

/-- The withdrawal at a class other than HUNT leaves no CLOSE there, and the other classes and the hunt as they were. -/
theorem swept_pend (hc : c ≠ .hunt) : ((swept (bayRec b) s c).slot (bayRec b)).pend.get c ≠ some .closing ∧
    (∀ d, d ≠ c → ((swept (bayRec b) s c).slot (bayRec b)).pend.get d = (s.slot (bayRec b)).pend.get d) ∧
    (swept (bayRec b) s c).hnc = s.hnc := by
  by_cases hclose : (s.slot (bayRec b)).pend.get c = some .closing
  · obtain ⟨hpend, hhnc⟩ := tellSuperseded_pend (s := s.setPend (bayRec b) c none) (b := b) (cmd := .closing) hc
    have hslot := setPend_slot s (bayRec b) c none
    rw [swept_withdrawn hclose, hpend, hhnc, hslot]
    refine ⟨?_, fun d hd => ?_, rfl⟩
    · show ((s.slot (bayRec b)).pend.set c none).get c ≠ _
      rw [pend_set_get, if_pos rfl]
      nofun
    · exact (pend_set_get _ c d none).trans (if_neg (Ne.symm hd))
  · rw [swept_kept hclose]
    exact ⟨hclose, fun _ _ => rfl, rfl⟩

theorem endSteps_unhunted (n : Rec) : EndSteps (fun t => (t.slot n).pend.hunt = none) where
  hnc _ _ hs := hs
  lock _ _ _ hs := (huntBlind_noRequest n).lock hs
  stack _ _ hs := hs
  unhunt _ _ hs := (huntBlind_noRequest n).removeReason hs
  occur s f m d _ hs := by rwa [occur_slot]

/-- The superseded CLOSE brings no new request of the hunt. -/
theorem closeSuperseded_keeps {P : State → Prop} (hP : EndSteps P) (hs : P s) : P (s.huntCloseTold .superseded) := by
  unfold State.huntCloseTold
  split
  · contradiction
  · contradiction
  · exact hP.hnc s _ hs
  · contradiction
  · contradiction
  · exact hP.hnc s _ hs
  · contradiction
  · contradiction
  · exact hP.abortRestoreFailed hs
  · exact hs

theorem hncTold_close_keeps {P : State → Prop} (hP : EndSteps P) {n : Rec} {v : Bool} (hs : P s) :
    P (s.hncTold n .closing .superseded v) := by
  unfold State.hncTold
  split
  · exact ite_both (P := P) (closeSuperseded_keeps hP hs) hs
  · exact hs

theorem swept_hunt (s : State) (n : Rec) : ((swept n s .hunt).slot n).pend.hunt ≠ some .closing := by
  by_cases hclose : (s.slot n).pend.hunt = some .closing
  · have hout : ((s.setPend n .hunt none).slot n).pend.hunt = none := by
      rw [setPend_slot]
      rfl
    rw [swept_withdrawn (c := .hunt) hclose, tellSuperseded_hunt, hncTold_close_keeps (endSteps_unhunted n) hout]
    nofun
  · rw [swept_kept (c := .hunt) hclose]
    exact hclose

/-- What the withdrawal at the classes after HUNT leaves. -/
theorem sweptRest (t : State) (b : Bay) (w : State)
    (hw : w = swept (bayRec b) (swept (bayRec b) (swept (bayRec b) t .reclose) .management) .annunciate) :
    (w.slot (bayRec b)).pend.hunt = (t.slot (bayRec b)).pend.hunt ∧ (w.slot (bayRec b)).pend.reclose ≠ some .closing ∧
    (w.slot (bayRec b)).pend.management ≠ some .closing ∧ w.hnc = t.hnc := by
  obtain ⟨hreclose, hothers, hhnc⟩ := swept_pend (s := t) (b := b) (c := .reclose) (by decide)
  generalize swept (bayRec b) t .reclose = t₂ at hw hreclose hothers hhnc
  obtain ⟨hmanagement, hothers', hhnc'⟩ := swept_pend (s := t₂) (b := b) (c := .management) (by decide)
  generalize swept (bayRec b) t₂ .management = t₃ at hw hmanagement hothers' hhnc'
  obtain ⟨-, hothers'', hhnc''⟩ := swept_pend (s := t₃) (b := b) (c := .annunciate) (by decide)
  subst hw
  refine ⟨?_, ?_, ?_, hhnc''.trans (hhnc'.trans hhnc)⟩
  · exact (hothers'' .hunt (by decide)).trans ((hothers' .hunt (by decide)).trans (hothers .hunt (by decide)))
  · exact fun e => hreclose (((hothers'' .reclose (by decide)).trans (hothers' .reclose (by decide))).symm.trans e)
  · exact fun e => hmanagement ((hothers'' .management (by decide)).symm.trans e)

/-- No CLOSE waits after a TRIP request (R53). -/
theorem tripRequest_noClose (s : State) (b : Bay) : ((s.tripRequest (bayRec b)).slot (bayRec b)).pend.hunt ≠ some .closing ∧
    ((s.tripRequest (bayRec b)).slot (bayRec b)).pend.reclose ≠ some .closing ∧
    ((s.tripRequest (bayRec b)).slot (bayRec b)).pend.management ≠ some .closing := by
  obtain ⟨hhunt, hreclose, hmanagement, -⟩ := sweptRest _ b _ (tripRequest_swept s (bayRec b))
  exact ⟨fun e => swept_hunt _ _ (hhunt.symm.trans e), hreclose, hmanagement⟩

theorem tripRequest_hnc (s : State) (b : Bay) :
    (s.tripRequest (bayRec b)).hnc = (swept (bayRec b) (s.takeTrip (bayRec b)) .hunt).hnc :=
  (sweptRest _ b _ (tripRequest_swept s (bayRec b))).2.2.2

end pend

/-! ### A hunt that has no command there -/

section deaf
variable {s t : State} {b : Bay}

/-- The hunt takes no answer from the bay. -/
def Deaf (b : Bay) (s : State) : Prop := s.underTest ≠ some b ∨ s.hnc.state.awaits = false

theorem Deaf.of_hnc (h : Deaf b s) (hhnc : t.hnc = s.hnc) : Deaf b t := by
  have htested : t.underTest = s.underTest := underTest_of_hnc (by rw [hhnc]) (by rw [hhnc])
  unfold Deaf
  rw [htested, hhnc]
  exact h

theorem Deaf.hncTold (h : Deaf b s) (cmd : Command) (o : HuntTold) (v : Bool) : s.hncTold (bayRec b) cmd o v = s := by
  rcases h with hother | hawaits
  · exact hncTold_other hother
  · unfold State.hncTold
    split
    · exact if_neg (by rw [hawaits]; simp)
    · rfl

/-- The bay's slot, its out-place and its reclose record have changed, and nothing else of the controllers. -/
structure Beside (n : Rec) (s t : State) : Prop where
  hnc : t.hnc = s.hnc
  fru : t.fru = s.fru
  evu : t.evu = s.evu
  only : OnlyAt n s t

theorem Beside.refl (n : Rec) (s : State) : Beside n s s := ⟨rfl, rfl, rfl, .refl n s⟩

theorem Beside.trans {n : Rec} {u : State} (h : Beside n s t) (k : Beside n t u) : Beside n s u :=
  ⟨k.hnc.trans h.hnc, k.fru.trans h.fru, k.evu.trans h.evu, h.only.trans k.only⟩

theorem beside_setSlot (s : State) (n : Rec) (x : Slot) : Beside n s (s.setSlot n x) := ⟨rfl, rfl, rfl, s.setSlot_at n x⟩

theorem beside_issueTrip (s : State) (n : Rec) : Beside n s (s.issueCmd n .trip .opening) := by
  have hissued := issueCmd_released (s := s) (n := n) (c := .trip) .opening (by decide)
  have hevu : (s.issueCmd n .trip .opening).evu = s.evu := by
    unfold State.issueCmd
    rfl
  exact ⟨State.maskS_hnc hissued.mask, State.maskS_fru hissued.mask, hevu, hissued.only⟩

theorem beside_supersede (s : State) (n : Rec) : Beside n s (s.supersede n) := by
  have hout : Beside n s ((s.setSlot n { s.slot n with state := .free }).setOutPlace n none) :=
    ⟨rfl, rfl, rfl, (s.setSlot_at n _).trans (State.setOutPlace_at _ n none)⟩
  exact hout.trans (beside_issueTrip _ n)

theorem beside_rccTold (s : State) (b : Bay) : Beside (bayRec b) s (s.rccTold b .superseded) := by
  rcases rccTold_superseded s b with h | ⟨x, h⟩ <;> rw [h]
  · exact .refl _ s
  · exact ⟨rfl, rfl, rfl, s.setRcl_at b x⟩

theorem beside_tellSuperseded (s : State) (b : Bay) {c : ReqClass} {cmd : Command} (h : c = .hunt → Deaf b s) :
    Beside (bayRec b) s (s.tellSuperseded (bayRec b) c cmd) := by
  cases c with
  | hunt =>
    rw [tellSuperseded_hunt, (h rfl).hncTold]
    exact .refl _ s
  | reclose =>
    rw [tellSuperseded_reclose]
    exact beside_rccTold s b
  | management => exact beside_setSlot s _ _
  | _ => exact .refl _ s

/-- The requester of the superseded command, where the hunt takes no answer for it, and what waits of the hunt. -/
theorem beside_tellFlight (s : State) (b : Bay) (f : Flight)
    (h : f.cls = .hunt → s.hncTold (bayRec b) f.cmd .superseded true = s) :
    Beside (bayRec b) s (s.tellFlightSuperseded (bayRec b) f) ∧
    ((s.tellFlightSuperseded (bayRec b) f).slot (bayRec b)).pend.hunt = (s.slot (bayRec b)).pend.hunt := by
  unfold State.tellFlightSuperseded
  split
  · next hcls =>
    rw [h hcls]
    exact ⟨.refl _ s, rfl⟩
  · next d _ hd =>
    obtain rfl : d = b := bayRec_inj (bayRec_of_recBay hd)
    refine ⟨beside_rccTold s d, ?_⟩
    rcases rccTold_superseded s d with heq | ⟨x, heq⟩
    · rw [heq]
    · rw [heq]
      rfl
  · exact ⟨beside_setSlot s _ _, congrArg Pending.hunt (setResult_pend s (bayRec b) _)⟩
  · split
    · exact ⟨.refl _ s, rfl⟩
    · exact ⟨beside_setSlot s _ _, by rw [setPend_slot]; rfl⟩
  · exact ⟨.refl _ s, rfl⟩

/-- The request taken, where the hunt takes no answer for the command in flight. -/
theorem beside_takeTrip (s : State) (b : Bay)
    (h : ∀ f, (s.slot (bayRec b)).state.flight = some f → f.cls = .hunt →
      (s.supersede (bayRec b)).hncTold (bayRec b) f.cmd .superseded true = s.supersede (bayRec b)) :
    Beside (bayRec b) s (s.takeTrip (bayRec b)) ∧
    ((s.takeTrip (bayRec b)).slot (bayRec b)).pend.hunt = (s.slot (bayRec b)).pend.hunt := by
  rcases takeTrip_cases s (bayRec b) with heq | ⟨x, -, heq⟩ | ⟨f, hf, -, heq⟩ <;> rw [heq]
  · refine ⟨beside_issueTrip s _, ?_⟩
    rw [State.issueCmd_slot]
    rfl
  · exact ⟨beside_setSlot s _ _, by rw [State.setSlot_slot]⟩
  · obtain ⟨hbeside, hpend⟩ := beside_tellFlight (s.supersede (bayRec b)) b f (h f hf)
    refine ⟨(beside_supersede s _).trans hbeside, hpend.trans ?_⟩
    rw [supersede_slot]
    rfl

theorem Deaf.tripRequest (h : Deaf b s) : Beside (bayRec b) s (s.tripRequest (bayRec b)) := by
  have hdeaf {t : State} (ht : Beside (bayRec b) s t) : Deaf b t := h.of_hnc ht.hnc
  have htaken := (beside_takeTrip s b fun f _ _ => (hdeaf (beside_supersede s _)).hncTold _ _ _).1
  refine withdraw_keeps (P := Beside (bayRec b) s) (fun t c ht => ht.trans (beside_setSlot t _ _))
    (fun t c cmd _ ht => ht.trans (beside_tellSuperseded t b fun _ => hdeaf ht)) htaken

end deaf

/-! ### The hunt's own CLOSE superseded (R136, R139, R143) -/

section own
variable {s : State} {b : Bay}

/-- The hunt has its CLOSE at the slot: waiting there, or in flight with none waiting. -/
def OwnClose (s : State) (b : Bay) : Prop := (s.slot (bayRec b)).pend.hunt = some .closing ∨
  ∃ f, (s.slot (bayRec b)).state.flight = some f ∧ f.cls = .hunt ∧ f.cmd = .closing ∧ (s.slot (bayRec b)).pend.hunt = none

theorem hncTold_close (htest : s.underTest = some b) (hawaits : s.hnc.state.awaits = true) {v : Bool}
    (hpend : v = false ∨ (s.slot (bayRec b)).pend.hunt = none) :
    s.hncTold (bayRec b) .closing .superseded v = s.huntCloseTold .superseded := by
  have hclear : (v && (s.slot (bayRec b)).pend.hunt.isSome) = false := by
    rcases hpend with h | h <;> simp [h]
  unfold State.hncTold
  rw [htest]
  dsimp only
  rw [hclear, hawaits, beq_self_eq_true]
  rfl

/-- The hunt is told once of its superseded CLOSE. -/
theorem ownClose_told (htest : s.underTest = some b) (hawaits : s.hnc.state.awaits = true) (h : OwnClose s b) :
    ∃ u : State, u.hnc = s.hnc ∧ u.maskH = s.maskH ∧ (s.tripRequest (bayRec b)).hnc = (u.huntCloseTold .superseded).hnc := by
  rw [tripRequest_hnc]
  rcases h with hpend | ⟨f, hf, hcls, hcmd, hpend⟩
  · have hblocked (u : State) (cmd : Command) (hu : (u.slot (bayRec b)).pend.hunt = some .closing) :
        u.hncTold (bayRec b) cmd .superseded true = u := by
      unfold State.hncTold
      split
      · exact if_neg (by rw [hu]; simp)
      · rfl
    obtain ⟨hbeside, hkept⟩ := beside_takeTrip s b fun f _ _ => hblocked _ _ (by rw [supersede_slot]; exact hpend)
    have hmask := takeTrip_maskH s (bayRec b)
    generalize s.takeTrip (bayRec b) = u at hbeside hkept hmask
    have htested : (u.setPend (bayRec b) .hunt none).underTest = some b :=
      (underTest_of_hnc (s := s) (t := u.setPend (bayRec b) .hunt none) (congrArg Hnc.current hbeside.hnc :)
        (congrArg Hnc.cands hbeside.hnc :)).trans htest
    have hwaits : (u.setPend (bayRec b) .hunt none).hnc.state.awaits = true :=
      (congrArg (fun h : Hnc => h.state.awaits) hbeside.hnc :).trans hawaits
    refine ⟨u.setPend (bayRec b) .hunt none, hbeside.hnc, hmask, ?_⟩
    rw [swept_withdrawn (c := .hunt) (hkept.trans hpend), tellSuperseded_hunt, hncTold_close htested hwaits (.inl rfl)]
  · have hbeside := beside_supersede s (bayRec b)
    have hslot : ((s.supersede (bayRec b)).slot (bayRec b)).pend.hunt = none := by
      rw [supersede_slot]
      exact hpend
    have hmask := State.maskH_of_maskS (supersede_maskS s (bayRec b))
    have htaken : s.takeTrip (bayRec b) = (s.supersede (bayRec b)).tellFlightSuperseded (bayRec b) f :=
      takeTrip_superseded hf (by rw [hcmd]; decide)
    rw [htaken]
    generalize s.supersede (bayRec b) = u at hbeside hslot hmask
    have htested : u.underTest = some b :=
      (underTest_of_hnc (congrArg Hnc.current hbeside.hnc :) (congrArg Hnc.cands hbeside.hnc :)).trans htest
    have hwaits : u.hnc.state.awaits = true := (congrArg (fun h : Hnc => h.state.awaits) hbeside.hnc :).trans hawaits
    have htold : u.tellFlightSuperseded (bayRec b) f = u.huntCloseTold .superseded := by
      unfold State.tellFlightSuperseded
      rw [hcls, hcmd]
      exact hncTold_close htested hwaits (.inr hslot)
    refine ⟨u, hbeside.hnc, hmask, ?_⟩
    rw [htold, swept_kept (c := .hunt)]
    exact fun e => nomatch (closeSuperseded_keeps (endSteps_unhunted (bayRec b)) hslot).symm.trans e

theorem ownClose_restores (htest : s.underTest = some b) (hstate : s.hnc.state = .restoring ∨ s.hnc.state = .retestClosing)
    (h : OwnClose s b) : (s.tripRequest (bayRec b)).hnc.restoreOut = true := by
  obtain ⟨u, hhnc, -, htold⟩ := ownClose_told htest (by rcases hstate with e | e <;> rw [e] <;> rfl) h
  have hset : u.huntCloseTold .superseded = u.setRestoreOut true := by
    unfold State.huntCloseTold
    rcases hstate with e | e <;> rw [hhnc, e]
  rw [htold, hset]
  rfl

/-- The restore of an aborting hunt is superseded: the hunt ends (R143). -/
theorem ownClose_aborts {w : HuntResult} (htest : s.underTest = some b) (hstate : s.hnc.state = .aborting) (h : OwnClose s b)
    (hw : s.hnc.pendingResult = some w) : (s.tripRequest (bayRec b)).hnc.state = .idle ∧
      (s.tripRequest (bayRec b)).hnc.bayOpen = none ∧
      (s.tripRequest (bayRec b)).hnc.last = some { result := w, bay := none, started := s.hnc.started, ended := s.stamp } ∧
      ∀ y, s.curCandidate = some y → Outcome s (s.tripRequest (bayRec b)) (failedOutcome y.outcome) := by
  obtain ⟨u, hhnc, hmask, htold⟩ := ownClose_told htest (by rw [hstate]; rfl) h
  have hset : u.huntCloseTold .superseded = u.abortRestoreFailed := by
    unfold State.huntCloseTold
    rw [hhnc, hstate]
  have hcurrent : u.curCandidate = s.curCandidate := by
    unfold State.curCandidate State.candidate
    rw [hhnc]
  have htested : u.underTest = some b := (underTest_of_hnc (by rw [hhnc]) (by rw [hhnc])).trans htest
  obtain ⟨⟨hidle, hlast, -⟩, hopen, -, houtcome⟩ := abortRestoreFailed_leaves htested (by rw [hhnc]; exact hw)
  rw [hhnc, stamp_of_maskH hmask] at hlast
  refine ⟨?_, ?_, ?_, fun y hy j hj => ?_⟩ <;> rw [htold, hset]
  · exact hidle
  · exact hopen
  · exact hlast
  · exact houtcome y (hcurrent.trans hy) j (by rw [hhnc]; exact hj)

end own

/-! ### The hunt's state after the request -/

section state
variable {s : State} {b : Bay}

theorem closeSuperseded_running (h : s.hnc.state ≠ .aborting) : s.huntCloseTold .superseded = s ∨
    s.huntCloseTold .superseded = s.setRestoreOut true := by
  unfold State.huntCloseTold
  cases hstate : s.hnc.state with
  | aborting => exact absurd hstate h
  | restoring => exact .inr rfl
  | retestClosing => exact .inr rfl
  | _ => exact .inl rfl

/-- A hunt that is not aborting, told of a superseded CLOSE, marks it at most. -/
theorem tripRequest_plain (hfirst : s.hnc.state ≠ .aborting)
    (hplain : ∀ f, (s.slot (bayRec b)).state.flight = some f → f.cls = .hunt → f.cmd = .opening ∨ f.cmd = .closing) :
    (s.tripRequest (bayRec b)).hnc = { s.hnc with restoreOut := (s.tripRequest (bayRec b)).hnc.restoreOut } := by
  have htold {t : State} {n : Rec} {v : Bool} (ht : t.hnc = { s.hnc with restoreOut := t.hnc.restoreOut }) :
      (t.hncTold n .closing .superseded v).hnc = { s.hnc with restoreOut := (t.hncTold n .closing .superseded v).hnc.restoreOut } := by
    have hcases := closeSuperseded_running (s := t) (by rw [ht]; exact hfirst)
    unfold State.hncTold
    split
    · split
      · rcases hcases with h | h
        · rw [if_pos (by decide), h]
          exact ht
        · rw [if_pos (by decide), h]
          show ({ t.hnc with restoreOut := true } : Hnc) = _
          rw [ht]
          rfl
      · exact ht
    · exact ht
  refine withdraw_keeps (P := fun t => t.hnc = { s.hnc with restoreOut := t.hnc.restoreOut }) (fun _ _ h => h)
    (fun t c cmd hclose ht => ?_) ?_
  · obtain rfl := isClose_iff.mp hclose
    by_cases hc : c = .hunt
    · subst hc
      exact htold ht
    · rw [(tellSuperseded_pend (s := t) (b := b) hc).2]
      exact ht
  · rcases takeTrip_cases s (bayRec b) with heq | ⟨x, -, heq⟩ | ⟨f, hf, ho, heq⟩ <;> rw [heq]
    · rw [(beside_issueTrip s _).hnc]
    · rfl
    · by_cases hcls : f.cls = .hunt
      · have hcmd := (hplain f hf hcls).resolve_left ho
        have hflight : (s.supersede (bayRec b)).tellFlightSuperseded (bayRec b) f =
            (s.supersede (bayRec b)).hncTold (bayRec b) .closing .superseded true := by
          unfold State.tellFlightSuperseded
          rw [hcls, hcmd]
        rw [hflight]
        exact htold (by rw [(beside_supersede s _).hnc])
      · rw [(beside_tellFlight _ b f fun e => absurd e hcls).1.hnc, (beside_supersede s _).hnc]

theorem endPending_state (s : State) : s.endPending.hnc.state = s.hnc.state ∨ s.endPending.hnc.state = .idle := by
  cases h : s.hnc.pendingResult with
  | none =>
    have hkeeps : s.endPending = s := by
      unfold State.endPending
      rw [h]
    exact .inl (by rw [hkeeps])
  | some w =>
    rw [endPending_hnc h]
    exact .inr rfl

/-- An aborting hunt is told of a superseded command: it aborts on, or has ended. -/
theorem hncTold_aborting {cmd : Command} {v : Bool} {n : Rec} (h : s.hnc.state = .aborting ∨ s.hnc.state = .idle) :
    (s.hncTold n cmd .superseded v).hnc.state = .aborting ∨ (s.hncTold n cmd .superseded v).hnc.state = .idle := by
  rcases h with h | h
  · have hends {u : State} (hu : u.hnc.state = .aborting) : u.endPending.hnc.state = .aborting ∨ u.endPending.hnc.state = .idle :=
      (endPending_state u).imp_left fun e => e.trans hu
    have hlocked (u : State) (hu : u.hnc.state = .aborting) : (u.huntLock .closeFailed).hnc.state = .aborting := by
      rw [huntLock_hnc]
      exact hu
    have hset (u : State) (o : CandOutcome) (hu : u.hnc.state = .aborting) : (u.setCurOutcome o).hnc.state = .aborting := by
      rw [setCurOutcome_hnc]
      exact hu
    have hclose : (s.huntCloseTold .superseded).hnc.state = .aborting ∨ (s.huntCloseTold .superseded).hnc.state = .idle := by
      have heq : s.huntCloseTold .superseded = s.abortRestoreFailed := by
        unfold State.huntCloseTold
        rw [h]
      rw [heq, abortRestoreFailed_judged]
      refine hends (hlocked _ ?_)
      unfold judged
      split
      · split
        · exact hset s _ h
        · exact h
      · exact h
    have hopen (b : Bay) : (s.huntOpenTold b .superseded).hnc.state = .aborting ∨ (s.huntOpenTold b .superseded).hnc.state = .idle := by
      have heq : s.huntOpenTold b .superseded = (s.setCurOutcome .failedOpen).endPending := by
        unfold State.huntOpenTold
        rw [h]
      rw [heq]
      exact hends (hset s _ h)
    unfold State.hncTold
    split
    · split
      · split
        · exact hclose
        · exact hopen _
      · exact .inl h
    · exact .inl h
  · refine .inr ?_
    unfold State.hncTold
    split
    · rw [if_neg (by rw [h]; simp [HuntState.awaits])]
      exact h
    · exact h

theorem tripRequest_aborting (h : s.hnc.state = .aborting) :
    (s.tripRequest (bayRec b)).hnc.state = .aborting ∨ (s.tripRequest (bayRec b)).hnc.state = .idle := by
  refine withdraw_keeps (P := fun t => t.hnc.state = .aborting ∨ t.hnc.state = .idle) (fun _ _ h => h)
    (fun t c cmd _ ht => ?_) ?_
  · by_cases hc : c = .hunt
    · subst hc
      exact hncTold_aborting ht
    · rw [(tellSuperseded_pend (s := t) (b := b) hc).2]
      exact ht
  · rcases takeTrip_cases s (bayRec b) with heq | ⟨x, -, heq⟩ | ⟨f, -, -, heq⟩ <;> rw [heq]
    · rw [(beside_issueTrip s _).hnc]
      exact .inl h
    · exact .inl h
    · have hbefore : (s.supersede (bayRec b)).hnc.state = .aborting := by
        rw [(beside_supersede s _).hnc]
        exact h
      by_cases hcls : f.cls = .hunt
      · have hflight : (s.supersede (bayRec b)).tellFlightSuperseded (bayRec b) f =
            (s.supersede (bayRec b)).hncTold (bayRec b) f.cmd .superseded true := by
          unfold State.tellFlightSuperseded
          rw [hcls]
        rw [hflight]
        exact hncTold_aborting (.inl hbefore)
      · rw [(beside_tellFlight _ b f fun e => absurd e hcls).1.hnc]
        exact .inl hbefore

end state

end Sys2Proof.Proofs.TripAtHunt

/-! A protection trip (R34, R35, R142, R150 to R152, R165): its four hand-overs. -/

namespace Sys2Proof.Proofs.ProtectionTrips
open Sys2Proof.Machine Sys2Proof.Safety Sys2Proof.Proofs.Occurrences Sys2Proof.Proofs.HuntBays
  Sys2Proof.Proofs.HuntEnd Sys2Proof.Proofs.HuntAbort Sys2Proof.Proofs.HuntFinds Sys2Proof.Proofs.OccurrenceRules
  Sys2Proof.Proofs.ControlSteps Sys2Proof.Proofs.TripRequests Sys2Proof.Proofs.TripAtHunt

/-! ### The companion occurrence where no channel is armed (R161, R165) -/

section companion
variable {s : State}

theorem occurFuel_companion (h : Unarmed s) (n : Nat) {o : Occ} (ho : o.companion = true) :
    occurFuel (n + 1) o s =
      (((s.takeOcc o).enterCompanion []).setFac o.factor ((s.takeOcc o).fac o.factor)).judgeOutSlot := by
  have hset : (s.takeOcc o).triggerSet o.factor o.mask = [] := triggerSet_eq_nil h _ _
  have hfac : ((s.takeOcc o).enterCompanion []).fac o.factor = (s.takeOcc o).fac o.factor := rfl
  simp [occurFuel, hset, State.triggerChans, State.judgeTriggered, forEach, chanMask, ho, hfac]

theorem occurWithRecord_fac (h : Unarmed s) (hpart : s.mgu.part ≠ .bypass) (f : Factor) (m : BitVec 9) (d : List Byte) (g : Factor) :
    (s.occurWithRecord f m d).fac g = if f = g then (s.fac f).take m (detail d) s.stamp else s.fac g := by
  unfold State.occurWithRecord State.occurOf
  rw [if_neg (by simpa using hpart), occurFuel_companion h 4 rfl]
  refine (State.setFac_fac_at _ _ _ _).trans ?_
  split
  · exact State.setFac_fac _ _ _
  · next hne => exact (State.setFac_fac_at _ _ _ _).trans (if_neg hne)

end companion

section trip
variable {s : State} {b : Bay} {cause : TripCause} {o : Operated} {e : BayEval} {d : Direction}

/-- The latch holds the cause. -/
def latched (s : State) (b : Bay) (cause : TripCause) : State := s.setElem b { s.elem b with latch := some cause }

/-- The trip handed to the slot, and then to the hunt. -/
@[irreducible] def handed (s : State) (b : Bay) (cause : TripCause) : State := ((latched s b cause).tripRequest (bayRec b)).hncTrip

/-- The trip with its record, before its occurrence. -/
def recorded (s : State) (b : Bay) (cause : TripCause) (e : BayEval) (d : Direction) : State :=
  (handed s b cause).tripRecord b cause e d { shots := (s.rcl b).shots, group := s.activeNo, level := s.fru.effective }

theorem protectionTrip_eq : s.protectionTrip b cause o e d = (recorded s b cause e d).occurWithRecord fTrip (bayMask b)
    ([byte cause.code, byte o.code] ++ tagBytes e.tag) := by
  unfold recorded handed
  rfl

theorem protectionTrip_maskE : (s.protectionTrip b cause o e d).maskE = (recorded s b cause e d).maskE := by
  rw [protectionTrip_eq]
  exact State.occurWithRecord_maskE _ _ _ _

theorem handed_maskH (s : State) (b : Bay) (cause : TripCause) : (handed s b cause).maskH = (latched s b cause).maskH := by
  unfold handed
  exact (closedH_mask (latched s b cause)).hncTrip (tripRequest_maskH (latched s b cause) (bayRec b))

theorem protectionTrip_maskH : (s.protectionTrip b cause o e d).maskH = (latched s b cause).maskH := by
  have hrecord : (recorded s b cause e d).maskH = (handed s b cause).maskH := rfl
  have hoccur : (s.protectionTrip b cause o e d).maskH = (recorded s b cause e d).maskH :=
    State.maskH_of_maskS (State.maskS_of_maskE protectionTrip_maskE)
  rw [hoccur, hrecord, handed_maskH]

theorem protectionTrip_elem : (s.protectionTrip b cause o e d).elem b = { s.elem b with latch := some cause } :=
  (congrArg (fun p : Pru => p.elem.look b) (State.maskH_pru protectionTrip_maskH)).trans (Vector.look_put_same _ _ _)

/-- What the controllers hold after the trip is what its hand-overs left there. -/
theorem protectionTrip_blocks : (s.protectionTrip b cause o e d).hnc = (handed s b cause).hnc ∧
    (s.protectionTrip b cause o e d).fru = (handed s b cause).fru ∧ (s.protectionTrip b cause o e d).bcu = (handed s b cause).bcu ∧
    (s.protectionTrip b cause o e d).rcc = (handed s b cause).rcc ∧ (s.protectionTrip b cause o e d).riu = (handed s b cause).riu := by
  have hmask : (s.protectionTrip b cause o e d).maskE = (recorded s b cause e d).maskE := protectionTrip_maskE
  exact ⟨State.maskE_hnc (s := recorded s b cause e d) hmask, State.maskE_fru (s := recorded s b cause e d) hmask,
    State.maskE_bcu (s := recorded s b cause e d) hmask, State.maskE_rcc (s := recorded s b cause e d) hmask,
    State.maskE_riu (s := recorded s b cause e d) hmask⟩

/-! ### The record (R149 to R152) -/

theorem handed_ledger (s : State) (b : Bay) (cause : TripCause) : ledger (handed s b cause) = ledger s := by
  unfold handed
  exact (tripSteps_ledger (ledger s)).hncTrip ((tripSteps_ledger (ledger s)).tripRequest (bayRec b) rfl)

/-- The record of a trip. -/
structure TripRecord (s : State) (b : Bay) (cause : TripCause) (e : BayEval) (d : Direction) (t : State) : Prop where
  top : t.recd.top = s.recd.top + 1
  nextSeq : t.recd.nextSeq = s.recd.nextSeq + 1
  count : t.recd.count = min 16 (s.recd.count + 1)
  record : ∃ z, t.recd.ring.look t.recd.top = some z ∧ z.seq = s.recd.nextSeq ∧ z.stamp = s.stamp ∧ z.bay = b ∧
    z.cause = cause.asRecord ∧ z.shots = (s.rcl b).shots ∧ z.group = s.activeNo ∧ z.level = s.fru.effective ∧
    z.tag = some e.tag ∧ z.ia = e.ia.mag ∧ z.ib = e.ib.mag ∧ z.ic = e.ic.mag ∧ z.inn = e.inn.mag ∧ z.i0 = e.i0.mag ∧
    z.direction = d ∧ z.vn = (s.pairedBus e.tag).map fun v => v.vn.mag

theorem protectionTrip_record : TripRecord s b cause e d (s.protectionTrip b cause o e d) := by
  have hledger : ledger (s.protectionTrip b cause o e d) = ledger (recorded s b cause e d) :=
    ledger_of_maskS (State.maskS_of_maskE protectionTrip_maskE)
  have hmask := handed_maskH s b cause
  have hstamp : (handed s b cause).stamp = s.stamp := stamp_of_maskH (s := latched s b cause) hmask
  have hbus : (handed s b cause).pairedBus e.tag = s.pairedBus e.tag := by
    unfold State.pairedBus
    rw [State.maskB_meu (s := latched s b cause) (State.maskB_of_maskH hmask)]
    rfl
  obtain ⟨htop', hseq', hcount'⟩ := ledger_top (handed_ledger s b cause)
  obtain ⟨htop, hseq, hcount⟩ := ledger_top hledger
  have hstored : (recorded s b cause e d).recd.ring.look (recorded s b cause e d).recd.top = _ :=
    storeRecord_top (s := handed s b cause) _
  obtain ⟨x, hx, hbare⟩ := ledger_record hledger hstored
  refine ⟨htop.trans (congrArg (· + 1) htop'), hseq.trans (congrArg (· + 1) hseq'),
    hcount.trans (congrArg (fun k => min 16 (k + 1)) hcount'), x, (congrArg _ htop).trans hx,
    (congrArg FaultRecord.seq hbare :).trans hseq', (congrArg FaultRecord.stamp hbare :).trans hstamp,
    (congrArg FaultRecord.bay hbare :), (congrArg FaultRecord.cause hbare :), (congrArg FaultRecord.shots hbare :),
    (congrArg FaultRecord.group hbare :), (congrArg FaultRecord.level hbare :), (congrArg FaultRecord.tag hbare :),
    (congrArg FaultRecord.ia hbare :), (congrArg FaultRecord.ib hbare :), (congrArg FaultRecord.ic hbare :),
    (congrArg FaultRecord.inn hbare :), (congrArg FaultRecord.i0 hbare :), (congrArg FaultRecord.direction hbare :),
    (congrArg FaultRecord.vn hbare :).trans ?_⟩
  exact congrArg (Option.map fun v => v.vn.mag) hbus

/-! ### The hunt (R142) -/

/-- The states of the hunt that a trip aborts. -/
def Hunts (s : State) : Prop := s.hnc.state = .opening ∨ s.hnc.state = .dwell ∨ s.hnc.state = .restoring ∨
  s.hnc.state = .retestWait ∨ s.hnc.state = .retestClosing ∨ s.hnc.state = .retestDwell

theorem hunts_iff : Hunts s ↔ s.hnc.state.running = true ∧ s.hnc.state ≠ .aborting := by
  unfold Hunts
  cases s.hnc.state <;> simp [HuntState.running]

theorem hncTrip_still (h : ¬ Hunts s) : s.hncTrip = s := by
  rw [hunts_iff] at h
  exact if_neg (by simpa using h)

theorem hncTrip_aborts (h : Hunts s) : s.hncTrip = s.abortHuntWith .abortedTrip := by
  rw [hunts_iff] at h
  exact if_pos (by simpa using h)

theorem handed_still (h : ¬ Hunts s) : handed s b cause = (latched s b cause).tripRequest (bayRec b) := by
  unfold handed
  refine hncTrip_still ?_
  by_cases haborting : s.hnc.state = .aborting
  · rcases tripRequest_aborting (s := latched s b cause) (b := b) haborting with e | e <;> simp [Hunts, e]
  · have hdeaf : Deaf b (latched s b cause) := .inr (by
      show s.hnc.state.awaits = false
      unfold Hunts at h
      cases hs : s.hnc.state <;> simp_all [HuntState.awaits])
    unfold Hunts
    rw [hdeaf.tripRequest.hnc]
    exact h

theorem handed_aborts (h : Hunts s)
    (hplain : ∀ f, (s.slot (bayRec b)).state.flight = some f → f.cls = .hunt → f.cmd = .opening ∨ f.cmd = .closing)
    {a : Bay} (htest : s.underTest = some a) :
    HuntAborts ((latched s b cause).tripRequest (bayRec b)) .abortedTrip a (handed s b cause) := by
  obtain ⟨hrunning, hfirst⟩ := hunts_iff.mp h
  have hhnc := tripRequest_plain (s := latched s b cause) (b := b) hfirst hplain
  have hstate : ((latched s b cause).tripRequest (bayRec b)).hnc.state = s.hnc.state := by rw [hhnc]; rfl
  have htested : ((latched s b cause).tripRequest (bayRec b)).underTest = some a :=
    (underTest_of_hnc (s := s) (by rw [hhnc]; rfl) (by rw [hhnc]; rfl)).trans htest
  have heq : handed s b cause = ((latched s b cause).tripRequest (bayRec b)).abortHuntWith .abortedTrip := by
    unfold handed
    exact hncTrip_aborts (by rw [hunts_iff, hstate]; exact ⟨hrunning, hfirst⟩)
  rw [heq]
  exact huntAborts_abortHuntWith htested (by rw [hstate]; exact hrunning) (by rw [hstate]; exact hfirst) _

/-! ### The occurrence (R35, R165) -/

theorem protectionTrip_fac (hunarmed : Unarmed s) (hpart : s.mgu.part ≠ .bypass) :
    (s.protectionTrip b cause o e d).fac fTrip =
      (s.fac fTrip).take (bayMask b) (detail ([byte cause.code, byte o.code] ++ tagBytes e.tag)) s.stamp ∧
    (s.hnc.state = .idle ∨ s.hnc.state = .waiting → ∀ g, g ≠ fTrip → (s.protectionTrip b cause o e d).fac g = s.fac g) := by
  have hP := tripSteps_fac (s.fac fTrip)
  obtain ⟨hcalm, hfac⟩ : Unarmed (handed s b cause) ∧ (handed s b cause).fac fTrip = s.fac fTrip := by
    unfold handed
    exact hP.hncTrip (hP.tripRequest (bayRec b) (s := latched s b cause) ⟨hunarmed, rfl⟩)
  have hmask := handed_maskH s b cause
  have hpart' : (recorded s b cause e d).mgu.part ≠ .bypass := by
    show (handed s b cause).mgu.part ≠ .bypass
    rw [State.maskH_mgu hmask]
    exact hpart
  have hstamp : (handed s b cause).stamp = s.stamp := stamp_of_maskH (s := latched s b cause) hmask
  have hoccur (g : Factor) := occurWithRecord_fac (s := recorded s b cause e d) hcalm hpart' fTrip (bayMask b)
    ([byte cause.code, byte o.code] ++ tagBytes e.tag) g
  refine ⟨?_, fun hrests g hg => ?_⟩
  · rw [protectionTrip_eq, hoccur, if_pos rfl]
    show ((handed s b cause).fac fTrip).take _ _ (handed s b cause).stamp = _
    rw [hfac, hstamp]
  · have hdeaf : Deaf b (latched s b cause) := .inr (by
      show s.hnc.state.awaits = false
      rcases hrests with h | h <;> rw [h] <;> rfl)
    have hstill : ¬ Hunts s := by
      rw [hunts_iff]
      rcases hrests with h | h <;> rw [h] <;> exact fun k => nomatch k.1
    rw [protectionTrip_eq, hoccur, if_neg (Ne.symm hg)]
    show (handed s b cause).fac g = s.fac g
    rw [handed_still hstill]
    exact congrArg (fun v : Evu => v.factors.look g) hdeaf.tripRequest.evu

end trip

end Sys2Proof.Proofs.ProtectionTrips

/-! A bay evaluation handed on (R11, R27, R112 to R116): its direction, and what the elements take. -/

namespace Sys2Proof.Proofs.BayEvaluations
open Sys2Proof.Machine Sys2Proof.Safety Sys2Proof.Proofs.OccurrenceRules Sys2Proof.Proofs.ProtectionTrips

section evaluation
variable {s : State} {b : Bay} {e : BayEval} {d : Direction}

/-- The evaluation stored as the bay's latest (R148). -/
def received (s : State) (b : Bay) (e : BayEval) : State :=
  { s with recd := { s.recd with
      latest := s.recd.latest.put b
        (some { tag := e.tag, ia := e.ia.mag, ib := e.ib.mag, ic := e.ic.mag, inn := e.inn.mag, i0 := e.i0.mag }) } }

/-- The evaluation stored, and its direction. -/
def directed (s : State) (b : Bay) (e : BayEval) (d : Direction) : State := (received s b e).setDir b d

theorem takeBayEval_eq (s : State) (b : Bay) (e : BayEval) :
    s.takeBayEval b e = (directed s b e (s.judgeDirection b e)).pruEvaluate b e (s.judgeDirection b e) := rfl

theorem judges_iff : s.judges b = true ↔ s.runs b = true ∧ s.groupValid s.activeNo = true := Bool.and_eq_true_iff

/-! The direction (R112 to R114). -/

theorem judgeDirection_paired {v : BusEval} (h : s.judges b = true) (hv : Paired s e.tag v) :
    s.judgeDirection b e = directionOf s.activeGroup.nvdPickup (s.setting b fDirThreshold) e.inn v.vn := by
  unfold State.judgeDirection
  rw [if_pos h, pairedBus_eq_some.mpr hv]

theorem judgeDirection_unavailable (h : ¬ s.judges b = true ∨ ∀ v, ¬ Paired s e.tag v) : s.judgeDirection b e = .unavailable := by
  unfold State.judgeDirection
  rcases h with h | h
  · exact if_neg h
  · rw [pairedBus_eq_none h]
    exact ite_self _

/-! The elements (R26, R27). -/

theorem pruEvaluate_efu (s : State) (b : Bay) (e : BayEval) (d : Direction) : (s.pruEvaluate b e d).efu = s.efu := by
  unfold State.pruEvaluate
  dsimp only
  split
  · split
    · exact State.maskB_efu (s := latched (s.setElem b (s.elementStep b e d).1) b _) (State.maskB_of_maskH protectionTrip_maskH)
    · rfl
  · split <;> rfl

theorem takeBayEval_dir (s : State) (b : Bay) (e : BayEval) : (s.takeBayEval b e).dir b = s.judgeDirection b e := by
  have hefu : (s.takeBayEval b e).efu = (directed s b e (s.judgeDirection b e)).efu := pruEvaluate_efu _ _ _ _
  unfold State.dir
  rw [hefu]
  exact Vector.look_put_same _ _ _

theorem setElem_self (s : State) (b : Bay) : s.setElem b (s.elem b) = s :=
  congrArg (fun v => { s with pru := { s.pru with elem := v } }) (StatusRules.put_look_self _ _)

theorem pruEvaluate_out (h : s.runs b = false) : s.pruEvaluate b e d = s := by
  have hjudges : ¬ s.judges b = true := fun hj => by rw [(judges_iff.mp hj).1] at h; cases h
  exact (if_neg hjudges).trans (if_neg (by rw [h]; exact Bool.false_ne_true))

theorem pruEvaluate_invalid (h : s.runs b = true) (hgroup : s.groupValid s.activeNo = false) :
    s.pruEvaluate b e d = s.setElem b { s.elem b with phi := 0 } := by
  have hjudges : ¬ s.judges b = true := fun hj => by rw [(judges_iff.mp hj).2] at hgroup; cases hgroup
  exact (if_neg hjudges).trans (if_pos h)

/-- No element operates, or the latch is set: the elements are stored and nothing trips. -/
theorem pruEvaluate_steps (h : s.judges b = true)
    (hquiet : (s.elementStep b e d).2.cause = none ∨ (s.elementStep b e d).1.latch ≠ none) :
    s.pruEvaluate b e d = s.setElem b (s.elementStep b e d).1 := by
  unfold State.pruEvaluate
  rw [if_pos h]
  dsimp only
  split
  · next c hcause hlatch => exact absurd hquiet (by simp [hcause, hlatch])
  · rfl

theorem pruEvaluate_trips {c : TripCause} (h : s.judges b = true) (hcause : (s.elementStep b e d).2.cause = some c)
    (hlatch : (s.elementStep b e d).1.latch = none) : s.pruEvaluate b e d =
      (s.setElem b (s.elementStep b e d).1).protectionTrip b c (s.elementStep b e d).2 e d := by
  unfold State.pruEvaluate
  rw [if_pos h]
  dsimp only
  rw [hcause, hlatch]

/-! The SEF condition (R116). -/

theorem sefCondition_iff {i : Nat} : s.sefCondition b i d = true ↔ (s.cap (bayRec b)).sefCap = true ∧
    s.setting b fSefPickup ≠ 0 ∧ s.setting b fSefPickup ≤ i ∧
    (s.setting b fSefMode = 1 ∨ d = .forward ∨ (d = .unavailable ∧ s.setting b fSefFallback = 0)) := by
  unfold State.sefCondition sefModeNondir sefFallbackNondir
  simp only [Bool.and_eq_true, Bool.or_eq_true, bne_iff_ne, beq_iff_eq, decide_eq_true_eq, and_assoc, or_assoc]

end evaluation

end Sys2Proof.Proofs.BayEvaluations

/-! What a SAMPLE frame does, assembled (R3 to R6, R11, R27, R34 to R36, R53, R112, R136, R139, R142, R143). -/

namespace Sys2Proof.Proofs.SampleUse
open Sys2Proof.Machine Sys2Proof.Safety Sys2Proof.Proofs.FrameArrival Sys2Proof.Proofs.SampleContexts Sys2Proof.Proofs.SampleEvaluations
  Sys2Proof.Proofs.SampleFrames Sys2Proof.Proofs.HuntBays Sys2Proof.Proofs.RecloseTimers Sys2Proof.Proofs.OccurrenceRules
  Sys2Proof.Proofs.TripFailures Sys2Proof.Proofs.TripRequests Sys2Proof.Proofs.TripAtHunt Sys2Proof.Proofs.ProtectionTrips
  Sys2Proof.Proofs.BayEvaluations

/-- An evaluation point is told by the sample number alone. -/
theorem isPoint_number {cycle number : Byte} {p : Pos} (hp : p.val = cycle.toNat * 32 + number.toNat) :
    isPoint p = decide (number.toNat % 8 = 7) := by
  have hmod : p.val % 8 = number.toNat % 8 := by omega
  unfold isPoint
  rw [hmod]
  rfl

theorem ne_of_next {p last : Pos} (h : p - last = 1) : p ≠ last := by
  rintro rfl
  exact absurd h (by simp)

theorem part_of_runs {s : State} {b : Bay} (h : s.runs b = true) : s.mgu.part ≠ .bypass := by
  intro hpart
  have hprotects := (Bool.and_eq_true_iff.mp h).1
  unfold State.protecting at hprotects
  rw [hpart] at hprotects
  cases hprotects

/-- Settles O40, by the state of the source and the step to its frame, and then by what the evaluation of a bay finds. -/
theorem sampleTaken : Obligations.SampleTaken := by
  refine ⟨fun s src cycle number quality a1 a0 b1 b0 c1 c0 n1 n0 hfree hpart hsrc hown => ?frame, fun s b e => ?evaluation⟩
  case frame =>
    intro payload u goes
    have hexec := exec_sampleFrame_broadcast (payload := payload) hfree hpart hsrc hown
      (show [cycle, number, quality, a1, a0, b1, b0, c1, c0, n1, n0].length ≤ 1024 by simp)
    have hignored (h : u.meuSample src payload = u) : goes u := by
      rw [show s.refreshIn = u from rfl, h] at hexec
      exact hexec
    refine ⟨fun hnone => hignored (meuSample_unsourced (findSource_eq_none fun e huse => beq_false_of_ne (hnone e huse))),
      fun hnumber => hignored (meuSample_unparsed (parseSample_beyond hnumber ..)), fun e p hp hnumber huse haddr hfirst => ?_⟩
    intro c x good takes tag
    have hfind : u.findSource (fun x => x.addr == some src.toNat) = some e :=
      findSource_eq_some huse (beq_iff_eq.mpr haddr) fun f hf hfuse => beq_false_of_ne (hfirst f hf hfuse)
    have hgiven := meuSample_given (s := u) hfind (parseSample_eq hnumber hp quality a1 a0 b1 b0 c1 c0 n1 n0)
    have hpoint := isPoint_number hp
    have htag (c' : Option Pos) : (if isPoint p then some p else c') = if number.toNat % 8 = 7 then some p else c' := by
      rw [hpoint]
      by_cases h : number.toNat % 8 = 7 <;> simp [h]
    rw [show s.refreshIn = u from rfl, show payload = [cycle, number, quality, a1, a0, b1, b0, c1, c0, n1, n0] from rfl, hgiven]
      at hexec
    have hgoes {t : State} (ht : u.giveSample e p (quality == 1) x.vals = t) : goes t := by
      rw [← ht]
      exact hexec
    have htakes {y : SourceCtx} {v : Bool} (hv : (quality == 1) = v) (h : Given u e y (u.giveSample e p v x.vals)) : takes y :=
      ⟨_, hgoes (by rw [hv]), h.only, h.others, h.self⟩
    have hgood (h : good) : (quality == 1) = true := beq_iff_eq.mpr h
    have hbad (h : ¬ good) : (quality == 1) = false := beq_false_of_ne h
    clear_value takes goes
    refine ⟨fun habsent => ⟨fun hg => htakes (hgood hg) (given_absent (s := u) (good := true) habsent),
      fun hg => htakes (hbad hg) (given_absent (s := u) (good := false) habsent)⟩,
      fun last hlast hstate => ?refill, fun last hlast hvalid => ?valid⟩
    case refill =>
      refine ⟨fun hsame => hgoes ((giveSample_refill (s := u) hlast hstate).trans (refill_again hsame)),
        fun hne hg => htakes (hbad hg) (given_bad (s := u) hlast hstate hne),
        fun hne hstep hg => htakes (hgood hg) (given_restarts (s := u) hlast hstate hne hstep),
        fun hstep hg hfill hlen => htakes (hgood hg) (given_next (s := u) hlast hstate (ne_of_next hstep) hstep hfill hlen),
        fun hstep hg hfill hlen => ?_⟩
      · have hdone := given_completes (s := u) (q := x.vals) hlast hstate (ne_of_next hstep) hstep hfill hlen
        rw [htag] at hdone
        exact htakes (hgood hg) hdone
    case valid =>
      intro step run'
      have hrun : run u e last p (quality == 1) = run' := by
        show c.missing + (step - 1) + (if (quality == 1) = true then 0 else 1) = c.missing + (step - 1) + (if quality = 1 then 0 else 1)
        simp only [beq_iff_eq]
      have hrun₁ (h : good) : run u e last p true = run' := by rw [← hgood h, hrun]
      have hrun₀ (h : ¬ good) : run u e last p false = run' := by rw [← hbad h, hrun]
      refine ⟨fun h => hgoes ((giveSample_valid (s := u) hlast hvalid).trans (validFrame_ignored h)),
        fun hlow hhigh hlost => ?_, fun hstep hg hkept => ?_, fun hstep hg hkept l y hw => ?_,
        fun hlow hhigh hkept l y hw => ?_, fun hstep hg hkept hnumber => ?_⟩
      · have hstale := given_stale (s := u) (good := quality == 1) (q := x.vals) hlast hvalid hlow hhigh (hrun ▸ hlost)
        simp only [beq_iff_eq] at hstale
        exact htakes rfl hstale
      · have hnext := given_follows (s := u) (good := true) (q := x.vals) hlast hvalid hstep (hrun₁ hg ▸ hkept)
        rw [htag] at hnext
        exact htakes (hgood hg) hnext
      · have hnext := given_follows (s := u) (good := false) (q := x.vals) hlast hvalid hstep (hrun₀ hg ▸ hkept)
        rw [htag, show (u.ctx e).window = l ++ [y] from hw, lastVals_snoc, ← hw] at hnext
        refine htakes (hbad hg) ?_
        rw [← hrun₀ hg]
        exact hnext
      · intro held skipped new
        have hlist : stands u e last p (quality == 1) x.vals = new := by
          rw [stands_eq (s := u) hw hlow (by omega)]
          unfold own
          simp only [beq_iff_eq]
          rfl
        have hnew := given_stands (s := u) hlast hvalid hlow hhigh hlist (hrun ▸ hkept)
        unfold counted at hnew
        rw [hrun] at hnew
        simp only [beq_iff_eq] at hnew
        exact htakes rfl hnew
      · intro w evaluates
        have hw : pushLimited Config.windowLength c.window x = w := by
          unfold pushLimited newest
          rw [List.length_append]
          rfl
        have heval {m : State} {f : State → State} (heq : u.validFrame e last p true x.vals = f m)
            (hat : AtPoint u e { counted u e last p true with window := pushLimited Config.windowLength c.window x, lastTag := some p } m) :
            evaluates f :=
          ⟨m, hgoes (by rw [hgood hg, giveSample_valid (s := u) hlast hvalid, heq]), hat.only, hat.table, hat.latestBus,
            hw ▸ hat.ctx⟩
        have hpoints : isPoint p = true := hpoint.trans (decide_eq_true hnumber)
        refine ⟨fun b hrole => ?_, fun hrole => ?_⟩
        · obtain ⟨m, heq, hat⟩ := measured_bay (s := u) (q := x.vals) hpoints hstep (hrun₁ hg ▸ hkept) hrole
          rw [← hw]
          exact heval heq hat
        · obtain ⟨m, heq, hat⟩ := measured_bus (s := u) (q := x.vals) hpoints hstep (hrun₁ hg ▸ hkept) hrole
          rw [← hw]
          exact heval heq hat
  case evaluation =>
    intro t x d set judged paired untripped
    have hd : d = s.judgeDirection b e := takeBayEval_dir s b e
    have ht : t = (directed s b e d).pruEvaluate b e d := by
      rw [hd]
      exact takeBayEval_eq s b e
    have huntripped (y : Elements) : untripped y = (directed s b e d).setElem b y := rfl
    have hmeasures : OnlyMeasures s t := onlyMeasures_of_mask (State.takeBayEval_maskM _ b e)
    clear_value t d
    refine ⟨fun hj v hv => hd.trans (judgeDirection_paired (judges_iff.mpr hj) hv),
      fun h => hd.trans (judgeDirection_unavailable (h.imp_left fun hj => fun k => hj (judges_iff.mp k))),
      fun hruns => ?_, fun hruns hgroup => ?_, fun hj => ?judged⟩
    · rw [ht, pruEvaluate_out (s := directed s b e d) hruns, huntripped]
      exact (setElem_self (directed s b e d) b).symm
    · rw [ht, pruEvaluate_invalid (s := directed s b e d) hruns hgroup, huntripped]
      rfl
    case judged =>
      intro i cp ce phi ptoc etoc condition met hmet sef y cause operated
      have hsef : (directed s b e d).sefCondition b e.inn.mag d = met :=
        Bool.eq_iff_iff.mpr ((sefCondition_iff (s := directed s b e d)).trans hmet.symm)
      have hstep : (directed s b e d).elementStep b e d =
          (y, { phi := phi.2, ptoc := ptoc.2, etoc := etoc.2, sef := sef.2 }) := by
        unfold State.elementStep
        rw [hsef]
        rfl
      have hjudges : (directed s b e d).judges b = true := judges_iff.mpr hj
      refine ⟨fun hquiet => ?quiet, fun c hcause hlatch => ?trips⟩
      case quiet =>
        rw [ht, pruEvaluate_steps hjudges (by rw [hstep]; exact hquiet), hstep]
        rfl
      case trips =>
        have htrips := ht.trans (pruEvaluate_trips (c := c) hjudges (by rw [hstep]; exact hcause) (by rw [hstep]; exact hlatch))
        rw [hstep, ← huntripped] at htrips
        dsimp only at htrips
        generalize ho : ({ phi := phi.2, ptoc := ptoc.2, etoc := etoc.2, sef := sef.2 } : Operated) = o at htrips
        have hcode : o.code = operated := ho ▸ rfl
        have helem : (untripped y).elem b = y := State.setElem_elem _ b y
        have hlatched : latched (untripped y) b c = (untripped y).setElem b { y with latch := some c } := by
          unfold latched
          rw [helem]
        have hblocks := protectionTrip_blocks (s := untripped y) (b := b) (cause := c) (o := o) (e := e) (d := d)
        have hrecord := protectionTrip_record (s := untripped y) (b := b) (cause := c) (o := o) (e := e) (d := d)
        have hmask := protectionTrip_maskH (s := untripped y) (b := b) (cause := c) (o := o) (e := e) (d := d)
        have hfac := protectionTrip_fac (s := untripped y) (b := b) (cause := c) (o := o) (e := e) (d := d)
        have hlatch' := protectionTrip_elem (s := untripped y) (b := b) (cause := c) (o := o) (e := e) (d := d)
        rw [← htrips] at hblocks hrecord hmask hfac hlatch'
        intro k tag trip r
        refine ⟨hlatch'.trans (by rw [helem]), hmeasures, ?latest, hrecord.top, hrecord.nextSeq, hrecord.count, ?record, ?request⟩
        case latest => exact State.maskB_recd_latest (s := latched (untripped y) b c) (State.maskB_of_maskH hmask)
        case record =>
          obtain ⟨z, hz, hseq, hstamp, hbay, hcause', hshots, hgroup, hlevel, htag, hia, hib, hic, hin, hi0, hdir, hvn⟩ :=
            hrecord.record
          refine ⟨z, hz, hseq, hstamp, hbay, hcause', hshots, hgroup, hlevel, htag, hia, hib, hic, hin, hi0, hdir, fun v hv => ?_,
            fun hnone => ?_⟩
          · rw [hvn, pairedBus_eq_some (s := untripped y).mpr hv]
            rfl
          · rw [hvn, pairedBus_eq_none (s := untripped y) hnone]
            rfl
        case request =>
          intro m x'
          have hm : m = (latched (untripped y) b c).tripRequest (bayRec b) := by rw [hlatched]
          have hx' : x' = ((latched (untripped y) b c).tripRequest (bayRec b)).slot (bayRec b) := by rw [← hm]
          have hstart : OnlyAt (bayRec b) s (latched (untripped y) b c) := onlyAt_of_blocks rfl rfl rfl
          clear_value m x'
          refine ⟨fun hfree hpend => ?_, fun f hf hcmd => ?_, fun f hf hcmd => ?_, fun f hf hcmd => ?_, ?_, ?hunt⟩
          · rw [hx', tripRequest_issued (s := latched (untripped y) b c) hfree hpend]
            exact issued_of_nothing (x := k) hpend
          · rw [hx']
            exact tripRequest_merged (s := latched (untripped y) b c) hf hcmd
          · rw [hx']
            exact tripRequest_mergedEchoed (s := latched (untripped y) b c) hf hcmd
          · have hheld := tripRequest_supersedes (s := latched (untripped y) b c) hf hcmd
            rw [hx']
            exact ⟨hheld.state, hheld.lastTag⟩
          · rw [hx']
            exact tripRequest_noClose _ b
          case hunt =>
            intro h hunts restores plain taken ends
            have hdeaf (hd : s.underTest ≠ some b ∨ h.state = .idle ∨ h.state = .waiting) : Deaf b (latched (untripped y) b c) :=
              hd.imp_right fun hs => by
                show s.hnc.state.awaits = false
                rcases hs with hs | hs <;> rw [show s.hnc.state = _ from hs] <;> rfl
            refine ⟨fun hother => ?_, fun hh hp => ?_, fun htest hr hown => ?_, fun htest hs hown w hw => ?_, fun hstill => ?_,
              fun hh hp a htest => ?_, fun hunarmed => ?_⟩
            · have hbeside := (hdeaf hother).tripRequest
              rw [hm]
              exact ⟨hbeside.hnc, hbeside.fru, hstart.trans hbeside.only⟩
            · rw [hm]
              exact tripRequest_plain (s := latched (untripped y) b c) (hunts_iff.mp hh).2 hp
            · rw [hm]
              exact ownClose_restores (s := latched (untripped y) b c) htest hr hown
            · rw [hm]
              exact ownClose_aborts (s := latched (untripped y) b c) htest hs hown hw
            · have heq : handed (untripped y) b c = m :=
                  (handed_still (s := untripped y) (b := b) (cause := c) hstill).trans hm.symm
              rw [heq] at hblocks
              exact hblocks
            · exact ⟨_, hm ▸ handed_aborts (s := untripped y) hh hp htest, hblocks⟩
            · obtain ⟨hself, hothers⟩ := hfac hunarmed (part_of_runs hj.1)
              refine ⟨?_, hothers⟩
              rw [hself, hcode]
              rfl

end Sys2Proof.Proofs.SampleUse
